-- ==== Sys2Proof/Word.lean ====
section
/-!
DEFINITION. The widths the model writes bytes and identifiers in, and the names of the module's parts (00 R4, 01 R10).
-/

namespace Sys2Proof

/-- One byte of a memory, a store or a packet. -/
abbrev Byte := BitVec 8

/-- A compute die CD_0 to CD_7 (00 R4). -/
abbrev DieIx := Fin 8

/-- A physical core CD_n.CL_k.CO_j, numbered as its register window is (01 R4, R10). -/
structure CoreId where
  die : Fin 8
  cl  : Fin 10
  co  : Fin 9
deriving DecidableEq, Repr

/-- A cluster CD_n.CL_k. -/
structure ClusterId where
  die : Fin 8
  cl  : Fin 10
deriving DecidableEq, Repr

/-- A logical slot of a cluster, the name programs use for a core (01 R19). -/
structure SlotId where
  die  : Fin 8
  cl   : Fin 10
  slot : Fin 8
deriving DecidableEq, Repr

/-- The cluster a physical core belongs to. -/
def CoreId.cluster (c : CoreId) : ClusterId := ⟨c.die, c.cl⟩

/-- The cluster a slot belongs to. -/
def SlotId.cluster (x : SlotId) : ClusterId := ⟨x.die, x.cl⟩

/-- A number for a physical core, 0 to 719: the key its record of state is kept under. -/
def CoreId.key (c : CoreId) : Nat := (c.die.val * 10 + c.cl.val) * 9 + c.co.val

/-- A number for a cluster, 0 to 79. -/
def ClusterId.key (c : ClusterId) : Nat := c.die.val * 10 + c.cl.val

/-- A number for a slot, 0 to 639. -/
def SlotId.key (x : SlotId) : Nat := (x.die.val * 10 + x.cl.val) * 8 + x.slot.val

end Sys2Proof
end

