-- ==== Sys2Proof/Syntax.lean ====
section
/-!
DEFINITION. The commands of the block: one constructor of Instr per row of the command table, with its operands.
A command names the unit it happens in; bytes that the module reads from outside (host memory, a flit, a message) are its operands.
-/

namespace Sys2Proof

/-- What the ECC of a DRAM read reports (11 R322): nothing, a corrected symbol, or an uncorrectable line, with the module
address concerned. -/
inductive ReadErr where
  | clean
  | corrected (addr : Nat)
  | uncorrectable (addr : Nat)
deriving DecidableEq, Repr

/-- What the check bits of a core store or a cluster store report during an operation (01 R18). -/
inductive StoreErr where
  | clean
  | corrected
  | uncorrectable
deriving DecidableEq, Repr

/-- The engines of a core with a queue of their own (04 R100, ENG 1 to 5), and the sequencer. -/
inductive Engine where
  | seq | matrix | turn | chain | dma | codec
deriving DecidableEq, Repr

/-- The ENG code of an engine (04 R100). -/
def Engine.code : Engine → Nat
  | .seq => 0 | .matrix => 1 | .turn => 2 | .chain => 3 | .dma => 4 | .codec => 5


/-- A significand operation of a cell that carries a residue check (05 R156). -/
inductive CellOp where
  | multiply | divide | add
deriving DecidableEq, Repr

/-- What an upset leaves to be found by the checks on a pass (05 R153 to R156): side registers of cells (row, column) and values of the row
lane (by column) and of the column lane (by row) as they stand at the comparison; the significands of a cell's operation, its operands,
its result and the remainder of a division; or an element as the turn buffer's two paths make it, before the pass retires. -/
inductive Mismatch where
  | compare (cells : List (Fin 128 × Fin 128 × BitVec 32)) (rowLane colLane : List (Fin 128 × BitVec 32))
  | residue (op : CellOp) (row : Fin 128) (a b result rest : Nat)
  | turnPath (one two : BitVec 32)
deriving DecidableEq, Repr

/-- Why a port retrains, beside what has a command of its own (13 R392, 18 R520). -/
inductive RetrainCause where
  | threshold | partner | partnerRestart
deriving DecidableEq, Repr

/-- A link that has trained again (13 R392, 18 R516): a fabric port; or a board link, with a lane to be removed where its replay threshold
was met, and whether data flits are lost should it retire. -/
inductive TrainLink where
  | port (p : Fin 16)
  | board (b : Fin 8) (remove : Option (Fin 16)) (lost : Bool)
deriving DecidableEq, Repr

/-- A write to the MSI-X table or to the function's MSI-X mask (17 R501): a 32-bit word of an entry, or the mask of the whole function. -/
inductive MsixWrite where
  | word (v : Fin 256) (k : Fin 4) (value : BitVec 32)
  | functionMask (masked : Bool)
deriving DecidableEq, Repr

/-- What reaches a cluster that is clock-gated or asleep (20 R572): the program that was loaded, an event, an access of a store or a
prefix-tree request, or anything else that wakes a gated cluster only. -/
inductive WakeCause where
  | load | event | access | other
deriving DecidableEq, Repr

/-- A place a program routine reads or writes (04 R122): a byte address of the cluster store, or of the control core's data memory. -/
inductive CcPlace where
  | store (a : Nat)
  | data (off : Nat)
deriving DecidableEq, Repr

/-- What a program routine reads (places and lengths) and what it writes. -/
structure CcAccess where
  reads  : List (CcPlace × Nat)
  writes : List (CcPlace × List Byte)
deriving DecidableEq, Repr

/-- The core whose retained passes have been fed again, and what the check bits of its turn buffer report (05 R156). -/
structure Refeed where
  core : CoreId
  err  : StoreErr
deriving DecidableEq, Repr

/-- A counter or address base of a core that a register write reaches (04 R131, R132), and the value written. -/
inductive CoreReg where
  | bt (n : Fin 64) (value : BitVec 16)
  | pa (n : Fin 16) (value : BitVec 16)
  | lap (n : Fin 8) (value : BitVec 32)
  | abCur (n : Fin 16) (value : BitVec 48)
  | abBase (n : Fin 16) (value : BitVec 48)
deriving DecidableEq, Repr

/-- A write of the routing configuration (13 R405): the route entry of a module, or a port's dimension, dateline and enable. -/
inductive RouteWrite where
  | entry (dst : Fin 1024) (ports alt : BitVec 16)
  | portCfg (p : Fin 16) (dim : Fin 16) (dateline enable : Bool)
deriving DecidableEq, Repr

/-- A transport of FW_RECOVER (19 R556): the CXL mailbox or the sideband. -/
inductive RecoverVia where
  | mailbox | sideband
deriving DecidableEq, Repr

/-- Number of a FW_RECOVER transport. -/
def RecoverVia.code : RecoverVia → Nat
  | .mailbox => 0
  | .sideband => 1

/-- A transport of SPDM (19 R558): the DOE mailbox or MCTP over the sideband. -/
inductive SpdmVia where
  | doe | mctp
deriving DecidableEq, Repr

/-- Number of an SPDM transport. -/
def SpdmVia.code : SpdmVia → Nat
  | .doe => 0
  | .mctp => 1

/-- What an SPDM request asks of the responder (19 R557, R558): an answer, an answer with a signature, a secured session or its end. -/
inductive SpdmKind where
  | plain | sign | openSession | endSession
deriving DecidableEq, Repr

/-- A stream of the IDE (15 R455): CXL IDE on CXL.cache and CXL.mem, the PCIe link stream, the selective stream. -/
inductive IdeStream where
  | cacheMem | link | selective
deriving DecidableEq, Repr

/-- Number of an IDE stream. -/
def IdeStream.code : IdeStream → Nat
  | .cacheMem => 0
  | .link => 1
  | .selective => 2

/-- The mode that the host link trains in (15 R441, R442): a CXL mode with its FLIT code, or PCIe at a rate code; x8 or x4. -/
inductive LinkMode where
  | cxl256 (lowLatency x8 : Bool)
  | cxl68 (x8 : Bool)
  | pcie (rate : Fin 7) (x8 : Bool)
deriving DecidableEq, Repr

/-- What the host port's partner offers at training (15 R441): 256-byte flits at 64 GT/s, low-latency ones among them, 68-byte flits at 32 GT/s, the
PCIe rate without CXL; and whether all eight lanes train. -/
structure LinkPartner where
  cxl256     : Bool
  lowLatency : Bool
  cxl68      : Bool
  rate       : Fin 7
  lanes8     : Bool
deriving DecidableEq, Repr

/-- A part that fails bring-up (19 R543). -/
inductive BootPart where
  | computeDie | updateDie | hub
deriving DecidableEq, Repr

/-- The commands of the block: one constructor per row of the command table, in the table's order. -/
inductive Instr where
  /-- INSTRUCTION_DISPATCH (R97): The core sequencer reads the next instruction in program order and places a non-control instruction in its engine's queue, resolving address bases. -/
  | instructionDispatch (c : CoreId)
  /-- NOP (R101): Sequencer NOP honours its wait and its post. -/
  | nop (c : CoreId)
  /-- WAIT (R101): Sequencer WAIT stops dispatch until its baton or pacer wait is satisfied. -/
  | wait (c : CoreId)
  /-- SYNC (R101): SYNC stops dispatch until every earlier instruction of the core has retired, then makes its post. -/
  | sync (c : CoreId)
  /-- JUMP (R101): JUMP continues execution at the target index. -/
  | jump (c : CoreId)
  /-- LAP_SET (R101): LAP_SET writes a value into a lap counter. -/
  | lapSet (c : CoreId)
  /-- LOOP (R109): LOOP tests and decrements a lap counter and branches to its target or falls through. -/
  | loop (c : CoreId)
  /-- AB_SET (R101): AB_SET sets the current value and wrap base of an address base. -/
  | abSet (c : CoreId)
  /-- AB_ADD (R110): AB_ADD adds a signed increment to an address base, wrapping within its span. -/
  | abAdd (c : CoreId)
  /-- HURDLE_ARRIVE (R112): After every earlier instruction of the core retires, the core makes an arrival at a hurdle. -/
  | hurdleArrive (c : CoreId)
  /-- HURDLE_WAIT (R112): HURDLE WAIT stops dispatch until the hurdle passes in the epoch of the core's last arrival. -/
  | hurdleWait (c : CoreId)
  /-- HURDLE_ARRIVE_WAIT (R112): HURDLE ARRIVE_WAIT makes a fenced arrival and then waits for the hurdle to pass. -/
  | hurdleArriveWait (c : CoreId)
  /-- SPLIT (R101): SPLIT captures the timebase, the instruction index and a tag into the core's split log. -/
  | split (c : CoreId)
  /-- CALL_CC (R122): CALL_CC requests a routine from the cluster control core, which serves requests one at a time in arrival order. -/
  | callCc (c : CoreId)
  /-- CALL_CC_COMPLETE (R122): A cluster control routine runs to completion and the CALL_CC post is made. -/
  | callCcComplete (k : ClusterId) (w : CcAccess) (ds : List (Fin 8 × List Byte))
  /-- END_STEP (R120): END_STEP waits for retirement and pass verification, checks counters and pacers for residue, and halts the core. -/
  | endStep (c : CoreId)
  /-- BATON_POST (R102): A post arrives at a baton counter of a slot and is added to it before waits are evaluated. -/
  | batonPost (x : SlotId) (bt : Fin 64) (n : Nat)
  /-- PACER_RETURN (R107): A return arrives at a pacer and raises its count, or faults with PACER_OVERFLOW above the limit. -/
  | pacerReturn (x : SlotId) (pa : Fin 16) (n : Nat)
  /-- STALL_TIMEOUT (R119): A wait stays unsatisfied longer than STALL_LIMIT and the core stops with program fault STALL_TIMEOUT. -/
  | stallTimeout (c : CoreId) (eng : Engine)
  /-- MAC (R135): A matrix engine pass adds the products of two fed operand tiles into one accumulator bank. -/
  | mac (c : CoreId) (err : StoreErr)
  /-- MAC_DEPTHWISE (R274): A MAC with DW set runs a depth-wise pass fed from the window ring under its depth-wise record. -/
  | macDepthwise (c : CoreId) (err : StoreErr)
  /-- MAC_RETIRE (R138): A pass retires when its last reduction index has entered the array, freeing its operands and making its post. -/
  | macRetire (c : CoreId)
  /-- PASS_VERIFIED (R157): A pass's checksum comparison passes 272 cycles after retirement, releasing its retained copy. -/
  | passVerified (c : CoreId)
  /-- PASS_MISMATCH (R158): A pass comparison mismatches; the array stops, restores the touched banks and re-feeds the pass and later ones. -/
  | passMismatch (c : CoreId) (kind : Mismatch)
  /-- REFEED_DONE (R158): The re-feed of retained passes ends and the array resumes taking MACs. -/
  | refeedDone (c : Refeed)
  /-- EMIT (R164): EMIT hands a bank towards the exchange zone, putting it in state EMITTING. -/
  | emit (c : CoreId)
  /-- EMIT_TOKEN_ENTER (R164): Once every pass of the bank is verified, the token enters the exchange zone and EMIT retires with its post. -/
  | emitTokenEnter (c : CoreId)
  /-- TB_CFG (R144): TB_CFG writes one of the turn buffer's 32 configuration slots. -/
  | tbCfg (c : CoreId)
  /-- VX (R201): A decathlon chain VX is taken and streams 1 to 64 vectors through its enabled stages. -/
  | vx (c : CoreId) (err : StoreErr)
  /-- VX_RETIRE (R203): A VX retires after its latency with its writes, reductions, flags and post complete, returning held banks under REL. -/
  | vxRetire (c : CoreId) (k : Nat)
  /-- CH_CFG (R178): CH_CFG writes one word of a chain configuration slot. -/
  | chCfg (c : CoreId)
  /-- CH_CONST (R178): CH_CONST writes a chain constant register. -/
  | chConst (c : CoreId)
  /-- CX_BUILD (R294): CX_BUILD makes a prefix-code table from a histogram of a source tensor and writes it to a slot and a record. -/
  | cxBuild (c : CoreId) (err : ReadErr)
  /-- CX_LOAD (R300): CX_LOAD fills a table slot from a table record. -/
  | cxLoad (c : CoreId) (err : ReadErr)
  /-- CX_RELEASE (R299): CX_RELEASE moves a READY table slot to DRAINING, or FREE once no block pins it. -/
  | cxRelease (c : CoreId)
  /-- CX_PACK (R315): CX_PACK packs the handoff output of the next NVX chain instructions as one tensor. -/
  | cxPack (c : CoreId)
  /-- SLOT_DRAINED (R299): A DRAINING table slot's pin count reaches 0 and the slot becomes FREE. -/
  | slotDrained (k : ClusterId) (n : Fin 16)
  /-- PACK_BLOCK (R303): The packer codes one 4 KiB block, checks it on an independent path and writes its payload and header. -/
  | packBlock (c : CoreId) (misses : Nat)
  /-- EXPAND_BLOCK (R308): The expander starts a packed block into a free queue entry, decoding it and checking its CRC and substreams. -/
  | expandBlock (c : CoreId) (misses : Nat) (err : ReadErr)
  /-- EXPAND_DRAIN (R308): A checked queue entry is written to its destination in queue order after its descriptor is taken. -/
  | expandDrain (c : CoreId)
  /-- DX_MOVE (R335): A MOVE descriptor copies or converts a strided tensor with its scales. -/
  | dxMove (c : CoreId) (err : ReadErr)
  /-- DX_GATHER (R335): A GATHER descriptor takes source rows by an index tensor. -/
  | dxGather (c : CoreId) (err : ReadErr)
  /-- DX_WINDOW (R335): A WINDOW descriptor gathers convolution windows by its window record, feeding padding. -/
  | dxWindow (c : CoreId) (err : ReadErr)
  /-- LPACK (R337): A descriptor in codec mode LPACK packs plain data losslessly into a payload and header area. -/
  | lpack (c : CoreId) (err : ReadErr)
  /-- LEXPAND (R337): A descriptor in codec mode LEXPAND expands packed blocks to plain data. -/
  | lexpand (c : CoreId) (err : ReadErr)
  /-- LCOPY (R337): A descriptor in codec mode LCOPY moves packed payloads and headers unchanged. -/
  | lcopy (c : CoreId) (err : ReadErr)
  /-- FM_ENC (R282): A descriptor in mode FM2_ENC or FM4_ENC encodes K16 data in fixed-rate lossy blocks. -/
  | fmEnc (c : CoreId) (err : ReadErr)
  /-- FM_DEC (R283): A descriptor in mode FM2_DEC or FM4_DEC decodes fixed-rate lossy blocks to K16. -/
  | fmDec (c : CoreId) (err : ReadErr)
  /-- EARLY_READ (R312): Reading and expansion of an early-marked descriptor begin before it is taken once its conditions hold. -/
  | earlyRead (c : CoreId)
  /-- STREAM_DESCRIPTOR_TAKE (R241): The core DMA engine takes the head of its stream queue, alternately with its instruction queue. -/
  | streamDescriptorTake (c : CoreId) (err : ReadErr)
  /-- DESCRIPTOR_RETIRE (R341): A descriptor's last write lands and it retires with its post, in take order. -/
  | descriptorRetire (c : CoreId) (stream : Bool)
  /-- MESSAGE_DELIVER (R398): A routed data message arrives at its destination module, is checked, written and, for the last message, posted. -/
  | messageDeliver (i : Nat)
  /-- HURDLE_FLIT_RECEIVE (R113): A member's hurdle ARRIVE flit is counted in its epoch or discarded. -/
  | hurdleFlitReceive
  /-- HURDLE_PASS (R114): A hurdle's arrivals complete; its epoch advances and waiting cores are released. -/
  | hurdlePass (h : Fin 256)
  /-- STEP_ABORT_RECEIVE (R118): A step abort HURDLE flit stops every occupied core with REMOTE_ABORT and is passed on to bound groups. -/
  | stepAbortReceive
  /-- SPARE_COPY_DONE (R22): The copy of a retiring core's store and sequencer state into CO_8 completes and the cluster's step may start. -/
  | spareCopyDone (k : ClusterId)
  /-- NOP_CMD (R472): Command NOP completes with no effect. -/
  | nopCmd (r : Fin 16) (seq : Nat)
  /-- ECHO (R472): Command ECHO returns sixteen parameter bytes in RESULT. -/
  | echo (r : Fin 16) (seq : Nat)
  /-- QUERY_VERSION (R474): QUERY_VERSION negotiates the ring's Shoavo protocol version. -/
  | queryVersion (r : Fin 16) (seq : Nat)
  /-- LOAD_PROGRAM (R475): LOAD_PROGRAM reads and checks a program image, writes initial contents and leaves occupied cores idle. -/
  | loadProgram (r : Fin 16) (seq : Nat) (image : List Byte)
  /-- BIND_GROUPS (R476): BIND_GROUPS binds parallel groups to VC_0 to VC_5 and starts the feature exchange. -/
  | bindGroups (r : Fin 16) (seq : Nat) (record : List Byte)
  /-- SET_TABLE_PAIR (R192): SET_TABLE of kind 0 writes a function table pair into every core, effective at a step boundary. -/
  | setTablePair (r : Fin 16) (seq : Nat) (tables : List Byte)
  /-- SET_TABLE_UPDATE (R347): SET_TABLE of kind 1 writes the update tables into all four update dies, effective at a step boundary. -/
  | setTableUpdate (r : Fin 16) (seq : Nat) (job : List Byte) (group : List Byte) (curve : List Byte) (tensor : List Byte)
  /-- SET_SCALES (R478): SET_SCALES copies KS8 wire scales from the host into the current view. -/
  | setScales (r : Fin 16) (seq : Nat) (data : List Byte)
  /-- RUN_STEP (R479): RUN_STEP checks and runs one training step, optionally committing it. -/
  | runStep (r : Fin 16) (seq : Nat)
  /-- RUN_PROGRAM (R480): RUN_PROGRAM runs the loaded program once without update or commit. -/
  | runProgram (r : Fin 16) (seq : Nat)
  /-- COMMIT_STEP (R481): COMMIT_STEP commits the uncommitted step of the given number. -/
  | commitStep (r : Fin 16) (seq : Nat)
  /-- STEP_COMMIT (R481): After relays and updates complete, the module writes commit records and sends the first commit round. -/
  | stepCommit
  /-- COMMIT_MESSAGE_RECEIVE (R482): A COMMIT message arrives and is kept for its round or discarded. -/
  | commitMessageReceive
  /-- COMMIT_ROUND_END (R481): A commit round ends when messages from every member arrive, sending the next round or flipping after the last. -/
  | commitRoundEnd
  /-- COMMIT_LIMIT (R483): LIMIT_MS passes before the last commit round ends; the commit ends FAULT_FATAL without a flip. -/
  | commitLimit
  /-- COPY_IN (R484): COPY_IN moves bytes from host memory to HBM or the slow tier. -/
  | copyIn (r : Fin 16) (seq : Nat) (data : List Byte)
  /-- COPY_OUT (R484): COPY_OUT moves bytes from module memory to host memory. -/
  | copyOut (r : Fin 16) (seq : Nat) (err : ReadErr)
  /-- CHECKPOINT_MAP (R485): CHECKPOINT_MAP binds the CXL.mem checkpoint window to slow-tier ranges. -/
  | checkpointMap (r : Fin 16) (seq : Nat)
  /-- READ_STATE (R486): READ_STATE copies a state space of a unit into host memory. -/
  | readState (r : Fin 16) (seq : Nat)
  /-- READ_JOURNAL (R487): READ_JOURNAL writes journal records for a range of SEQ values to host memory. -/
  | readJournal (r : Fin 16) (seq : Nat)
  /-- RETIRE_PART (R535): RETIRE_PART retires the named part. -/
  | retirePart (r : Fin 16) (seq : Nat) (lost : Bool)
  /-- REPAIR_PART (R535): REPAIR_PART tests the named part and returns it to service on a pass. -/
  | repairPart (r : Fin 16) (seq : Nat)
  /-- RESET_PART (R535): RESET_PART resets the named part. -/
  | resetPart (r : Fin 16) (seq : Nat) (lost : Bool)
  /-- PART_ACTION_DONE (R536): A part command's action ends and the command completes with its result. -/
  | partActionDone (u : Nat) (pass : Bool) (lanes : Nat) (mods : List Nat)
  /-- FW_STAGE (R550): FW_STAGE copies a firmware image into HBM and verifies it. -/
  | fwStage (r : Fin 16) (seq : Nat) (image : List Byte)
  /-- FW_ACTIVATE (R551): FW_ACTIVATE hands every unit over to the staged image between steps. -/
  | fwActivate (r : Fin 16) (seq : Nat) (fail : Option (Fin 109))
  /-- FLASHING_DONE (R553): The hub finishes rewriting the boot flash, raises the fused SVN if asked, and returns SEC_FW to NONE. -/
  | flashingDone
  /-- ATTEST (R561): ATTEST signs a report over a nonce and selected measurements. -/
  | attest (r : Fin 16) (seq : Nat)
  /-- GET_CERT (R557): GET_CERT writes part of a certificate chain to host memory. -/
  | getCert (r : Fin 16) (seq : Nat)
  /-- SIGNATURE_DONE (R558): The security engine completes a signature and hub source 28 fires. -/
  | signatureDone
  /-- FW_RECOVER_BEGIN (R556): FW_RECOVER BEGIN clears the recovery receive buffer. -/
  | fwRecoverBegin (via : RecoverVia) (req : List Byte)
  /-- FW_RECOVER_DATA (R556): FW_RECOVER DATA stores image bytes in the receive buffer. -/
  | fwRecoverData (via : RecoverVia) (req : List Byte)
  /-- FW_RECOVER_END (R556): FW_RECOVER END verifies the received image, writes the flash and restarts the module, or refuses it. -/
  | fwRecoverEnd (via : RecoverVia) (req : List Byte)
  /-- SQ_DOORBELL (R459): A write to CMD_SQ_TAIL offers submission entries to the marshal. -/
  | sqDoorbell (r : Fin 16) (tail : Fin 4096)
  /-- ENTRY_TAKE (R463): The marshal reads one submission entry and judges it as NOT_READY, SEQ_GAP, DUPLICATE or a command to execute. -/
  | entryTake (r : Fin 16) (entry : List Byte)
  /-- COMPLETION_WRITE (R460): A completion entry is written at the completion ring's tail in take order with the current phase. -/
  | completionWrite (r : Fin 16)
  /-- CQ_HEAD_WRITE (R460): A write to CMD_CQ_HEAD consumes completions, or is discarded if it passes the tail. -/
  | cqHeadWrite (r : Fin 16) (head : Fin 4096)
  /-- RING_ENABLE (R458): Writing ENABLE 1 resets a ring's indices, phase, sequence number, version and journal. -/
  | ringEnable (r : Fin 16) (size : Fin 4096)
  /-- RING_DISABLE (R458): Writing ENABLE 0 disables a ring unless commands or completions are outstanding. -/
  | ringDisable (r : Fin 16) (size : Fin 4096)
  /-- MARSHAL_RESTART (R514): A management core fault restarts the marshal on the remaining cores with the journal kept. -/
  | marshalRestart
  /-- RR_ARM (R415): The cluster routine RR_ARM checks and adopts the relay table and arms the step's relays. -/
  | rrArm (k : ClusterId) (err : ReadErr)
  /-- RELAY_STREAM_SEND (R429): A module begins sending a relay stream to its successor once the release count and trigger allow. -/
  | relayStreamSend (gather : Bool) (err : ReadErr)
  /-- RELAY_RECORD_PROCESS (R422): A relay engine adds an incoming record and the local block and sends the result on. -/
  | relayRecordProcess (n : Nat) (k : Nat) (err : ReadErr)
  /-- RELAY_RELEASE_RECEIVE (R429): A release message raises the REL word to the successor's completed stream count. -/
  | relayReleaseReceive (i : Nat)
  /-- GATHER_RECORD_WRITE (R434): A gather record is written into the next view and forwarded. -/
  | gatherRecordWrite (n : Nat) (k : Nat) (err : ReadErr)
  /-- CHAIN_SUMS_RECEIVE (R436): Statistics or norm chain values arrive from the previous rank. -/
  | chainSumsReceive (i : Nat)
  /-- UNIT_TAKE (R356): An update die takes a ready unit into a free buffer half when one frees. -/
  | unitTake (m : Fin 4) (err : ReadErr)
  /-- STATISTICS_PASS (R358): The statistics path forms row and column partials of a unit and passes them along the chain. -/
  | statisticsPass (m : Fin 4)
  /-- NORM_PASS (R360): The norm pass computes the global gradient norm and clip factor. -/
  | normPass
  /-- UPDATE_PASS (R362): An update die applies the update rule to its blocks and writes the next generation. -/
  | updatePass (m : Fin 4) (err : ReadErr)
  /-- RC_INIT (R234): RC_INIT empties the rollout cache and adopts a configuration record. -/
  | rcInit (k : ClusterId)
  /-- RC_OPEN (R238): RC_OPEN opens a sequence with every page-table entry invalid. -/
  | rcOpen (k : ClusterId)
  /-- RC_FORK (R238): RC_FORK opens a target sequence sharing the source's pages. -/
  | rcFork (k : ClusterId)
  /-- RC_WRITE (R246): RC_WRITE makes pages writable by copy-on-write and emits write descriptors. -/
  | rcWrite (k : ClusterId)
  /-- RC_SEAL (R251): RC_SEAL matches or inserts token pages in the prefix tree and merges identical pages. -/
  | rcSeal (k : ClusterId)
  /-- RC_WALK (R240): RC_WALK emits one read descriptor per valid page into the stream queue. -/
  | rcWalk (k : ClusterId)
  /-- RC_EVICT (R254): RC_EVICT evicts mapped pages to the slow tier. -/
  | rcEvict (k : ClusterId)
  /-- RC_FREE (R247): RC_FREE removes every mapping of a sequence and closes it. -/
  | rcFree (k : ClusterId)
  /-- LOW_WATER_EVICT (R254): Firmware evicts LIVE pages when free HBM slots fall below LOW_WATER. -/
  | lowWaterEvict (k : ClusterId)
  /-- EVICTION_COPY_DONE (R254): An eviction copy retires and the page becomes EVICTED. -/
  | evictionCopyDone
  /-- PAGE_FETCH_DONE (R243): A fetch copy completes, the page becomes LIVE and its walk descriptor is emitted. -/
  | pageFetchDone
  /-- PAGE_RECLAIM (R245): DEFERRED pages whose readers have retired become FREE. -/
  | pageReclaim (k : ClusterId)
  /-- PREFIX_NODE_OP (R253): A prefix match unit serves one node operation. -/
  | prefixNodeOp (k : ClusterId)
  /-- PATROL_SCRUB (R323): Patrol scrub reads a line and writes back a correction unless the line was written meanwhile. -/
  | patrolScrub (a : Nat) (row : Nat) (err : StoreErr)
  /-- SOFT_PPR (R324): A soft post-package repair moves a row to a spare row at a step boundary. -/
  | softPpr (u : Nat) (row : Nat)
  /-- PC_RETIRE_REMAP (R326): A retired pseudo-channel's lines are copied to their new places. -/
  | pcRetireRemap (n : Fin 16) (bad : List Nat)
  /-- PANEL_LANE_FAIL (R14): A failed panel-link lane is repaired by redundant-lane remapping or disables its UCIe module. -/
  | panelLaneFail (link : Fin 12) (m : Fin 25) (receive : Bool)
  /-- FLIT_TIME (R407): An ACTIVE port sends its next flit each flit time, in priority order or as IDLE. -/
  | flitTime (p : Fin 16)
  /-- FLIT_RECEIVE (R384): A flit arrives and is corrected, CRC-checked and accepted, acknowledged or answered with NAK. -/
  | flitReceive (p : Fin 16) (raw : List Byte)
  /-- NAK_RECEIVE (R385): A NAK makes the sender resend every unacknowledged flit from ACK_SEQ + 1. -/
  | nakReceive (p : Fin 16) (raw : List Byte)
  /-- ACK_TIMEOUT (R385): A flit unacknowledged within FP_RTT + 24 ns is replayed. -/
  | ackTimeout (p : Fin 16)
  /-- HOLD_RECEIVE (R393): A HOLD answer stops routed flits on the port for the advertised time. -/
  | holdReceive (p : Fin 16) (raw : List Byte)
  /-- HOLD_EXPIRY (R393): The hold time passes and the sender resends from ACK_SEQ + 1. -/
  | holdExpiry (p : Fin 16)
  /-- IDENT_SEND (R394): Each ACTIVE port sends a CONTROL IDENT flit once per millisecond. -/
  | identSend (p : Fin 16)
  /-- IDENT_RECEIVE (R394): A received IDENT flit is copied into FP_PARTNER. -/
  | identReceive (p : Fin 16) (raw : List Byte)
  /-- CONTROL_RETIRE (R392): A received RETIRE control flit retires the port's end. -/
  | controlRetire (p : Fin 16) (raw : List Byte)
  /-- PORT_DETECT (R389): A port in DETECT looks for a partner every 10 ms. -/
  | portDetect (p : Fin 16) (partner : Bool)
  /-- PORT_TRAIN_DONE (R391): Training ends and the port becomes ACTIVE at the negotiated version, or INCOMPAT. -/
  | portTrainDone (p : Fin 16) (lanes : Nat) (rtt : Nat) (conf : List Byte)
  /-- PORT_RETRAIN (R392): An ACTIVE port starts retraining on a threshold, lock loss, protocol error, request or partner training. -/
  | portRetrain (p : Fin 16) (cause : RetrainCause)
  /-- RETRAIN_DONE (R392): A retrain ends at a chosen width, fails, or retires the port. -/
  | retrainDone (link : TrainLink) (lanes : Nat)
  /-- LANE_LOSS_OF_LOCK (R392): A lane loses lock and the port retrains. -/
  | laneLossOfLock (p : Fin 16) (lane : Fin 8)
  /-- FEATURES_RECEIVE (R396): A FEATURES message is kept and the binding's STATE is judged again. -/
  | featuresReceive
  /-- REPLAY_START (R520): A STEP-class fault or trigger starts a step replay in STOP. -/
  | replayStart
  /-- REPLAY_STOP_RECEIVE (R523): A REPLAY STOP message makes the module stop and pass the message on. -/
  | replayStopReceive
  /-- STOPPED_RECEIVE (R525): A STOPPED message of a round arrives. -/
  | stoppedReceive
  /-- STOPPED_ROUNDS_END (R525): The STOPPED rounds complete and drain set 1 is sent. -/
  | stoppedRoundsEnd
  /-- DRAIN_RECEIVE (R526): A DRAIN message of a set and round arrives. -/
  | drainReceive
  /-- DRAIN_SET_END (R526): A drain set ends, DIRTY starting the next set, clean starting RESTORE. -/
  | drainSetEnd
  /-- RESTORE_END (R529): The last commit's state is restored and every occupied core restarts. -/
  | restoreEnd
  /-- CONFIG_REQUEST_RETRY (R443): A configuration request before readiness is answered with Retry Status. -/
  | configRequestRetry
  /-- CXL_MEM_READ (R449): A host CXL.mem read of the checkpoint window reaches the slow tier. -/
  | cxlMemRead (line : BitVec 46) (err : StoreErr)
  /-- CXL_MEM_WRITE (R449): A host CXL.mem write of the checkpoint window reaches the slow tier. -/
  | cxlMemWrite (line : BitVec 46) (data : List Byte)
  /-- H2D_SNOOP (R448): An H2D snoop is answered with RspIHitI. -/
  | h2dSnoop (addr : BitVec 64)
  /-- BIRSP_RECEIVE (R451): The host's BIRsp lets the module write a window line after its BISnpInv. -/
  | birspReceive (addr : BitVec 48)
  /-- HOT_RESET (R444): A hot reset, link disable or link-down reinitialises the host link only. -/
  | hotReset
  /-- LINK_UP_FLUSH (R444): With the link up and Bus Master Enable 1, held completions are written in ring order. -/
  | linkUpFlush (bme : Bool)
  /-- IDE_INTEGRITY_FAIL (R455): An integrity failure puts the port in the IDE insecure state and resets the link. -/
  | ideIntegrityFail
  /-- IDE_KM (R455): IDE keys are programmed through IDE_KM in a secured SPDM session. -/
  | ideKm (stream : IdeStream) (key : List Byte) (go : Bool)
  /-- DOE_DISCOVERY (R453): The DOE mailbox answers a Discovery object. -/
  | doeDiscovery (index : Fin 256)
  /-- CDAT_READ (R454): A CXL table access returns the CDAT. -/
  | cdatRead
  /-- SPDM_REQUEST (R558): An SPDM request over DOE or MCTP is served. -/
  | spdmRequest (via : SpdmVia) (kind : SpdmKind) (req : List Byte)
  /-- SET_CERTIFICATE (R557): SPDM SET_CERTIFICATE provisions a certificate slot in a secured session. -/
  | setCertificate (via : SpdmVia) (slot : Fin 8) (chain : List Byte)
  /-- KEY_SET (R562): Vendor request KEY_SET loads an AES-256-XTS key into a key slot. -/
  | keySet (via : SpdmVia) (slot : Fin 16) (key : List Byte)
  /-- KEY_ERASE (R562): Vendor request KEY_ERASE erases a key slot. -/
  | keyErase (via : SpdmVia) (slot : Fin 16)
  /-- MCTP_CONTROL (R563): The sideband answers an MCTP control message. -/
  | mctpControl (msg : List Byte)
  /-- PLDM_MONITOR (R563): The sideband answers a PLDM platform monitoring request. -/
  | pldmMonitor
  /-- SIDEBAND_READ_STATUS (R563): Vendor sideband message 0x01 returns SEC_BOOT, ID_MODULE and ID_HEALTH. -/
  | sidebandReadStatus
  /-- EVENT_FIRING (R497): A source's input fires or asserts its level and the source becomes pending. -/
  | eventFiring (n : Fin 4096)
  /-- EVENT_DELIVERY (R498): The delivery engine issues the highest-priority pending source as a message or internal signal. -/
  | eventDelivery
  /-- EVC_EOI (R500): A write to EVC_EOI completes a source delivered to the host. -/
  | evcEoi (n : Fin 4096)
  /-- INTERNAL_COMPLETION (R500): Firmware or a routine completes a source delivered to an internal core. -/
  | internalCompletion (n : Fin 4096)
  /-- EVC_SRC_CFG_WRITE (R499): A write to EVC_SRC_CFG sets a source's enable, target, priority and sense, or is discarded. -/
  | evcSrcCfgWrite (n : Fin 4096) (word : BitVec 32)
  /-- MSIX_ENTRY_WRITE (R501): A write to an MSI-X entry sets its address, data or mask, an unmask releasing pending sources. -/
  | msixEntryWrite (w : MsixWrite)
  /-- SLICE_SLEEP (R503): An event slice entering sleep saves its source state to retention registers. -/
  | sliceSleep (i : Fin 88)
  /-- SLICE_WAKE (R503): A waking slice restores its sources and applies latched edges and levels. -/
  | sliceWake (i : Fin 88)
  /-- TB_ADJ_WRITE (R509): A write to TB_ADJ sets the remaining offset that slews the timebase. -/
  | tbAdjWrite (value : BitVec 64)
  /-- TB_ADJ_DONE (R509): The remaining offset reaches 0 and adjustment stops. -/
  | tbAdjDone
  /-- ID_RSVD_WR_CLEAR (R39): Writing 1 to CLEAR clears the discarded-write count, overflow and first offset. -/
  | idRsvdWrClear
  /-- CO_FMT_CLR_CNT (R71): Writing 1 to CLR_CNT clears CO_OVF_CNT and CNT_OVF. -/
  | coFmtClrCnt (c : CoreId)
  /-- DENORM_FLUSH_WRITE (R67): A write of DENORM_FLUSH takes effect at once when idle or at the next step boundary. -/
  | denormFlushWrite (c : CoreId) (flush : Bool)
  /-- UD_CLR_CNT (R376): Writing 1 to UD_FLAGS CLR_CNT clears UD_CNT_5 and CNT_OVF. -/
  | udClrCnt (m : Fin 4)
  /-- RR_CLR_CNT (R439): Writing 1 to RR_FLAGS CLR_CNT clears RR_CNT_7 and CNT_OVF. -/
  | rrClrCnt
  /-- FP_RETRAIN (R410): Writing 1 to FP_CFG RETRAIN retrains an ACTIVE port. -/
  | fpRetrain (p : Fin 16)
  /-- ROUTE_CONFIG_WRITE (R405): A write to route entries, DIM, DATELINE or ENABLE takes effect, or is discarded during a step. -/
  | routeConfigWrite (w : RouteWrite)
  /-- FP_CRED_WRITE (R388): A write to FP_CRED sets a receive pool LIMIT, or is discarded if invalid or the port is not DISABLED. -/
  | fpCredWrite (p : Fin 16) (q : Fin 14) (limit : BitVec 16)
  /-- SEC_PR_CTL_WRITE (R344): A write to SEC_PR_CTL enables or disables a protected region, or is discarded. -/
  | secPrCtlWrite (n : Fin 16) (slot : Fin 16) (en : Bool)
  /-- SEC_PR_BOUNDS_WRITE (R344): A write to SEC_PR_BASE or SEC_PR_LIMIT sets region bounds while disabled and no step runs. -/
  | secPrBoundsWrite (n : Fin 16) (limit : Bool) (addr : BitVec 27)
  /-- PWR_LIMIT_WRITE (R584): A write to PWR_LIMIT sets the power limit, or is discarded outside 1,200 to 4,800 W. -/
  | pwrLimitWrite (limit : BitVec 13)
  /-- ID_MODULE_WRITE (R38): A write to ID_MODULE assigns MODULE_ID, or is discarded while BIND_GROUPS is in force. -/
  | idModuleWrite (valid : Bool) (id : BitVec 10)
  /-- CORE_STATE_REG_WRITE (R132): A write to CO_BT, CO_PA, CO_LAP or CO_AB takes effect, or is discarded while the core runs. -/
  | coreStateRegWrite (c : CoreId) (w : CoreReg)
  /-- REG_LOW_HALF_READ (R32): A read of the lower half of a 64-bit register latches its upper half. -/
  | regLowHalfRead (requester : Nat) (off : BitVec 26) (size : Nat)
  /-- REGISTER_WRITE (R33): A write to any register without a row of its own sets, clears or is discarded and recorded. -/
  | registerWrite (off : BitVec 26) (size : Nat) (value : BitVec 64)
  /-- POWER_ON (R566): The input rises through the turn-on threshold and soft start begins. -/
  | powerOn
  /-- POWER_LOSS (R566): Input below turn-off or above overvoltage long enough opens the hot-swap switch. -/
  | powerLoss
  /-- INPUT_EXCURSION (R566): Input between turn-off and 58 V, or above 70 V, sets UV or OV without stopping the module. -/
  | inputExcursion (volts : BitVec 16)
  /-- RAILS_GOOD (R541): Rails are good and the hub leaves reset. -/
  | railsGood
  /-- STARTING_BLOCK_RUN (R541): The starting block runs on hub management core 0 and the sideband answers. -/
  | startingBlockRun
  /-- IMAGE_VERIFY (R549): The boot image is read, hashed and verified, or the module enters RECOVERY. -/
  | imageVerify
  /-- SECTIONS_LOAD (R541): Firmware sections are loaded into their units. -/
  | sectionsLoad (fail : Option BootPart)
  /-- FABRIC_RELEASE (R390): The fabric is released and ports start detection at 2 ms spacing. -/
  | fabricRelease
  /-- PORT_START (R390): Port n leaves DETECT n × 2 ms after release. -/
  | portStart (p : Fin 16)
  /-- CXL_TRAINING_START (R541): CXL link training begins at the later of image verification and PERST_N deassertion. -/
  | cxlTrainingStart
  /-- CFG_READY (R541): The configuration space becomes ready and configuration requests are served. -/
  | cfgReady (p : LinkPartner)
  /-- DRAM_TRAINING_DONE (R543): HBM3E and slow-tier training completes, failures being marked or halting the module. -/
  | dramTrainingDone (hbm : List (Fin 16)) (st : List (Fin 24)) (pcs : List (Fin 16 × Fin 32))
  /-- READY (R542): Every readiness condition holds and the module becomes READY. -/
  | ready
  /-- PERST_ASSERT (R545): PERST_N assertion resets the host link before READY or starts a warm reset after it. -/
  | perstAssert
  /-- PERST_DEASSERT (R545): PERST_N deassertion lets the host link retrain. -/
  | perstDeassert
  /-- WARM_RESET (R546): A warm reset restarts every unit from the running image, preserving DRAM, journal and state. -/
  | warmReset
  /-- BRAKE_ASSERT (R571): PWR_BRAKE_N asserted drops every die to duty 2/8 within 20 ns. -/
  | brakeAssert
  /-- BRAKE_DEASSERT (R571): PWR_BRAKE_N deasserted raises the duty to 4/8 and starts the rise. -/
  | brakeDeassert
  /-- BRAKE_RISE_DONE (R571): The rise after a brake ends and duty returns to 8/8 or the allowed duty. -/
  | brakeRiseDone
  /-- POWER_SAMPLE (R570): Every 10 µs the power manager samples input power and lowers or raises the duty. -/
  | powerSample (volts : BitVec 16) (amps : BitVec 16) (watts : BitVec 16) (mean10ms : BitVec 16)
  /-- THERMAL_SAMPLE (R575): Every 100 µs a die adjusts its duty by its junction temperature. -/
  | thermalSample (n : Fin 14) (temp : BitVec 16)
  /-- THERMAL_SHUTDOWN (R576): A junction at 110 °C is FATAL and parks every compute and update die. -/
  | thermalShutdown (n : Fin 13)
  /-- CLOCK_GATE (R572): A cluster idle for 64 NOC_CLK cycles enters CLOCK_GATED. -/
  | clockGate (k : ClusterId)
  /-- CLUSTER_SLEEP (R572): A cluster with no program loaded for 1 ms, or all cores retired, enters SLEEP. -/
  | clusterSleep (k : ClusterId)
  /-- CLUSTER_WAKE (R572): A request reaching a gated or sleeping cluster wakes it to RUN. -/
  | clusterWake (k : ClusterId) (cause : WakeCause)
  /-- FATAL_FAULT (R514): A hardware fault of an update die, of a compute die outside its cores and clusters, or of the hub ends the job on this module and sends a step abort to every bound group. -/
  | fatalFault (u : Nat)
  /-- SOURCE_LEVEL_LEFT (R497): The input of a pending level-sensed event source leaves its level before delivery and the source returns to inactive. -/
  | sourceLevelLeft (n : Fin 4096)
  /-- DYNAMIC_ADDRESS_ASSIGNMENT (R563): The board's I3C controller assigns the module's dynamic address as a sideband target. -/
  | dynamicAddressAssignment (addr : BitVec 7)
deriving DecidableEq, Repr

end Sys2Proof
end

