-- ==== Sys2Proof/Decode.lean ====
section
/-!
DEFINITION. The command that a word spells by the bits of the command table. The table gives no row any bits, so no word
spells a command; the encodings the spec does give (instruction words, ring entries, flits) are decoded by the meanings.
-/

namespace Sys2Proof

/-- The command that an nbits-bit word spells: none, since no row of the table has bits. -/
def decodeTableWord (_nbits _w : Nat) : Option Instr := none

end Sys2Proof
end

