-- ==== Sys2Proof/Config.lean ====
section
/-!
DEFINITION. What the spec leaves to an implementation or leaves open, as constants without a body: nothing can evaluate them or prove a value of them.
-/

namespace Sys2Proof.Config

/-- The free value: what the spec leaves open, drawn by a counter the step advances (State.free). -/
opaque freeNat : Nat → Nat

/-- The code that a packer finds for an element a VX gave it none of (06 R200): by step, slot, place in the core's order, element. -/
opaque frozenCode : Nat → Nat

/-- A byte read from a line that was written under another key or none (11 R343, R344: the contents are ciphertext):
by the key it was written under, the key it is read under, the module address and the stored byte. -/
opaque cipherByte : Nat → Nat → Nat → Byte → Byte

/-- Coefficients of the library function tables held in the firmware image (06 R191): by function, table word and image. -/
opaque libraryCoef : Nat → Nat → Nat → Nat

/-- The value of a function table where R190 states none (06): its scaled argument is not finite, or lies below the first
segment: by the argument, the multiplier and the mode. -/
opaque openFunction : Nat → Nat → Nat → Nat

/-- SHAKE256 of a byte string to 64 bytes, as the number they spell (19 R549, R559). -/
opaque shake256 : List Byte → Nat

/-- Oroiwick's root public key, in hub ROM (19 R549). -/
opaque rootKey : Nat

/-- SLH-DSA verification of a signature over a byte string under a key (19 R549, R557). -/
opaque slhVerify : Nat → List Byte → List Byte → Bool

/-- SLH-DSA signature of a byte string by the module's device key (19 R557, R558). -/
opaque slhSign : List Byte → List Byte

/-- The certificate chain of slot 0, issued at manufacture (19 R557). -/
opaque factoryChain : List Byte

/-- Measurement 0: the digest of the starting block and the root public key, fixed in silicon (19 R559). -/
opaque siliconDigest : Nat

/-- The response of the SPDM responder to a request: by the transport, the request, the state of its session, the 24 measurements and the eight
certificate chains (19 R557 to R559: the responses are those of SPDM 1.3, which the spec does not lay out). -/
opaque spdmResponse : Nat → List Byte → Bool → List (List Byte) → List (List Byte) → List Byte

/-- The transfer size that an SPDM requester and the responder agree on, by transport (15 R453; 19 R558: CHUNK). -/
opaque spdmTransfer : Nat → Nat

/-- The response to an MCTP control message (19 R563: DSP0233 and MCTP lay it out). -/
opaque mctpResponse : List Byte → List Byte

/-- The last minor of a Shoavo major below the highest (16 R474: the protocol fixes it when the next major is defined). -/
opaque lastMinor : Nat → Nat

/-- The last minor of a major version of the Colsy protocol, fixed when the next major is defined (13 R391). -/
opaque lastColsyMinor : Nat → Nat

/-- A byte of a firmware area (11 R328, R331): by its update die, what the marshal and firmware keep there, and its offset. The spec says what is
kept and gives it no layout. -/
opaque firmwareByte : Nat → List Byte → Nat → Byte

/-- Body of the CDAT (15 R454): the entries are given, their bytes are CXL 3.1's. -/
opaque cdatBytes : Nat → Nat → Nat → Bool → Nat → Nat → List Byte

end Sys2Proof.Config
end

