-- ==== Sys2Proof/Machine/Bits.lean ====
section
/-!
DEFINITION. Bit fields, byte order and sign of the words the spec lays out: packets, instruction words, table records (00 R4, 02 R41).
-/

namespace Sys2Proof.Machine

/-- The field [lo + width - 1 : lo] of a word (00 R4: bit 0 is the least significant). -/
def bits (w lo width : Nat) : Nat := (w / 2 ^ lo) % 2 ^ width

/-- One bit of a word. -/
def bit (w lo : Nat) : Bool := bits w lo 1 == 1

/-- A Bool as the bit that shows it. -/
def b2n (b : Bool) : Nat := if b then 1 else 0

/-- The word with its field [lo + width - 1 : lo] set to v. -/
def setBits (w lo width v : Nat) : Nat :=
  w - bits w lo width * 2 ^ lo + (v % 2 ^ width) * 2 ^ lo

/-- The two's-complement reading of a word of the given width. -/
def signed (width w : Nat) : Int :=
  if w % 2 ^ width < 2 ^ (width - 1) then (w % 2 ^ width : Nat) else (w % 2 ^ width : Nat) - (2 ^ width : Nat)

/-- The two's-complement code of an integer in the given width. -/
def unsignedOf (width : Nat) (i : Int) : Nat := (i % (2 ^ width : Nat)).toNat

/-- How far a lies after b in serial-number arithmetic of a width (17 R507): 1 to 2^(width-1) after, otherwise before. -/
def serialDiff (width a b : Nat) : Int :=
  let d := unsignedOf width ((a : Int) - b)
  if d ≤ 2 ^ (width - 1) then (d : Int) else (d : Int) - (2 ^ width : Nat)

/-- The number that bytes spell, least significant byte first (02 R41). -/
def leNat : List Byte → Nat
  | [] => 0
  | b :: bs => b.toNat + 256 * leNat bs

/-- The low n bytes of a number, least significant first. -/
def natLE : Nat → Nat → List Byte
  | 0, _ => []
  | n + 1, v => BitVec.ofNat 8 v :: natLE n (v / 256)

/-- n bytes of a list from a place on; places past its end read 0. -/
def sliceBytes (bs : List Byte) (off n : Nat) : List Byte :=
  let t := (bs.drop off).take n
  t ++ List.replicate (n - t.length) 0

/-- The little-endian number in n bytes of a list from a place on. -/
def leAt (bs : List Byte) (off n : Nat) : Nat := leNat ((bs.drop off).take n)

/-- The byte list with the bytes from a place on replaced. -/
def putBytes (bs : List Byte) (off : Nat) (v : List Byte) : List Byte :=
  bs.take off ++ v ++ bs.drop (off + v.length)

/-- Rounding up to the next multiple. -/
def ceilDiv (a b : Nat) : Nat := (a + b - 1) / b

/-- Replace one place of a list; a place past its end changes nothing. -/
def setAt {α : Type} (l : List α) (i : Nat) (v : α) : List α := l.set i v

/-- Remove one place of a list. -/
def dropAt {α : Type} (l : List α) (i : Nat) : List α := l.take i ++ l.drop (i + 1)

end Sys2Proof.Machine
end

