-- ==== Sys2Proof/Machine/Num.lean ====
section
/-!
DEFINITION. The number formats of 02: codes, values, rounding, conversion, arithmetic and the flags each sets (R40 to R68).
A value is exact (a sign and a fraction of naturals) until one rounding makes a code of it.
-/

namespace Sys2Proof.Machine

/-- The formats of R40. -/
inductive Fmt where
  | k4 | k8m | k8e | k16 | k32 | ks8 | i8 | i16 | i32 | u32
deriving DecidableEq, Repr

/-- R40's format codes; the reserved codes name no format. -/
def Fmt.ofCode : Nat → Option Fmt
  | 0x0 => some .k4
  | 0x1 => some .k8m
  | 0x2 => some .k8e
  | 0x3 => some .k16
  | 0x4 => some .k32
  | 0x5 => some .ks8
  | 0x8 => some .i8
  | 0x9 => some .i16
  | 0xA => some .i32
  | 0xB => some .u32
  | _ => none

/-- The code of a format, R40. -/
def Fmt.code : Fmt → Nat
  | .k4 => 0 | .k8m => 1 | .k8e => 2 | .k16 => 3 | .k32 => 4 | .ks8 => 5
  | .i8 => 8 | .i16 => 9 | .i32 => 0xA | .u32 => 0xB

/-- Width of a code in bits, R40. -/
def Fmt.width : Fmt → Nat
  | .k4 => 4 | .k8m => 8 | .k8e => 8 | .k16 => 16 | .k32 => 32 | .ks8 => 8
  | .i8 => 8 | .i16 => 16 | .i32 => 32 | .u32 => 32

/-- The formats whose elements may be operands of the array, R40. -/
def Fmt.isArray : Fmt → Bool
  | .k4 | .k8m | .k8e | .k16 => true
  | _ => false

/-- The integer formats, R40. -/
def Fmt.isInt : Fmt → Bool
  | .i8 | .i16 | .i32 | .u32 => true
  | _ => false

/-- Mantissa bits M, R42. -/
def Fmt.man : Fmt → Nat
  | .k4 => 1 | .k8m => 3 | .k8e => 2 | .k16 => 8 | .k32 => 22 | .ks8 => 2 | _ => 0

/-- Exponent bits, R42. -/
def Fmt.expBits : Fmt → Nat
  | .k4 => 2 | .k8m => 4 | .k8e => 5 | .k16 => 7 | .k32 => 9 | .ks8 => 6 | _ => 0

/-- Exponent bias, R42. -/
def Fmt.bias : Fmt → Nat
  | .k4 => 1 | .k8m => 7 | .k8e => 15 | .k16 => 63 | .k32 => 255 | .ks8 => 31 | _ => 0

/-- K16 and K32 keep their largest exponent for infinities and NaN, R45. -/
def Fmt.hasSpecials : Fmt → Bool
  | .k16 | .k32 => true
  | _ => false

/-- The code of the maximum finite magnitude, R45's table. -/
def Fmt.maxCode (f : Fmt) : Nat :=
  if f.hasSpecials then (2 ^ f.expBits - 1) * 2 ^ f.man - 1 else 2 ^ (f.expBits + f.man) - 1

/-- The NaN code that operations and conversions produce, R44 and R45. -/
def Fmt.nanCode : Fmt → Nat
  | .k4 => 0x8 | .k8m => 0x80 | .k8e => 0x80 | .k16 => 0x7F80 | .k32 => 0x7FE00000 | .ks8 => 0xFF | _ => 0

/-- An exact value: NaN, an infinity, or a sign with a magnitude num/den (den is never 0 in what this file makes). -/
inductive XVal where
  | nan
  | inf (neg : Bool)
  | fin (neg : Bool) (num den : Nat)
deriving DecidableEq, Repr

/-- The sticky events of R68 that one operation raised. -/
structure Flags where
  ovf     : Bool := false
  inv     : Bool := false
  flushed : Bool := false
  nanIn   : Bool := false
deriving DecidableEq, Repr

/-- Flags of two events together. -/
def Flags.or (a b : Flags) : Flags :=
  ⟨a.ovf || b.ovf, a.inv || b.inv, a.flushed || b.flushed, a.nanIn || b.nanIn⟩

/-- A dyadic magnitude n × 2^e as a fraction. -/
def dyad (neg : Bool) (n : Nat) (e : Int) : XVal :=
  if 0 ≤ e then .fin neg (n * 2 ^ e.toNat) 1 else .fin neg n (2 ^ (-e).toNat)

/-- The value of a floating code, R43 to R47. KS8's 0xFF reads NaN here; R48 says what an element under it becomes. -/
def decodeFloat (f : Fmt) (c : Nat) : XVal :=
  let m := bits c 0 f.man
  let e := bits c f.man f.expBits
  match f with
  | .ks8 => if c % 256 = 0xFF then .nan else dyad false (4 + m) ((e : Int) - 31 - 2)
  | _ =>
    let s := bit c (f.man + f.expBits)
    if f.hasSpecials && e == 2 ^ f.expBits - 1 then (if m = 0 then .inf s else .nan)
    else if !f.hasSpecials && s && e == 0 && m == 0 then .nan
    else if e = 0 then dyad s m (1 - (f.bias : Int) - f.man)
    else dyad s (2 ^ f.man + m) ((e : Int) - f.bias - f.man)

/-- The value of a code of any format (R43 to R49). -/
def decodeVal (f : Fmt) (c : Nat) : XVal :=
  if f.isInt then
    match f with
    | .u32 => .fin false (c % 2 ^ 32) 1
    | _ => let i := signed f.width c; .fin (i < 0) i.natAbs 1
  else decodeFloat f c

/-- Is this K16 or K32 code a nonzero subnormal? (R66) -/
def isSubnormalCode (f : Fmt) (c : Nat) : Bool :=
  f.hasSpecials && bits c f.man f.expBits == 0 && bits c 0 f.man != 0

/-- A code with its subnormal replaced by a zero of its sign, R66. -/
def flushCode (f : Fmt) (c : Nat) : Nat := bits c (f.man + f.expBits) 1 * 2 ^ (f.man + f.expBits)

/-- Read an input code of an engine under DENORM_FLUSH (R66). -/
def readCode (flush : Bool) (f : Fmt) (c : Nat) : XVal × Flags :=
  if flush && isSubnormalCode f c then (decodeVal f (flushCode f c), { flushed := true })
  else (decodeVal f c, {})

/-- Rounding modes of a conversion, R50; SR carries the 16 random bits u of R55. -/
inductive Rnd where
  | rne
  | rtz
  | sr (u : Nat)
deriving DecidableEq, Repr

/-- floor(log2(num / den)) for num, den at least 1. -/
def floorLog2 (num den : Nat) : Int :=
  let d : Int := (Nat.log2 num : Int) - (Nat.log2 den : Int)
  let less : Bool := if 0 ≤ d then num < den * 2 ^ d.toNat else num * 2 ^ (-d).toNat < den
  if less then d - 1 else d

/-- num / den divided by the step 2^q, rounded to a natural number of steps. -/
def roundSteps (rnd : Rnd) (num den : Nat) (q : Int) : Nat :=
  let a := if 0 ≤ q then num else num * 2 ^ (-q).toNat
  let b := if 0 ≤ q then den * 2 ^ q.toNat else den
  let n := a / b
  let r := a % b
  match rnd with
  | .rtz => n
  | .rne => if b < 2 * r || (2 * r == b && n % 2 == 1) then n + 1 else n
  | .sr u => if 65536 ≤ r * 65536 / b + u then n + 1 else n

/-- The magnitude code of num / den rounded to the format's significand with the exponent unbounded above, on the fixed
subnormal step below the minimum normal (R53). A code above the format's maximum finite code is an overflow. -/
def roundMag (f : Fmt) (rnd : Rnd) (num den : Nat) : Nat :=
  if num = 0 then 0
  else
    let emin : Int := 1 - (f.bias : Int)
    let e := floorLog2 num den
    let q : Int := (if e < emin then emin else e) - f.man
    let n := roundSteps rnd num den q
    if n < 2 ^ f.man then n else (q + f.man + f.bias).toNat * 2 ^ f.man + (n - 2 ^ f.man)

/-- Does num / den exceed the magnitude of this code? -/
def aboveCode (f : Fmt) (c num den : Nat) : Bool :=
  match decodeFloat f c with
  | .fin _ n d => n * den < num * d
  | _ => false

/-- The sign bit of a floating format. -/
def signBit (f : Fmt) (neg : Bool) : Nat := if neg then 2 ^ (f.man + f.expBits) else 0

/-- The code of ±infinity of K16 and K32. -/
def infCode (f : Fmt) (neg : Bool) : Nat := signBit f neg + (2 ^ f.expBits - 1) * 2 ^ f.man

/-- Conversion of an exact value to K4, K8M, K8E, K16 or K32 (R53, R54, R57), before any flush. -/
def convFloat (f : Fmt) (rnd : Rnd) (sat : Bool) (x : XVal) : Nat × Flags :=
  match x with
  | .nan => (f.nanCode, { nanIn := true })
  | .inf neg =>
    if f.hasSpecials then (infCode f neg, {}) else (signBit f neg + f.maxCode, { ovf := true })
  | .fin neg num den =>
    let c := roundMag f rnd num den
    let tooBig : Bool := match rnd with
      | .rtz => aboveCode f f.maxCode num den
      | _ => f.maxCode < c
    if tooBig then
      let toInf : Bool := f.hasSpecials && !sat && (match rnd with | .rtz => false | _ => true)
      (if toInf then infCode f neg else signBit f neg + f.maxCode, { ovf := true })
    else if c = 0 && !f.hasSpecials then (0, {})
    else (signBit f neg + c, {})

/-- Conversion to KS8 (R59); SR is not available to it (R51). -/
def convKs8 (rtz : Bool) (x : XVal) : Nat × Flags :=
  match x with
  | .nan => (0xFF, { inv := true, nanIn := true })
  | .inf _ => (0xFF, { inv := true })
  | .fin neg num den =>
    if neg || num == 0 then (0xFF, { inv := true })
    else
      let e := floorLog2 num den
      let n := roundSteps (if rtz then .rtz else .rne) num den (e - 2)
      let c : Int := (e + 31) * 4 + ((n : Int) - 4)
      if rtz then
        if num * 2 ^ 31 < den then (0x00, { ovf := true })
        else if 3 * 2 ^ 31 * den < num then (0xFE, { ovf := true })
        else (c.toNat, {})
      else if c < 0 then (0x00, { ovf := true })
      else if 0xFE < c then (0xFE, { ovf := true })
      else (c.toNat, {})

/-- The least and greatest integer of an integer format, R49. -/
def Fmt.intMin : Fmt → Int
  | .u32 => 0
  | f => -(2 ^ (f.width - 1) : Nat)

/-- The greatest integer of an integer format, R49. -/
def Fmt.intMax : Fmt → Int
  | .u32 => (2 ^ 32 - 1 : Nat)
  | f => (2 ^ (f.width - 1) - 1 : Nat)

/-- Conversion of an exact value to an integer format (R57, R58). -/
def convInt (f : Fmt) (rtz : Bool) (x : XVal) : Nat × Flags :=
  match x with
  | .nan => (0, { inv := true, nanIn := true })
  | .inf neg => (unsignedOf f.width (if neg then f.intMin else f.intMax), { ovf := true })
  | .fin neg num den =>
    let n := roundSteps (if rtz then .rtz else .rne) num den 0
    let i : Int := if neg then -(n : Int) else n
    if i < f.intMin then (unsignedOf f.width f.intMin, { ovf := true })
    else if f.intMax < i then (unsignedOf f.width f.intMax, { ovf := true })
    else (unsignedOf f.width i, {})

/-- A K16 or K32 result under DENORM_FLUSH (R66); results of the other formats are not flushed. -/
def flushResult (flush : Bool) (f : Fmt) (r : Nat × Flags) : Nat × Flags :=
  if flush && isSubnormalCode f r.1 then (flushCode f r.1, { r.2 with flushed := true }) else r

/-- Conversion of an exact value to any format under a rounding mode and SAT (R53 to R59, R66). -/
def convert (flush : Bool) (f : Fmt) (rnd : Rnd) (sat : Bool) (x : XVal) : Nat × Flags :=
  let rtz : Bool := match rnd with | .rtz => true | _ => false
  match f with
  | .ks8 => convKs8 rtz x
  | .i8 | .i16 | .i32 | .u32 => convInt f rtz x
  | _ => flushResult flush f (convFloat f rnd sat x)

/-- The rounding mode that a CVT field selects, R50; RND 3 never passes load (R51), and SR takes its bits from R55. -/
def cvtRnd (cvt u : Nat) : Rnd :=
  match bits cvt 0 2 with
  | 1 => .rtz
  | 2 => .sr u
  | _ => .rne

/-- The SAT bit of a CVT field, R50. -/
def cvtSat (cvt : Nat) : Bool := bit cvt 2

/-- Is a CVT field admitted where SR is not (R51)? -/
def cvtPlainOk (cvt : Nat) : Bool := bits cvt 0 2 < 2

/-! Exact arithmetic and R64's special results. -/

/-- Exact sum of two values, R64. -/
def xadd (a b : XVal) : XVal × Flags :=
  match a, b with
  | .nan, _ => (.nan, { nanIn := true })
  | _, .nan => (.nan, { nanIn := true })
  | .inf s, .inf t => if s = t then (.inf s, {}) else (.nan, { inv := true })
  | .inf s, .fin _ _ _ => (.inf s, {})
  | .fin _ _ _, .inf t => (.inf t, {})
  | .fin s n d, .fin t m e =>
    if s = t then (.fin s (n * e + m * d) (d * e), {})
    else
      let x := n * e
      let y := m * d
      if x = y then (.fin false 0 1, {})
      else if y < x then (.fin s (x - y) (d * e), {})
      else (.fin t (y - x) (d * e), {})

/-- The value with its sign changed. -/
def xneg : XVal → XVal
  | .nan => .nan
  | .inf s => .inf (!s)
  | .fin s n d => .fin (!s) n d

/-- Exact product, R64. -/
def xmul (a b : XVal) : XVal × Flags :=
  match a, b with
  | .nan, _ => (.nan, { nanIn := true })
  | _, .nan => (.nan, { nanIn := true })
  | .inf s, .inf t => (.inf (s != t), {})
  | .inf s, .fin t n _ => if n = 0 then (.nan, { inv := true }) else (.inf (s != t), {})
  | .fin s n _, .inf t => if n = 0 then (.nan, { inv := true }) else (.inf (s != t), {})
  | .fin s n d, .fin t m e => (.fin (s != t) (n * m) (d * e), {})

/-- Exact quotient, R64. -/
def xdiv (a b : XVal) : XVal × Flags :=
  match a, b with
  | .nan, _ => (.nan, { nanIn := true })
  | _, .nan => (.nan, { nanIn := true })
  | .inf _, .inf _ => (.nan, { inv := true })
  | .inf s, .fin t _ _ => (.inf (s != t), {})
  | .fin s _ _, .inf t => (.fin (s != t) 0 1, {})
  | .fin s n d, .fin t m e =>
    if m = 0 then (if n = 0 then (.nan, { inv := true }) else (.inf (s != t), {}))
    else (.fin (s != t) (n * e) (d * m), {})

/-- Round an arithmetic result to K32, to nearest with ties to even (R52, R64, R66). -/
def roundK32 (flush : Bool) (x : XVal) : Nat × Flags :=
  match x with
  | .nan => (Fmt.k32.nanCode, {})
  | _ => flushResult flush .k32 (convFloat .k32 .rne false x)

/-- One arithmetic operation on K32 codes: read, combine exactly, round once. -/
def k32Op (flush : Bool) (op : XVal → XVal → XVal × Flags) (a b : Nat) : Nat × Flags :=
  let (x, f1) := readCode flush .k32 a
  let (y, f2) := readCode flush .k32 b
  let (z, f3) := op x y
  let (c, f4) := roundK32 flush z
  (c, ((f1.or f2).or f3).or f4)

/-- K32 sum (R52, R64). -/
def k32Add (flush : Bool) (a b : Nat) : Nat × Flags := k32Op flush xadd a b

/-- K32 difference. -/
def k32Sub (flush : Bool) (a b : Nat) : Nat × Flags := k32Op flush (fun x y => xadd x (xneg y)) a b

/-- K32 product (R52, R64). -/
def k32Mul (flush : Bool) (a b : Nat) : Nat × Flags := k32Op flush xmul a b

/-- K32 quotient, correctly rounded (R64, R361). -/
def k32Div (flush : Bool) (a b : Nat) : Nat × Flags := k32Op flush xdiv a b

/-- A multiply-add is two rounded operations (R63). -/
def k32MulAdd (flush : Bool) (a b c : Nat) : Nat × Flags :=
  let (p, f1) := k32Mul flush a b
  let (r, f2) := k32Add flush p c
  (r, f1.or f2)

/-- K32 square root, correctly rounded (R64, R361). The root of an exact fraction is taken to 200 binary places
with a sticky unit, so that the one rounding to K32 decides as the exact root would. -/
def k32Sqrt (flush : Bool) (a : Nat) : Nat × Flags :=
  let (x, f1) := readCode flush .k32 a
  match x with
  | .nan => (Fmt.k32.nanCode, f1.or { nanIn := true })
  | .inf true => (Fmt.k32.nanCode, f1.or { inv := true })
  | .inf false => (infCode .k32 false, f1)
  | .fin neg num den =>
    if num = 0 then (signBit .k32 neg, f1)
    else if neg then (Fmt.k32.nanCode, f1.or { inv := true })
    else
      let scaled := num * 2 ^ 400 / den
      let r := Nat.sqrt scaled
      let exact : Bool := r * r == scaled && num * 2 ^ 400 % den == 0
      let (c, f2) := roundK32 flush (.fin false (if exact then 2 * r else 2 * r + 1) (2 ^ 201))
      (c, f1.or f2)

/-- Is x less than y, for values that are not NaN; −0 orders below +0 (R65). -/
def xless (x y : XVal) : Bool :=
  match x, y with
  | .nan, _ => false
  | _, .nan => false
  | .inf s, .inf t => s && !t
  | .inf s, .fin _ _ _ => s
  | .fin _ _ _, .inf t => !t
  | .fin s n d, .fin t m e =>
    match s, t with
    | true, false => true
    | false, true => false
    | false, false => n * e < m * d
    | true, true => m * d < n * e

/-- Equality of two values; the two zeros are equal. -/
def xequal (x y : XVal) : Bool :=
  match x, y with
  | .inf s, .inf t => s == t
  | .fin s n d, .fin t m e => (n == 0 && m == 0) || (s == t && n * e == m * d)
  | _, _ => false

/-- Maximum of two codes of one floating format (R65). -/
def floatMax (f : Fmt) (flush : Bool) (a b : Nat) : Nat × Flags :=
  let (x, f1) := readCode flush f a
  let (y, f2) := readCode flush f b
  let a' := if f1.flushed then flushCode f a else a
  let b' := if f2.flushed then flushCode f b else b
  if x = .nan ∨ y = .nan then (f.nanCode, (f1.or f2).or { nanIn := true })
  else (if xless x y then b' else a', f1.or f2)

/-- Minimum of two codes of one floating format (R65). -/
def floatMin (f : Fmt) (flush : Bool) (a b : Nat) : Nat × Flags :=
  let (x, f1) := readCode flush f a
  let (y, f2) := readCode flush f b
  let a' := if f1.flushed then flushCode f a else a
  let b' := if f2.flushed then flushCode f b else b
  if x = .nan ∨ y = .nan then (f.nanCode, (f1.or f2).or { nanIn := true })
  else (if xless y x then b' else a', f1.or f2)

/-- The magnitude of a value. -/
def xabs : XVal → XVal
  | .nan => .nan
  | .inf _ => .inf false
  | .fin _ n d => .fin false n d

/-- Is the value finite? -/
def XVal.isFin : XVal → Bool
  | .fin _ _ _ => true
  | _ => false

/-- Does the bit pattern of a K32 code show a NaN? -/
def k32IsNan (c : Nat) : Bool := decodeFloat .k32 c = .nan

/-! Deterministic stochastic rounding, R55. -/

/-- The mixing function of R55, modulo 2^64. -/
def mix64 (z : Nat) : Nat :=
  let z := z % 2 ^ 64
  let z := ((z ^^^ (z >>> 30)) * 0xBF58476D1CE4E5B9) % 2 ^ 64
  let z := ((z ^^^ (z >>> 27)) * 0x94D049BB133111EB) % 2 ^ 64
  z ^^^ (z >>> 31)

/-- The 16 random bits of an element (R55). -/
def srBits (seed tensorId step index : Nat) : Nat :=
  let r := mix64 ((seed % 2 ^ 64) ^^^ ((tensorId % 2 ^ 32) <<< 32) ^^^ (step % 2 ^ 32))
  let r := mix64 (r ^^^ (index % 2 ^ 64))
  (mix64 r) >>> 48

end Sys2Proof.Machine
end

