-- ==== Sys2Proof/Machine/Function.lean ====
section
/-!
DEFINITION. Evaluation of a function table of the chain (06 R189, R190).
-/

namespace Sys2Proof.Machine

open Sys2Proof

/-- The fields of a function table (06 R189). -/
structure FTable where
  mode    : Nat
  rule    : Nat
  neg     : Bool
  belowId : Bool
  aboveId : Bool
  lo      : Nat
  hi      : Nat
  invw    : Nat
  c       : Nat
  below   : Nat
  above   : Nat
  ninf    : Nat
  pinf    : Nat
  zero    : Nat
  seg     : List Byte
deriving DecidableEq, Repr

/-- Bytes of one function table. -/
def ftBytes : Nat := 4160

/-- The function table that its bytes spell. -/
def ftableOf (b : List Byte) : FTable :=
  let m := leAt b 2 1
  { mode := bits m 0 2, rule := bits m 2 2, neg := bit m 4, belowId := bit m 5, aboveId := bit m 6,
    lo := leAt b 4 4, hi := leAt b 8 4, invw := leAt b 0xC 4, c := leAt b 0x10 4, below := leAt b 0x14 4,
    above := leAt b 0x18 4, ninf := leAt b 0x1C 4, pinf := leAt b 0x20 4, zero := leAt b 0x24 4, seg := b.drop 0x40 }

/-- Coefficient n of segment i. -/
def FTable.coef (t : FTable) (i n : Nat) : Nat := leAt t.seg (16 * i + 4 * n) 4

/-- A K32 code times an exact value plus a K32 code, each step rounded (06 R190). -/
def hornerStep (flush : Bool) (p : Nat × Flags) (u : XVal) (c : Nat) : Nat × Flags :=
  let (x, f1) := readCode flush .k32 p.1
  let (m, f2) := xmul x u
  let (q, f3) := roundK32 flush m
  let (r, f4) := k32Add flush q c
  (r, (((p.2.or f1).or f2).or f3).or f4)

/-- horner of R190. -/
def horner (flush : Bool) (t : FTable) (i : Nat) (u : XVal) : Nat × Flags :=
  let p : Nat × Flags := (t.coef i 3, {})
  hornerStep flush (hornerStep flush (hornerStep flush p u (t.coef i 2)) u (t.coef i 1)) u (t.coef i 0)

/-- A K32 code times 2^k, rounded once. -/
def scalePow2 (flush : Bool) (p : Nat × Flags) (k : Int) : Nat × Flags :=
  match decodeFloat .k32 p.1 with
  | .fin s n d =>
    if n = 0 then p
    else
      let (r, f) := roundK32 flush (if 0 ≤ k then .fin s (n * 2 ^ k.toNat) d else .fin s n (d * 2 ^ (-k).toNat))
      (r, p.2.or f)
  | _ => p

/-- floor of a fraction with a sign. -/
def xfloor (neg : Bool) (num den : Nat) : Int := if neg then -(((num + den - 1) / den : Nat) : Int) else ((num / den : Nat) : Int)

/-- A K32 value less an integer, exactly. -/
def xsubInt (neg : Bool) (num den : Nat) (i : Int) : XVal :=
  (xadd (.fin neg num den) (.fin (decide (0 < i)) i.natAbs 1)).1

/-- What R190 does not state: a K32 code (Config.openFunction). Log 23 (DESIGN CHOICE). -/
def openValue (y m mode : Nat) : Nat := Config.openFunction y m mode % 2 ^ 32

/-- UNIFORM (06 R190). -/
def evalUniform (flush : Bool) (t : FTable) (y : Nat) (v : XVal) : Nat × Flags :=
  if xless v (decodeFloat .k32 t.lo) && !xequal v (decodeFloat .k32 t.lo) then (if t.belowId then y else t.below, {})
  else if decodeFloat .k32 t.hi != .nan && (!xless v (decodeFloat .k32 t.hi) || xequal v (decodeFloat .k32 t.hi)) then
    (if t.aboveId then y else t.above, {})
  else
    let (d, f1) := k32Sub flush y t.lo
    let (w, f2) := k32Mul flush d t.invw
    match decodeFloat .k32 w with
    | .fin neg num den =>
      if neg ∧ num ≠ 0 then (openValue y t.invw 0, f1.or f2)
      else
        let i := min (num / den) 255
        let (u, f3) := roundK32 flush (xsubInt false num den i)
        let (r, f4) := horner flush t i (decodeFloat .k32 u)
        (r, ((f1.or f2).or f3).or f4)
    | _ => (openValue y t.invw 0, f1.or f2)

/-- EXPO (06 R190). Log 49 (DEDUCED). -/
def evalExpo (flush : Bool) (t : FTable) (y : Nat) : Nat × Flags :=
  let (w, f1) := k32Mul flush y t.c
  match decodeFloat .k32 w with
  | .fin neg num den =>
    let n := xfloor neg num den
    match xsubInt neg num den n with
    | .fin _ gn gd =>
      let i := gn * 256 / gd
      let (r, f2) := scalePow2 flush (horner flush t i (xsubInt false (gn * 256) gd i)) n
      (r, f1.or f2)
    | _ => (openValue y t.c 1, f1)
  | _ => (openValue y t.c 1, f1)

/-- MANT for a finite argument that is not zero, of magnitude num/den (06 R190). -/
def evalMant (flush : Bool) (t : FTable) (neg : Bool) (num den : Nat) : Nat × Flags :=
  let e := floorLog2 num den
  let m := if 0 ≤ e then (num, den * 2 ^ e.toNat) else (num * 2 ^ (-e).toNat, den)
  let (i, u) :=
    if t.rule = 1 then
      let k := (m.1 - m.2) * 128 / m.2
      ((e % 2).toNat * 128 + k, xsubInt false ((m.1 - m.2) * 128) m.2 k)
    else
      let k := (m.1 - m.2) * 256 / m.2
      (k, xsubInt false ((m.1 - m.2) * 256) m.2 k)
  let p := horner flush t i u
  let r : Nat × Flags :=
    match t.rule with
    | 0 => scalePow2 flush p (-e)
    | 1 => scalePow2 flush p (-(e / 2))
    | 2 => scalePow2 flush p (e / 2)
    | _ =>
      let (c, g0) := readCode flush .k32 t.c
      let (x, g1) := xmul (.fin (decide (e < 0)) e.natAbs 1) c
      let (q, g2) := roundK32 flush x
      let (z, g3) := k32Add flush p.1 q
      (z, (((p.2.or g0).or g1).or g2).or g3)
  if !neg then r
  else if t.neg then (Fmt.k32.nanCode, r.2.or { inv := true })
  else (r.1 ^^^ 0x80000000, r.2)

/-- f = table(y) (06 R190); every NaN it gives is the canonical one (02 R45). -/
def evalTable (flush : Bool) (t : FTable) (y0 : Nat) : Nat × Flags :=
  let (v, f0) := readCode flush .k32 y0
  let y := if f0.flushed then flushCode .k32 y0 else y0
  let (r, f) : Nat × Flags :=
    match v with
    | .nan => (Fmt.k32.nanCode, { nanIn := true })
    | .inf true => (t.ninf, {})
    | .inf false => (t.pinf, {})
    | .fin neg num den =>
      match t.mode with
      | 0 => evalUniform flush t y v
      | 1 => evalExpo flush t y
      | _ =>
        if num = 0 then (if neg ∧ !t.neg then t.zero ^^^ 0x80000000 else t.zero, {})
        else evalMant flush t neg num den
  let (z, g) := flushResult flush .k32 (r, {})
  (if k32IsNan z then Fmt.k32.nanCode else z, (f0.or f).or g)

end Sys2Proof.Machine
end

