-- ==== Sys2Proof/Machine/RegMap.lean ====
section
/-!
DEFINITION. The register map of BAR0 (01 R28 to R30 and every register table of the spec): where each field lies, its
width, its access code (00 R5) and its reset value. F.<REGISTER>_<FIELD> is the field of that name in the spec's table; Reg.table lists the registers for an access by offset.
-/

namespace Sys2Proof.Machine

/-- A field's place: the address of its lowest bit (8 times the BAR0 byte offset, plus the bit), its width, its reset value. -/
structure Fld where
  at_   : Nat
  width : Nat
  reset : Nat
deriving DecidableEq, Repr

/-- Access codes, 00 R5; RS is RO with the sticky reset behaviour of RWS, as the tables write it. -/
inductive Acc where
  | ro | rw | rw1c | rws | rs
deriving DecidableEq, Repr

/-- BAR0 offset of a cluster window (01 R28, R29). -/
def clusterBase (k : ClusterId) : Nat := 0x1000000 + k.die.val * 0x200000 + k.cl.val * 0x20000

/-- BAR0 offset of a physical core's window (01 R30). -/
def coreBase (c : CoreId) : Nat := 0x1008000 + c.die.val * 0x200000 + c.cl.val * 0x20000 + c.co.val * 0x1000

/-- Default sense of an event source (17 R495): 0 level high, 1 level low, 2 rising edge; a reserved source reads 0. -/
def senseReset (n : Nat) : Nat :=
  let hub := n - 3584
  if 3584 ≤ n then
    if hub = 25 then 1
    else if hub < 17 || hub = 23 || hub = 24 || (27 ≤ hub && hub ≤ 30) then 2
    else 0
  else
    let l := n % 448
    if 400 ≤ l then
      let q := l - 400
      if (2 ≤ q && q ≤ 6) || q = 8 || q = 9 then 2 else 0
    else
      let q := l % 40
      if q = 9 || q = 13 || q = 14 || q = 16 then 2 else 0

/-- Default LIMIT of a credit pool (13 R387). -/
def credReset (q : Nat) : Nat := if 12 ≤ q then 80 else if q % 2 = 0 then 96 else 48

/-- Reset of PWR_TEMP_n.DUTY (20 R584): 8 eighths for the compute dies. -/
def dutyReset (n : Nat) : Nat := if n ≤ 7 then 8 else 0

/-- CL_REMAP.SLOT7 [31:28] RO (01 R25): Physical core serving slot 7 -/
def F.CL_REMAP_SLOT7 (k : ClusterId) : Fld := ⟨(clusterBase k + 0x0) * 8 + 28, 4, 0x7⟩
/-- CL_REMAP.SLOT6 [27:24] RO (01 R25): Physical core serving slot 6 -/
def F.CL_REMAP_SLOT6 (k : ClusterId) : Fld := ⟨(clusterBase k + 0x0) * 8 + 24, 4, 0x6⟩
/-- CL_REMAP.SLOT5 [23:20] RO (01 R25): Physical core serving slot 5 -/
def F.CL_REMAP_SLOT5 (k : ClusterId) : Fld := ⟨(clusterBase k + 0x0) * 8 + 20, 4, 0x5⟩
/-- CL_REMAP.SLOT4 [19:16] RO (01 R25): Physical core serving slot 4 -/
def F.CL_REMAP_SLOT4 (k : ClusterId) : Fld := ⟨(clusterBase k + 0x0) * 8 + 16, 4, 0x4⟩
/-- CL_REMAP.SLOT3 [15:12] RO (01 R25): Physical core serving slot 3 -/
def F.CL_REMAP_SLOT3 (k : ClusterId) : Fld := ⟨(clusterBase k + 0x0) * 8 + 12, 4, 0x3⟩
/-- CL_REMAP.SLOT2 [11:8] RO (01 R25): Physical core serving slot 2 -/
def F.CL_REMAP_SLOT2 (k : ClusterId) : Fld := ⟨(clusterBase k + 0x0) * 8 + 8, 4, 0x2⟩
/-- CL_REMAP.SLOT1 [7:4] RO (01 R25): Physical core serving slot 1 -/
def F.CL_REMAP_SLOT1 (k : ClusterId) : Fld := ⟨(clusterBase k + 0x0) * 8 + 4, 4, 0x1⟩
/-- CL_REMAP.SLOT0 [3:0] RO (01 R25): Physical core serving slot 0 -/
def F.CL_REMAP_SLOT0 (k : ClusterId) : Fld := ⟨(clusterBase k + 0x0) * 8 + 0, 4, 0x0⟩
/-- CL_CORE_STAT.PEND_MORE [21:21] RO (01 R25): 1: remaps are pending for more than one slot -/
def F.CL_CORE_STAT_PEND_MORE (k : ClusterId) : Fld := ⟨(clusterBase k + 0x4) * 8 + 21, 1, 0x0⟩
/-- CL_CORE_STAT.PEND_TARGET [20:17] RO (01 R25): Physical core that will serve PEND_SLOT at the next step boundary -/
def F.CL_CORE_STAT_PEND_TARGET (k : ClusterId) : Fld := ⟨(clusterBase k + 0x4) * 8 + 17, 4, 0x0⟩
/-- CL_CORE_STAT.PEND_SLOT [16:14] RO (01 R25): Slot whose remap is pending -/
def F.CL_CORE_STAT_PEND_SLOT (k : ClusterId) : Fld := ⟨(clusterBase k + 0x4) * 8 + 14, 3, 0x0⟩
/-- CL_CORE_STAT.PEND_VALID [13:13] RO (01 R25): 1: a remap is pending for the next step boundary -/
def F.CL_CORE_STAT_PEND_VALID (k : ClusterId) : Fld := ⟨(clusterBase k + 0x4) * 8 + 13, 1, 0x0⟩
/-- CL_CORE_STAT.SPARE_USED [12:12] RO (01 R25): 1: CO_8 serves a slot -/
def F.CL_CORE_STAT_SPARE_USED (k : ClusterId) : Fld := ⟨(clusterBase k + 0x4) * 8 + 12, 1, 0x0⟩
/-- CL_CORE_STAT.RETIRED [8:0] RO (01 R25): Bit j set: CO_j is retired -/
def F.CL_CORE_STAT_RETIRED (k : ClusterId) : Fld := ⟨(clusterBase k + 0x4) * 8 + 0, 9, 0x0⟩
/-- ID_PART.FAMILY [23:16] RO (01 R37): 0x01: Rostaken -/
def F.ID_PART_FAMILY : Fld := ⟨(0x0 + 0x0) * 8 + 16, 8, 0x1⟩
/-- ID_PART.PART_NUM [15:0] RO (01 R37): 0x0640: RSK-640-LC -/
def F.ID_PART_PART_NUM : Fld := ⟨(0x0 + 0x0) * 8 + 0, 16, 0x640⟩
/-- ID_STEPPING.STEP_MAJOR [7:4] RO (01 R37): Silicon stepping letter, 0 = A -/
def F.ID_STEPPING_STEP_MAJOR : Fld := ⟨(0x0 + 0x4) * 8 + 4, 4, 0x0⟩
/-- ID_STEPPING.STEP_MINOR [3:0] RO (01 R37): Silicon stepping digit; the shipped stepping is A1 -/
def F.ID_STEPPING_STEP_MINOR : Fld := ⟨(0x0 + 0x4) * 8 + 0, 4, 0x1⟩
/-- ID_CAPS.FP_COUNT [25:21] RO (01 R37): Fabric ports: 16 -/
def F.ID_CAPS_FP_COUNT : Fld := ⟨(0x0 + 0x8) * 8 + 21, 5, 0x10⟩
/-- ID_CAPS.HBM_COUNT [20:16] RO (01 R37): HBM3E stacks: 16 -/
def F.ID_CAPS_HBM_COUNT : Fld := ⟨(0x0 + 0x8) * 8 + 16, 5, 0x10⟩
/-- ID_CAPS.UD_COUNT [15:12] RO (01 R37): Update dies: 4 -/
def F.ID_CAPS_UD_COUNT : Fld := ⟨(0x0 + 0x8) * 8 + 12, 4, 0x4⟩
/-- ID_CAPS.CO_PER_CL [11:8] RO (01 R37): Physical cores per cluster: 9 -/
def F.ID_CAPS_CO_PER_CL : Fld := ⟨(0x0 + 0x8) * 8 + 8, 4, 0x9⟩
/-- ID_CAPS.CL_PER_CD [7:4] RO (01 R37): Clusters per compute die: 10 -/
def F.ID_CAPS_CL_PER_CD : Fld := ⟨(0x0 + 0x8) * 8 + 4, 4, 0xa⟩
/-- ID_CAPS.CD_COUNT [3:0] RO (01 R37): Compute dies: 8 -/
def F.ID_CAPS_CD_COUNT : Fld := ⟨(0x0 + 0x8) * 8 + 0, 4, 0x8⟩
/-- ID_CORES.SPARES_FREE [16:10] RO (01 R37): Clusters that are not retired and whose CO_8 is free and not retired, 0 to 80 -/
def F.ID_CORES_SPARES_FREE : Fld := ⟨(0x0 + 0xc) * 8 + 10, 7, 0x50⟩
/-- ID_CORES.ACTIVE [9:0] RO (01 R37): Mapped slots in the module, 0 to 640 -/
def F.ID_CORES_ACTIVE : Fld := ⟨(0x0 + 0xc) * 8 + 0, 10, 0x280⟩
/-- ID_MODULE.VALID [31:31] RWS (01 R37): 1: MODULE_ID has been assigned -/
def F.ID_MODULE_VALID : Fld := ⟨(0x0 + 0x10) * 8 + 31, 1, 0x0⟩
/-- ID_MODULE.MODULE_ID [9:0] RWS (01 R37): Module identifier within the system, 0 to 1,023 -/
def F.ID_MODULE_MODULE_ID : Fld := ⟨(0x0 + 0x10) * 8 + 0, 10, 0x0⟩
/-- ID_FW_VER.MAJOR [31:24] RO (01 R38): Firmware major version of the running image -/
def F.ID_FW_VER_MAJOR : Fld := ⟨(0x0 + 0x18) * 8 + 24, 8, 0x0⟩
/-- ID_FW_VER.MINOR [23:16] RO (01 R38): Firmware minor version -/
def F.ID_FW_VER_MINOR : Fld := ⟨(0x0 + 0x18) * 8 + 16, 8, 0x0⟩
/-- ID_FW_VER.BUILD [15:0] RO (01 R38): Firmware build number -/
def F.ID_FW_VER_BUILD : Fld := ⟨(0x0 + 0x18) * 8 + 0, 16, 0x0⟩
/-- ID_PROTO.COLSY_MIN [31:24] RO (01 R38): Highest Colsy protocol minor version served -/
def F.ID_PROTO_COLSY_MIN : Fld := ⟨(0x0 + 0x1c) * 8 + 24, 8, 0x0⟩
/-- ID_PROTO.COLSY_MAJ [23:16] RO (01 R38): Highest Colsy protocol major version served -/
def F.ID_PROTO_COLSY_MAJ : Fld := ⟨(0x0 + 0x1c) * 8 + 16, 8, 0x0⟩
/-- ID_PROTO.SHOAVO_MIN [15:8] RO (01 R38): Highest Shoavo protocol minor version served -/
def F.ID_PROTO_SHOAVO_MIN : Fld := ⟨(0x0 + 0x1c) * 8 + 8, 8, 0x0⟩
/-- ID_PROTO.SHOAVO_MAJ [7:0] RO (01 R38): Highest Shoavo protocol major version served -/
def F.ID_PROTO_SHOAVO_MAJ : Fld := ⟨(0x0 + 0x1c) * 8 + 0, 8, 0x0⟩
/-- ID_RSVD_WR_CNT.COUNT [63:0] RO (01 R38): Writes discarded under R8, R33, R35, R36 and R38; saturates at 2^64 − 1 -/
def F.ID_RSVD_WR_CNT_COUNT : Fld := ⟨(0x0 + 0x20) * 8 + 0, 64, 0x0⟩
/-- ID_RSVD_WR.CLEAR [31:31] RW (01 R38): Trigger: writing 1 clears COUNT, OVF, FIRST_VALID and FIRST_OFFSET; reads back the last value written -/
def F.ID_RSVD_WR_CLEAR : Fld := ⟨(0x0 + 0x28) * 8 + 31, 1, 0x0⟩
/-- ID_RSVD_WR.OVF [30:30] RW1C (01 R38): Sticky: COUNT has saturated -/
def F.ID_RSVD_WR_OVF : Fld := ⟨(0x0 + 0x28) * 8 + 30, 1, 0x0⟩
/-- ID_RSVD_WR.FIRST_VALID [29:29] RO (01 R38): 1: FIRST_OFFSET holds a captured offset -/
def F.ID_RSVD_WR_FIRST_VALID : Fld := ⟨(0x0 + 0x28) * 8 + 29, 1, 0x0⟩
/-- ID_RSVD_WR.FIRST_OFFSET [25:0] RO (01 R38): BAR0 offset of the first discarded write since the last clear -/
def F.ID_RSVD_WR_FIRST_OFFSET : Fld := ⟨(0x0 + 0x28) * 8 + 0, 26, 0x0⟩
/-- CO_FMT_CTL.FLUSH_ACTIVE [1:1] RO (02 R69): 1: DENORM_FLUSH is in force for the current or next step -/
def F.CO_FMT_CTL_FLUSH_ACTIVE (c : CoreId) : Fld := ⟨(coreBase c + 0x100) * 8 + 1, 1, 0x0⟩
/-- CO_FMT_CTL.DENORM_FLUSH [0:0] RW (02 R69): Requested mode; takes effect under R67 -/
def F.CO_FMT_CTL_DENORM_FLUSH (c : CoreId) : Fld := ⟨(coreBase c + 0x100) * 8 + 0, 1, 0x0⟩
/-- CO_FMT_FLAGS.CLR_CNT [31:31] RW (02 R69): Trigger: writing 1 clears CO_OVF_CNT and CNT_OVF; reads back the last value written -/
def F.CO_FMT_FLAGS_CLR_CNT (c : CoreId) : Fld := ⟨(coreBase c + 0x104) * 8 + 31, 1, 0x0⟩
/-- CO_FMT_FLAGS.CNT_OVF [4:4] RW1C (02 R69): Sticky: CO_OVF_CNT has saturated -/
def F.CO_FMT_FLAGS_CNT_OVF (c : CoreId) : Fld := ⟨(coreBase c + 0x104) * 8 + 4, 1, 0x0⟩
/-- CO_FMT_FLAGS.NAN_IN [3:3] RW1C (02 R69): Sticky: a NaN operand was consumed -/
def F.CO_FMT_FLAGS_NAN_IN (c : CoreId) : Fld := ⟨(coreBase c + 0x104) * 8 + 3, 1, 0x0⟩
/-- CO_FMT_FLAGS.INV [2:2] RW1C (02 R69): Sticky: an invalid operation occurred -/
def F.CO_FMT_FLAGS_INV (c : CoreId) : Fld := ⟨(coreBase c + 0x104) * 8 + 2, 1, 0x0⟩
/-- CO_FMT_FLAGS.FLUSHED [1:1] RW1C (02 R69): Sticky: a subnormal was flushed -/
def F.CO_FMT_FLAGS_FLUSHED (c : CoreId) : Fld := ⟨(coreBase c + 0x104) * 8 + 1, 1, 0x0⟩
/-- CO_FMT_FLAGS.OVF [0:0] RW1C (02 R69): Sticky: a conversion or result overflowed -/
def F.CO_FMT_FLAGS_OVF (c : CoreId) : Fld := ⟨(coreBase c + 0x104) * 8 + 0, 1, 0x0⟩
/-- CO_OVF_CNT.COUNT [63:0] RO (02 R69): Elements whose conversion or result set OVF; saturates at 2^64 − 1 -/
def F.CO_OVF_CNT_COUNT (c : CoreId) : Fld := ⟨(coreBase c + 0x108) * 8 + 0, 64, 0x0⟩
/-- CO_SEQ_STAT.INDEX [27:16] RO (04 R131): Index of the next instruction to dispatch -/
def F.CO_SEQ_STAT_INDEX (c : CoreId) : Fld := ⟨(coreBase c + 0x0) * 8 + 16, 12, 0x0⟩
/-- CO_SEQ_STAT.STALL [2:2] RO (04 R131): 1: dispatch is stopped -/
def F.CO_SEQ_STAT_STALL (c : CoreId) : Fld := ⟨(coreBase c + 0x0) * 8 + 2, 1, 0x0⟩
/-- CO_SEQ_STAT.STATE [1:0] RO (04 R131): 0 idle; 1 running; 2 halted; 3 stopped: by a program fault, whose code CO_FAULT holds, or by hardware with CO_ -/
def F.CO_SEQ_STAT_STATE (c : CoreId) : Fld := ⟨(coreBase c + 0x0) * 8 + 0, 2, 0x0⟩
/-- CO_SEQ_QUEUE.CODEC [24:20] RO (04 R131): Entries in the packer and expander queue, 0 to 16 -/
def F.CO_SEQ_QUEUE_CODEC (c : CoreId) : Fld := ⟨(coreBase c + 0x4) * 8 + 20, 5, 0x0⟩
/-- CO_SEQ_QUEUE.DMA [19:15] RO (04 R131): Entries in the DMA queue -/
def F.CO_SEQ_QUEUE_DMA (c : CoreId) : Fld := ⟨(coreBase c + 0x4) * 8 + 15, 5, 0x0⟩
/-- CO_SEQ_QUEUE.CHAIN [14:10] RO (04 R131): Entries in the decathlon chain queue -/
def F.CO_SEQ_QUEUE_CHAIN (c : CoreId) : Fld := ⟨(coreBase c + 0x4) * 8 + 10, 5, 0x0⟩
/-- CO_SEQ_QUEUE.TURN [9:5] RO (04 R131): Entries in the turn buffer queue -/
def F.CO_SEQ_QUEUE_TURN (c : CoreId) : Fld := ⟨(coreBase c + 0x4) * 8 + 5, 5, 0x0⟩
/-- CO_SEQ_QUEUE.MATRIX [4:0] RO (04 R131): Entries in the matrix engine queue -/
def F.CO_SEQ_QUEUE_MATRIX (c : CoreId) : Fld := ⟨(coreBase c + 0x4) * 8 + 0, 5, 0x0⟩
/-- CO_FAULT.IDX [29:24] RO (04 R131): Counter or address base concerned; 0 where none -/
def F.CO_FAULT_IDX (c : CoreId) : Fld := ⟨(coreBase c + 0x8) * 8 + 24, 6, 0x0⟩
/-- CO_FAULT.INDEX [23:12] RO (04 R131): Instruction at fault -/
def F.CO_FAULT_INDEX (c : CoreId) : Fld := ⟨(coreBase c + 0x8) * 8 + 12, 12, 0x0⟩
/-- CO_FAULT.ENG [11:8] RO (04 R131): Engine of that instruction -/
def F.CO_FAULT_ENG (c : CoreId) : Fld := ⟨(coreBase c + 0x8) * 8 + 8, 4, 0x0⟩
/-- CO_FAULT.CODE [7:0] RO (04 R131): Fault code of R117; cleared by LOAD_PROGRAM -/
def F.CO_FAULT_CODE (c : CoreId) : Fld := ⟨(coreBase c + 0x8) * 8 + 0, 8, 0x0⟩
/-- CO_STALL_LIMIT.LIMIT [31:0] RO (04 R131): STALL_LIMIT of the loaded image, in microseconds -/
def F.CO_STALL_LIMIT_LIMIT (c : CoreId) : Fld := ⟨(coreBase c + 0xc) * 8 + 0, 32, 0x0⟩
/-- CO_SPLIT_NEXT.WRAPPED [6:6] RO (04 R131): 1: the ring has overwritten an entry since LOAD_PROGRAM -/
def F.CO_SPLIT_NEXT_WRAPPED (c : CoreId) : Fld := ⟨(coreBase c + 0x10) * 8 + 6, 1, 0x0⟩
/-- CO_SPLIT_NEXT.NEXT [5:0] RO (04 R131): Entry that the next SPLIT writes -/
def F.CO_SPLIT_NEXT_NEXT (c : CoreId) : Fld := ⟨(coreBase c + 0x10) * 8 + 0, 6, 0x0⟩
/-- CO_BT.COUNT [15:0] RW (04 R131): Baton count -/
def F.CO_BT_COUNT (c : CoreId) (i : Nat) : Fld := ⟨(coreBase c + 0x200 + i * 0x4) * 8 + 0, 16, 0x0⟩
/-- CO_PA.LIMIT [31:16] RO (04 R131): Limit from the stream record -/
def F.CO_PA_LIMIT (c : CoreId) (i : Nat) : Fld := ⟨(coreBase c + 0x300 + i * 0x4) * 8 + 16, 16, 0x0⟩
/-- CO_PA.COUNT [15:0] RW (04 R131): Pacer count -/
def F.CO_PA_COUNT (c : CoreId) (i : Nat) : Fld := ⟨(coreBase c + 0x300 + i * 0x4) * 8 + 0, 16, 0x0⟩
/-- CO_LAP.COUNT [31:0] RW (04 R131): Lap count -/
def F.CO_LAP_COUNT (c : CoreId) (i : Nat) : Fld := ⟨(coreBase c + 0x340 + i * 0x4) * 8 + 0, 32, 0x0⟩
/-- CO_AB_CUR.VALUE [47:0] RW (04 R131): Current value, at + 0 -/
def F.CO_AB_CUR_VALUE (c : CoreId) (i : Nat) : Fld := ⟨(coreBase c + 0x400 + i * 0x10) * 8 + 0, 48, 0x0⟩
/-- CO_AB_BASE.VALUE [47:0] RW (04 R131): Wrap base, at + 8 -/
def F.CO_AB_BASE_VALUE (c : CoreId) (i : Nat) : Fld := ⟨(coreBase c + 0x408 + i * 0x10) * 8 + 0, 48, 0x0⟩
/-- CO_SPLIT_TIME.TIME [63:0] RO (04 R131): Timebase at the SPLIT, at + 0 -/
def F.CO_SPLIT_TIME_TIME (c : CoreId) (i : Nat) : Fld := ⟨(coreBase c + 0x800 + i * 0x10) * 8 + 0, 64, 0x0⟩
/-- CO_SPLIT_TAG.INDEX [43:32] RO (04 R131): Instruction index of the SPLIT -/
def F.CO_SPLIT_TAG_INDEX (c : CoreId) (i : Nat) : Fld := ⟨(coreBase c + 0x808 + i * 0x10) * 8 + 32, 12, 0x0⟩
/-- CO_SPLIT_TAG.TAG [31:0] RO (04 R131): Tag operand -/
def F.CO_SPLIT_TAG_TAG (c : CoreId) (i : Nat) : Fld := ⟨(coreBase c + 0x808 + i * 0x10) * 8 + 0, 32, 0x0⟩
/-- HD_CFG.LOCAL_EXPECT [25:16] RO (04 R133): Local arrivals needed, 1 to 640; 0 for an unused hurdle -/
def F.HD_CFG_LOCAL_EXPECT (d : Nat) (i : Nat) : Fld := ⟨(0x1000000 + d * 0x200000 + 0x150000 + i * 0x10) * 8 + 16, 10, 0x0⟩
/-- HD_CFG.VC [4:2] RO (04 R133): Virtual channel VC_0 to VC_5 of a group-scope hurdle -/
def F.HD_CFG_VC (d : Nat) (i : Nat) : Fld := ⟨(0x1000000 + d * 0x200000 + 0x150000 + i * 0x10) * 8 + 2, 3, 0x0⟩
/-- HD_CFG.SCOPE [1:0] RO (04 R133): 0 module; 1 group; 2 and 3 not produced by the device -/
def F.HD_CFG_SCOPE (d : Nat) (i : Nat) : Fld := ⟨(0x1000000 + d * 0x200000 + 0x150000 + i * 0x10) * 8 + 0, 2, 0x0⟩
/-- HD_MEM.MEMBERS [10:0] RO (04 R133): Modules in the bound group, 1 to 1,024 -/
def F.HD_MEM_MEMBERS (d : Nat) (i : Nat) : Fld := ⟨(0x1000000 + d * 0x200000 + 0x150004 + i * 0x10) * 8 + 0, 11, 0x0⟩
/-- HD_STAT.LOCAL_ARR [25:16] RO (04 R133): Local arrivals in the current epoch -/
def F.HD_STAT_LOCAL_ARR (d : Nat) (i : Nat) : Fld := ⟨(0x1000000 + d * 0x200000 + 0x150008 + i * 0x10) * 8 + 16, 10, 0x0⟩
/-- HD_STAT.EPOCH [15:0] RO (04 R133): Current epoch -/
def F.HD_STAT_EPOCH (d : Nat) (i : Nat) : Fld := ⟨(0x1000000 + d * 0x200000 + 0x150008 + i * 0x10) * 8 + 0, 16, 0x0⟩
/-- HD_ARR.NEXT_ARR [21:11] RO (04 R133): Member arrivals for epoch + 1 -/
def F.HD_ARR_NEXT_ARR (d : Nat) (i : Nat) : Fld := ⟨(0x1000000 + d * 0x200000 + 0x15000c + i * 0x10) * 8 + 11, 11, 0x0⟩
/-- HD_ARR.MEMBER_ARR [10:0] RO (04 R133): Member arrivals for the current epoch -/
def F.HD_ARR_MEMBER_ARR (d : Nat) (i : Nat) : Fld := ⟨(0x1000000 + d * 0x200000 + 0x15000c + i * 0x10) * 8 + 0, 11, 0x0⟩
/-- MX_STAT.RETRYING [14:14] RO (05 R171): 1: a re-feed is in progress -/
def F.MX_STAT_RETRYING (c : CoreId) : Fld := ⟨(coreBase c + 0x500) * 8 + 14, 1, 0x0⟩
/-- MX_STAT.UNVERIFIED [13:11] RO (05 R171): Unverified passes, 0 to 4 -/
def F.MX_STAT_UNVERIFIED (c : CoreId) : Fld := ⟨(coreBase c + 0x500) * 8 + 11, 3, 0x0⟩
/-- MX_STAT.ZONE [10:8] RO (05 R171): Tokens in the zone, 0 to 4 -/
def F.MX_STAT_ZONE (c : CoreId) : Fld := ⟨(coreBase c + 0x500) * 8 + 8, 3, 0x0⟩
/-- MX_STAT.BANK3 [7:6] RO (05 R171): State of BANK_3 by R165 -/
def F.MX_STAT_BANK3 (c : CoreId) : Fld := ⟨(coreBase c + 0x500) * 8 + 6, 2, 0x0⟩
/-- MX_STAT.BANK2 [5:4] RO (05 R171): State of BANK_2 -/
def F.MX_STAT_BANK2 (c : CoreId) : Fld := ⟨(coreBase c + 0x500) * 8 + 4, 2, 0x0⟩
/-- MX_STAT.BANK1 [3:2] RO (05 R171): State of BANK_1 -/
def F.MX_STAT_BANK1 (c : CoreId) : Fld := ⟨(coreBase c + 0x500) * 8 + 2, 2, 0x0⟩
/-- MX_STAT.BANK0 [1:0] RO (05 R171): State of BANK_0 -/
def F.MX_STAT_BANK0 (c : CoreId) : Fld := ⟨(coreBase c + 0x500) * 8 + 0, 2, 0x0⟩
/-- MX_CHK_PASSES.COUNT [63:0] RO (05 R171): Comparisons; mismatches; MX_CHK_PASSES at the n-th most recent mismatch; frozen passes skipped -/
def F.MX_CHK_PASSES_COUNT (c : CoreId) : Fld := ⟨(coreBase c + 0x508) * 8 + 0, 64, 0x0⟩
/-- MX_CHK_MISS.COUNT [63:0] RO (05 R171): Comparisons; mismatches; MX_CHK_PASSES at the n-th most recent mismatch; frozen passes skipped -/
def F.MX_CHK_MISS_COUNT (c : CoreId) : Fld := ⟨(coreBase c + 0x510) * 8 + 0, 64, 0x0⟩
/-- MX_CHK_AT.COUNT [63:0] RO (05 R171): Comparisons; mismatches; MX_CHK_PASSES at the n-th most recent mismatch; frozen passes skipped -/
def F.MX_CHK_AT_COUNT (c : CoreId) (i : Nat) : Fld := ⟨(coreBase c + 0x518 + i * 0x8) * 8 + 0, 64, 0x0⟩
/-- MX_BLK_SKIP.COUNT [63:0] RO (05 R171): Comparisons; mismatches; MX_CHK_PASSES at the n-th most recent mismatch; frozen passes skipped -/
def F.MX_BLK_SKIP_COUNT (c : CoreId) : Fld := ⟨(coreBase c + 0x530) * 8 + 0, 64, 0x0⟩
/-- MX_ZONE.TOKEN [31:0] RO (05 R171): Token bytes 0 to 31 by R163, as eight 32-bit words in byte order; 0 for an empty entry -/
def F.MX_ZONE_TOKEN (c : CoreId) (i : Nat) (j : Nat) : Fld := ⟨(coreBase c + 0x580 + i * 0x20 + j * 0x4) * 8 + 0, 32, 0x0⟩
/-- TB_CFG.CFG [63:0] RO (05 R171): Operand bits [127:64] of the TB_CFG that last wrote slot n -/
def F.TB_CFG_CFG (c : CoreId) (i : Nat) : Fld := ⟨(coreBase c + 0x600 + i * 0x8) * 8 + 0, 64, 0x0⟩
/-- CL_EXC_W0.VALID [31:31] RO (05 R172): 1: the entry holds an occurrence -/
def F.CL_EXC_W0_VALID (k : ClusterId) (i : Nat) : Fld := ⟨(clusterBase k + 0x1000 + i * 0x10) * 8 + 31, 1, 0x0⟩
/-- CL_EXC_W0.SRC [30:28] RO (05 R172): 0 array; 1 turn buffer port A; 2 turn buffer port B; 3 decathlon chain; 4 to 7 not produced by the device -/
def F.CL_EXC_W0_SRC (k : ClusterId) (i : Nat) : Fld := ⟨(clusterBase k + 0x1000 + i * 0x10) * 8 + 28, 3, 0x0⟩
/-- CL_EXC_W0.SLOT [14:12] RO (05 R172): Slot of the core -/
def F.CL_EXC_W0_SLOT (k : ClusterId) (i : Nat) : Fld := ⟨(clusterBase k + 0x1000 + i * 0x10) * 8 + 12, 3, 0x0⟩
/-- CL_EXC_W0.INDEX [11:0] RO (05 R172): Instruction index -/
def F.CL_EXC_W0_INDEX (k : ClusterId) (i : Nat) : Fld := ⟨(clusterBase k + 0x1000 + i * 0x10) * 8 + 0, 12, 0x0⟩
/-- CL_EXC_W1.TROW [31:16] RO (05 R172): Tile row -/
def F.CL_EXC_W1_TROW (k : ClusterId) (i : Nat) : Fld := ⟨(clusterBase k + 0x1004 + i * 0x10) * 8 + 16, 16, 0x0⟩
/-- CL_EXC_W1.TCOL [15:0] RO (05 R172): Tile column -/
def F.CL_EXC_W1_TCOL (k : ClusterId) (i : Nat) : Fld := ⟨(clusterBase k + 0x1004 + i * 0x10) * 8 + 0, 16, 0x0⟩
/-- CL_EXC_W2.ELEM_ROW [15:8] RO (05 R172): Row within the tile, or 0xFF -/
def F.CL_EXC_W2_ELEM_ROW (k : ClusterId) (i : Nat) : Fld := ⟨(clusterBase k + 0x1008 + i * 0x10) * 8 + 8, 8, 0x0⟩
/-- CL_EXC_W2.ELEM_COL [7:0] RO (05 R172): Column within the tile, or 0xFF -/
def F.CL_EXC_W2_ELEM_COL (k : ClusterId) (i : Nat) : Fld := ⟨(clusterBase k + 0x1008 + i * 0x10) * 8 + 0, 8, 0x0⟩
/-- CL_EXC_W3.STEP [31:0] RO (05 R172): Step number -/
def F.CL_EXC_W3_STEP (k : ClusterId) (i : Nat) : Fld := ⟨(clusterBase k + 0x100c + i * 0x10) * 8 + 0, 32, 0x0⟩
/-- CH_STAT.INFLIGHT [15:12] RO (06 R207): VX instructions in flight, 0 to 8 -/
def F.CH_STAT_INFLIGHT (c : CoreId) : Fld := ⟨(coreBase c + 0x700) * 8 + 12, 4, 0x0⟩
/-- CH_STAT.HAZARD [8:8] RO (06 R207): 1: the next VX waits under the storage condition of R201 -/
def F.CH_STAT_HAZARD (c : CoreId) : Fld := ⟨(coreBase c + 0x700) * 8 + 8, 1, 0x0⟩
/-- CH_STAT.TOKEN_WAIT [7:7] RO (06 R207): 1: the next VX waits for a token -/
def F.CH_STAT_TOKEN_WAIT (c : CoreId) : Fld := ⟨(coreBase c + 0x700) * 8 + 7, 1, 0x0⟩
/-- CH_STAT.H1_BANK [6:5] RO (06 R207): Bank held as H1 -/
def F.CH_STAT_H1_BANK (c : CoreId) : Fld := ⟨(coreBase c + 0x700) * 8 + 5, 2, 0x0⟩
/-- CH_STAT.H1_VALID [4:4] RO (06 R207): 1: H1 is held -/
def F.CH_STAT_H1_VALID (c : CoreId) : Fld := ⟨(coreBase c + 0x700) * 8 + 4, 1, 0x0⟩
/-- CH_STAT.H0_BANK [3:2] RO (06 R207): Bank held as H0 -/
def F.CH_STAT_H0_BANK (c : CoreId) : Fld := ⟨(coreBase c + 0x700) * 8 + 2, 2, 0x0⟩
/-- CH_STAT.H0_VALID [1:1] RO (06 R207): 1: H0 is held -/
def F.CH_STAT_H0_VALID (c : CoreId) : Fld := ⟨(coreBase c + 0x700) * 8 + 1, 1, 0x0⟩
/-- CH_STAT.BUSY [0:0] RO (06 R207): 1: an instruction is in flight -/
def F.CH_STAT_BUSY (c : CoreId) : Fld := ⟨(coreBase c + 0x700) * 8 + 0, 1, 0x0⟩
/-- CH_ELEMS.COUNT [63:0] RO (06 R207): Elements passed by VX; cycles waited on storage; cycles waited for tokens -/
def F.CH_ELEMS_COUNT (c : CoreId) : Fld := ⟨(coreBase c + 0x708) * 8 + 0, 64, 0x0⟩
/-- CH_HAZARD_CYC.COUNT [63:0] RO (06 R207): Elements passed by VX; cycles waited on storage; cycles waited for tokens -/
def F.CH_HAZARD_CYC_COUNT (c : CoreId) : Fld := ⟨(coreBase c + 0x710) * 8 + 0, 64, 0x0⟩
/-- CH_TOKEN_CYC.COUNT [63:0] RO (06 R207): Elements passed by VX; cycles waited on storage; cycles waited for tokens -/
def F.CH_TOKEN_CYC_COUNT (c : CoreId) : Fld := ⟨(coreBase c + 0x718) * 8 + 0, 64, 0x0⟩
/-- CH_CK.VALUE [31:0] RO (06 R207): Last value written by CH_CONST -/
def F.CH_CK_VALUE (c : CoreId) (i : Nat) : Fld := ⟨(coreBase c + 0x740 + i * 0x4) * 8 + 0, 32, 0x0⟩
/-- CH_TAB.VALID [31:31] RO (06 R207): 1: the table holds a function -/
def F.CH_TAB_VALID (c : CoreId) (i : Nat) : Fld := ⟨(coreBase c + 0x780 + i * 0x4) * 8 + 31, 1, 0x0⟩
/-- CH_TAB.GEN [23:16] RO (06 R207): Generation of the pair by R192 -/
def F.CH_TAB_GEN (c : CoreId) (i : Nat) : Fld := ⟨(coreBase c + 0x780 + i * 0x4) * 8 + 16, 8, 0x0⟩
/-- CH_TAB.FUNC_ID [15:0] RO (06 R207): FUNC_ID of the table -/
def F.CH_TAB_FUNC_ID (c : CoreId) (i : Nat) : Fld := ⟨(coreBase c + 0x780 + i * 0x4) * 8 + 0, 16, 0x0⟩
/-- CH_CFG.WORD [47:0] RO (06 R207): Word w of slot s, as last written by CH_CFG -/
def F.CH_CFG_WORD (c : CoreId) (i : Nat) (j : Nat) : Fld := ⟨(coreBase c + 0xc00 + i * 0x20 + j * 0x8) * 8 + 0, 48, 0x0⟩
/-- RC_STAT.INIT [31:31] RO (08 R256): 1: RC_INIT has run in this step -/
def F.RC_STAT_INIT (k : ClusterId) : Fld := ⟨(clusterBase k + 0x2000) * 8 + 31, 1, 0x0⟩
/-- RC_STAT.RECLAIM [30:30] RO (08 R256): 1: DEFERRED pages of this HOME await quiet -/
def F.RC_STAT_RECLAIM (k : ClusterId) : Fld := ⟨(clusterBase k + 0x2000) * 8 + 30, 1, 0x0⟩
/-- RC_STAT.NODES [14:0] RO (08 R256): Nodes in this prefix match unit, 0 to 16,384 -/
def F.RC_STAT_NODES (k : ClusterId) : Fld := ⟨(clusterBase k + 0x2000) * 8 + 0, 15, 0x0⟩
/-- RC_LOW.EPOCH [31:0] RO (08 R256): Oldest epoch with an unretired descriptor of this cluster, or the last epoch read if none -/
def F.RC_LOW_EPOCH (k : ClusterId) : Fld := ⟨(clusterBase k + 0x2004) * 8 + 0, 32, 0x0⟩
/-- RC_ERR.VALID [31:31] RO (08 R256): 1: a routine failed in this step -/
def F.RC_ERR_VALID (k : ClusterId) : Fld := ⟨(clusterBase k + 0x2008) * 8 + 31, 1, 0x0⟩
/-- RC_ERR.SLOT [14:12] RO (08 R256): Requesting slot -/
def F.RC_ERR_SLOT (k : ClusterId) : Fld := ⟨(clusterBase k + 0x2008) * 8 + 12, 3, 0x0⟩
/-- RC_ERR.OP [11:8] RO (08 R256): Routine -/
def F.RC_ERR_OP (k : ClusterId) : Fld := ⟨(clusterBase k + 0x2008) * 8 + 8, 4, 0x0⟩
/-- RC_ERR.REASON [7:0] RO (08 R256): Code of R239 -/
def F.RC_ERR_REASON (k : ClusterId) : Fld := ⟨(clusterBase k + 0x2008) * 8 + 0, 8, 0x0⟩
/-- RC_OUT.COUNT [15:0] RO (08 R256): Unretired descriptors of epochs equal to n modulo 16 -/
def F.RC_OUT_COUNT (k : ClusterId) (i : Nat) : Fld := ⟨(clusterBase k + 0x2040 + i * 0x4) * 8 + 0, 16, 0x0⟩
/-- RC_CNT.COUNT [63:0] RO (08 R256): n = 0 node operations; 1 merges; 2 PMU_TOKEN_MISMATCH; 3 PMU_BUCKET_FULL; 4 copies on write; 5 evictions; 6 fe -/
def F.RC_CNT_COUNT (k : ClusterId) (i : Nat) : Fld := ⟨(clusterBase k + 0x2100 + i * 0x8) * 8 + 0, 64, 0x0⟩
/-- FM_CNT.COUNT [63:0] RO (09 R286): n = 0 blocks encoded; 1 blocks decoded; 2 blocks encoded with SPECIAL; 3 blocks decoded as invalid under R283 -/
def F.FM_CNT_COUNT (k : ClusterId) (i : Nat) : Fld := ⟨(clusterBase k + 0x2400 + i * 0x8) * 8 + 0, 64, 0x0⟩
/-- CX_STAT.PK_IN [15:14] RO (10 R317): Blocks in the packer input, 0 to 2 -/
def F.CX_STAT_PK_IN (c : CoreId) : Fld := ⟨(coreBase c + 0xe00) * 8 + 14, 2, 0x0⟩
/-- CX_STAT.PK_BUSY [13:13] RO (10 R317): 1: the packer holds work -/
def F.CX_STAT_PK_BUSY (c : CoreId) : Fld := ⟨(coreBase c + 0xe00) * 8 + 13, 1, 0x0⟩
/-- CX_STAT.EARLY [12:8] RO (10 R317): Descriptors begun under R312 and not yet taken, 0 to 16 -/
def F.CX_STAT_EARLY (c : CoreId) : Fld := ⟨(coreBase c + 0xe00) * 8 + 8, 5, 0x0⟩
/-- CX_STAT.EXP [7:6] RO (10 R317): 0 idle; 1 expanding; 2 waiting for an entry; 3 repeating a block under R309 -/
def F.CX_STAT_EXP (c : CoreId) : Fld := ⟨(coreBase c + 0xe00) * 8 + 6, 2, 0x0⟩
/-- CX_STAT.QUEUE [5:0] RO (10 R317): Occupied queue entries, 0 to 32 -/
def F.CX_STAT_QUEUE (c : CoreId) : Fld := ⟨(coreBase c + 0xe00) * 8 + 0, 6, 0x0⟩
/-- CX_CNT.COUNT [63:0] RO (10 R317): n = 0 STARVED cycles; 1 FULL cycles; 2 blocks packed coded; 3 blocks packed escaped; 4 blocks expanded; 5 payl -/
def F.CX_CNT_COUNT (c : CoreId) (i : Nat) : Fld := ⟨(coreBase c + 0xe08 + i * 0x8) * 8 + 0, 64, 0x0⟩
/-- CX_SLOT_W0.QREF [30:20] RO (10 R318): Pinning blocks, 0 to 2,047 -/
def F.CX_SLOT_W0_QREF (k : ClusterId) (i : Nat) : Fld := ⟨(clusterBase k + 0x2800 + i * 0x10) * 8 + 20, 11, 0x0⟩
/-- CX_SLOT_W0.OWNER [18:16] RO (10 R318): Slot of the owning stream -/
def F.CX_SLOT_W0_OWNER (k : ClusterId) (i : Nat) : Fld := ⟨(clusterBase k + 0x2800 + i * 0x10) * 8 + 16, 3, 0x0⟩
/-- CX_SLOT_W0.GEN [15:8] RO (10 R318): Generation by R297 -/
def F.CX_SLOT_W0_GEN (k : ClusterId) (i : Nat) : Fld := ⟨(clusterBase k + 0x2800 + i * 0x10) * 8 + 8, 8, 0x0⟩
/-- CX_SLOT_W0.STATE [1:0] RO (10 R318): State by R297 -/
def F.CX_SLOT_W0_STATE (k : ClusterId) (i : Nat) : Fld := ⟨(clusterBase k + 0x2800 + i * 0x10) * 8 + 0, 2, 0x0⟩
/-- CX_SLOT_W1.IDENT [28:0] RO (10 R318): Table identity by R298 -/
def F.CX_SLOT_W1_IDENT (k : ClusterId) (i : Nat) : Fld := ⟨(clusterBase k + 0x2804 + i * 0x10) * 8 + 0, 29, 0x0⟩
/-- CX_SLOT_W2.NSYM [24:16] RO (10 R318): Alphabet size -/
def F.CX_SLOT_W2_NSYM (k : ClusterId) (i : Nat) : Fld := ⟨(clusterBase k + 0x2808 + i * 0x10) * 8 + 16, 9, 0x0⟩
/-- CX_SLOT_W2.TCHK [15:8] RO (10 R318): Bits [7:0] of TCRC -/
def F.CX_SLOT_W2_TCHK (k : ClusterId) (i : Nat) : Fld := ⟨(clusterBase k + 0x2808 + i * 0x10) * 8 + 8, 8, 0x0⟩
/-- CX_SLOT_W2.MAXLEN [7:4] RO (10 R318): Longest code -/
def F.CX_SLOT_W2_MAXLEN (k : ClusterId) (i : Nat) : Fld := ⟨(clusterBase k + 0x2808 + i * 0x10) * 8 + 4, 4, 0x0⟩
/-- CX_SLOT_W2.FMT [3:0] RO (10 R318): Format code -/
def F.CX_SLOT_W2_FMT (k : ClusterId) (i : Nat) : Fld := ⟨(clusterBase k + 0x2808 + i * 0x10) * 8 + 0, 4, 0x0⟩
/-- CX_SLOT_W3.TCRC [31:0] RO (10 R318): CRC of the table record -/
def F.CX_SLOT_W3_TCRC (k : ClusterId) (i : Nat) : Fld := ⟨(clusterBase k + 0x280c + i * 0x10) * 8 + 0, 32, 0x0⟩
/-- CX_ERR.VALID [31:31] RO (10 R318): 1: a codec failure occurred in this step -/
def F.CX_ERR_VALID (k : ClusterId) : Fld := ⟨(clusterBase k + 0x2900) * 8 + 31, 1, 0x0⟩
/-- CX_ERR.REASON [23:16] RO (10 R318): Code of R310 -/
def F.CX_ERR_REASON (k : ClusterId) : Fld := ⟨(clusterBase k + 0x2900) * 8 + 16, 8, 0x0⟩
/-- CX_ERR.SLOT [14:12] RO (10 R318): Requesting slot -/
def F.CX_ERR_SLOT (k : ClusterId) : Fld := ⟨(clusterBase k + 0x2900) * 8 + 12, 3, 0x0⟩
/-- CX_ERR.INDEX [11:0] RO (10 R318): Instruction index -/
def F.CX_ERR_INDEX (k : ClusterId) : Fld := ⟨(clusterBase k + 0x2900) * 8 + 0, 12, 0x0⟩
/-- SEC_PR_BASE.ADDR [47:21] RW (11 R344): Base, or the last 2 MiB unit included, in 2 MiB units -/
def F.SEC_PR_BASE_ADDR (i : Nat) : Fld := ⟨(0x50000 + 0x1000 + i * 0x20) * 8 + 21, 27, 0x0⟩
/-- SEC_PR_LIMIT.ADDR [47:21] RW (11 R344): Base, or the last 2 MiB unit included, in 2 MiB units -/
def F.SEC_PR_LIMIT_ADDR (i : Nat) : Fld := ⟨(0x50000 + 0x1008 + i * 0x20) * 8 + 21, 27, 0x0⟩
/-- SEC_PR_CTL.KEY_VALID [9:9] RO (11 R344): 1: the key slot holds a key -/
def F.SEC_PR_CTL_KEY_VALID (i : Nat) : Fld := ⟨(0x50000 + 0x1010 + i * 0x20) * 8 + 9, 1, 0x0⟩
/-- SEC_PR_CTL.KEY_SLOT [4:1] RW (11 R344): Key slot 0 to 15 -/
def F.SEC_PR_CTL_KEY_SLOT (i : Nat) : Fld := ⟨(0x50000 + 0x1010 + i * 0x20) * 8 + 1, 4, 0x0⟩
/-- SEC_PR_CTL.EN [0:0] RW (11 R344): 1: region enabled -/
def F.SEC_PR_CTL_EN (i : Nat) : Fld := ⟨(0x50000 + 0x1010 + i * 0x20) * 8 + 0, 1, 0x0⟩
/-- HBM_STAT.TRAINED [8:8] RO (11 R345): 1: the interface is trained -/
def F.HBM_STAT_TRAINED (n : Nat) : Fld := ⟨(0x300000 + n * 0x4000 + 0x0) * 8 + 8, 1, 0x0⟩
/-- HBM_STAT.FAILING [7:7] RO (11 R345): 1: a second pseudo-channel met the threshold (R327) -/
def F.HBM_STAT_FAILING (n : Nat) : Fld := ⟨(0x300000 + n * 0x4000 + 0x0) * 8 + 7, 1, 0x0⟩
/-- HBM_STAT.RET_PENDING [6:6] RO (11 R345): 1: a remap awaits R326 -/
def F.HBM_STAT_RET_PENDING (n : Nat) : Fld := ⟨(0x300000 + n * 0x4000 + 0x0) * 8 + 6, 1, 0x0⟩
/-- HBM_STAT.RET_VALID [5:5] RO (11 R345): 1: RETIRED_PC is retired and remapped -/
def F.HBM_STAT_RET_VALID (n : Nat) : Fld := ⟨(0x300000 + n * 0x4000 + 0x0) * 8 + 5, 1, 0x0⟩
/-- HBM_STAT.RETIRED_PC [4:0] RO (11 R345): Retired or pending pseudo-channel -/
def F.HBM_STAT_RETIRED_PC (n : Nat) : Fld := ⟨(0x300000 + n * 0x4000 + 0x0) * 8 + 0, 5, 0x0⟩
/-- ST_STAT.TRAINED [8:8] RO (11 R345): 1: the interface is trained -/
def F.ST_STAT_TRAINED (n : Nat) : Fld := ⟨(0x340000 + n * 0x2000 + 0x0) * 8 + 8, 1, 0x0⟩
/-- ST_STAT.FAILING [7:7] RO (11 R345): 1: a second pseudo-channel met the threshold (R327) -/
def F.ST_STAT_FAILING (n : Nat) : Fld := ⟨(0x340000 + n * 0x2000 + 0x0) * 8 + 7, 1, 0x0⟩
/-- ST_STAT.RET_PENDING [6:6] RO (11 R345): 1: a remap awaits R326 -/
def F.ST_STAT_RET_PENDING (n : Nat) : Fld := ⟨(0x340000 + n * 0x2000 + 0x0) * 8 + 6, 1, 0x0⟩
/-- ST_STAT.RET_VALID [5:5] RO (11 R345): 1: RETIRED_PC is retired and remapped -/
def F.ST_STAT_RET_VALID (n : Nat) : Fld := ⟨(0x340000 + n * 0x2000 + 0x0) * 8 + 5, 1, 0x0⟩
/-- ST_STAT.RETIRED_PC [4:0] RO (11 R345): Retired or pending pseudo-channel -/
def F.ST_STAT_RETIRED_PC (n : Nat) : Fld := ⟨(0x340000 + n * 0x2000 + 0x0) * 8 + 0, 5, 0x0⟩
/-- HBM_LIMIT.LIMIT [35:0] RO (11 R345): First unusable offset: 48 GB, or 46.5 GB after R325 -/
def F.HBM_LIMIT_LIMIT (n : Nat) : Fld := ⟨(0x300000 + n * 0x4000 + 0x8) * 8 + 0, 36, 0xb2d05e000⟩
/-- ST_LIMIT.LIMIT [35:0] RO (11 R345): First unusable offset: 48 GB, or 46.5 GB after R325 -/
def F.ST_LIMIT_LIMIT (n : Nat) : Fld := ⟨(0x340000 + n * 0x2000 + 0x8) * 8 + 0, 36, 0xb2d05e000⟩
/-- HBM_CE_CNT.COUNT [63:0] RO (11 R345): Corrected errors; uncorrectable errors; scrub passes completed; repairs -/
def F.HBM_CE_CNT_COUNT (n : Nat) (i : Nat) : Fld := ⟨(0x300000 + n * 0x4000 + 0x100 + i * 0x8) * 8 + 0, 64, 0x0⟩
/-- HBM_UE_CNT.COUNT [63:0] RO (11 R345): Corrected errors; uncorrectable errors; scrub passes completed; repairs -/
def F.HBM_UE_CNT_COUNT (n : Nat) (i : Nat) : Fld := ⟨(0x300000 + n * 0x4000 + 0x200 + i * 0x8) * 8 + 0, 64, 0x0⟩
/-- HBM_SCRUB.COUNT [63:0] RO (11 R345): Corrected errors; uncorrectable errors; scrub passes completed; repairs -/
def F.HBM_SCRUB_COUNT (n : Nat) : Fld := ⟨(0x300000 + n * 0x4000 + 0x300) * 8 + 0, 64, 0x0⟩
/-- HBM_PPR_CNT.COUNT [63:0] RO (11 R345): Corrected errors; uncorrectable errors; scrub passes completed; repairs -/
def F.HBM_PPR_CNT_COUNT (n : Nat) : Fld := ⟨(0x300000 + n * 0x4000 + 0x308) * 8 + 0, 64, 0x0⟩
/-- ST_CE_CNT.COUNT [63:0] RO (11 R345): Corrected errors; uncorrectable errors; scrub passes completed; repairs -/
def F.ST_CE_CNT_COUNT (n : Nat) : Fld := ⟨(0x340000 + n * 0x2000 + 0x100) * 8 + 0, 64, 0x0⟩
/-- ST_UE_CNT.COUNT [63:0] RO (11 R345): Corrected errors; uncorrectable errors; scrub passes completed; repairs -/
def F.ST_UE_CNT_COUNT (n : Nat) : Fld := ⟨(0x340000 + n * 0x2000 + 0x200) * 8 + 0, 64, 0x0⟩
/-- ST_SCRUB.COUNT [63:0] RO (11 R345): Corrected errors; uncorrectable errors; scrub passes completed; repairs -/
def F.ST_SCRUB_COUNT (n : Nat) : Fld := ⟨(0x340000 + n * 0x2000 + 0x300) * 8 + 0, 64, 0x0⟩
/-- ST_PPR_CNT.COUNT [63:0] RO (11 R345): Corrected errors; uncorrectable errors; scrub passes completed; repairs -/
def F.ST_PPR_CNT_COUNT (n : Nat) : Fld := ⟨(0x340000 + n * 0x2000 + 0x308) * 8 + 0, 64, 0x0⟩
/-- HBM_POISON.VALID [63:63] RW1C (11 R345): 1: ADDR holds the first poisoned line since the last clear -/
def F.HBM_POISON_VALID (n : Nat) : Fld := ⟨(0x300000 + n * 0x4000 + 0x310) * 8 + 63, 1, 0x0⟩
/-- HBM_POISON.ADDR [47:0] RO (11 R345): Module address of the line -/
def F.HBM_POISON_ADDR (n : Nat) : Fld := ⟨(0x300000 + n * 0x4000 + 0x310) * 8 + 0, 48, 0x0⟩
/-- ST_POISON.VALID [63:63] RW1C (11 R345): 1: ADDR holds the first poisoned line since the last clear -/
def F.ST_POISON_VALID (n : Nat) : Fld := ⟨(0x340000 + n * 0x2000 + 0x310) * 8 + 63, 1, 0x0⟩
/-- ST_POISON.ADDR [47:0] RO (11 R345): Module address of the line -/
def F.ST_POISON_ADDR (n : Nat) : Fld := ⟨(0x340000 + n * 0x2000 + 0x310) * 8 + 0, 48, 0x0⟩
/-- DMA_ERR.VALID [31:31] RO (11 R345): 1: a descriptor failed R340 in this step -/
def F.DMA_ERR_VALID (c : CoreId) : Fld := ⟨(coreBase c + 0xf00) * 8 + 31, 1, 0x0⟩
/-- DMA_ERR.REASON [19:12] RO (11 R345): 0x01 address (R319, R328); 0x02 field (R334); 0x03 codec (R337); 0x04 overlap; 0x05 remote or multicast (R338, -/
def F.DMA_ERR_REASON (c : CoreId) : Fld := ⟨(coreBase c + 0xf00) * 8 + 12, 8, 0x0⟩
/-- DMA_ERR.INDEX [11:0] RO (11 R345): Instruction index of the DX, or 0xFFF for a stream-queue descriptor -/
def F.DMA_ERR_INDEX (c : CoreId) : Fld := ⟨(coreBase c + 0xf00) * 8 + 0, 12, 0x0⟩
/-- UD_STAT.UNIT [23:16] RO (12 R376): Unit in the update pass -/
def F.UD_STAT_UNIT (m : Nat) : Fld := ⟨(0x200000 + m * 0x40000 + 0x0) * 8 + 16, 8, 0x0⟩
/-- UD_STAT.BUF [15:14] RO (12 R376): Buffer halves holding a unit, 0 to 2 -/
def F.UD_STAT_BUF (m : Nat) : Fld := ⟨(0x200000 + m * 0x40000 + 0x0) * 8 + 14, 2, 0x0⟩
/-- UD_STAT.SKIP_SEEN [4:4] RO (12 R376): 1: a non-finite gradient element was met in this step -/
def F.UD_STAT_SKIP_SEEN (m : Nat) : Fld := ⟨(0x200000 + m * 0x40000 + 0x0) * 8 + 4, 1, 0x0⟩
/-- UD_STAT.PHASE [3:0] RO (12 R376): 0 idle; 1 reading; 2 statistics; 3 waiting for a chain or the norm; 4 updating; 5 writing outputs; 6 to 15 not -/
def F.UD_STAT_PHASE (m : Nat) : Fld := ⟨(0x200000 + m * 0x40000 + 0x0) * 8 + 0, 4, 0x0⟩
/-- UD_GEN.PAIR_VALID [2:2] RO (12 R376): 1: a generation pair is in force -/
def F.UD_GEN_PAIR_VALID (m : Nat) : Fld := ⟨(0x200000 + m * 0x40000 + 0x4) * 8 + 2, 1, 0x0⟩
/-- UD_GEN.TABLES_VALID [1:1] RO (12 R376): 1: update tables are in force -/
def F.UD_GEN_TABLES_VALID (m : Nat) : Fld := ⟨(0x200000 + m * 0x40000 + 0x4) * 8 + 1, 1, 0x0⟩
/-- UD_GEN.CUR [0:0] RS (12 R376): Current generation: 0 A, 1 B; read-only, survives warm reset and RESET_PART of other parts -/
def F.UD_GEN_CUR (m : Nat) : Fld := ⟨(0x200000 + m * 0x40000 + 0x4) * 8 + 0, 1, 0x0⟩
/-- UD_FLAGS.CLR_CNT [31:31] RW (12 R376): Trigger: writing 1 clears UD_CNT_5 and CNT_OVF; reads back the last value written -/
def F.UD_FLAGS_CLR_CNT (m : Nat) : Fld := ⟨(0x200000 + m * 0x40000 + 0x8) * 8 + 31, 1, 0x0⟩
/-- UD_FLAGS.CNT_OVF [3:3] RW1C (12 R376): Sticky: UD_CNT_5 has saturated -/
def F.UD_FLAGS_CNT_OVF (m : Nat) : Fld := ⟨(0x200000 + m * 0x40000 + 0x8) * 8 + 3, 1, 0x0⟩
/-- UD_FLAGS.NAN_IN [2:2] RW1C (12 R376): Sticky: a NaN operand was consumed -/
def F.UD_FLAGS_NAN_IN (m : Nat) : Fld := ⟨(0x200000 + m * 0x40000 + 0x8) * 8 + 2, 1, 0x0⟩
/-- UD_FLAGS.INV [1:1] RW1C (12 R376): Sticky: an invalid operation occurred -/
def F.UD_FLAGS_INV (m : Nat) : Fld := ⟨(0x200000 + m * 0x40000 + 0x8) * 8 + 1, 1, 0x0⟩
/-- UD_FLAGS.OVF [0:0] RW1C (12 R376): Sticky: a conversion or result overflowed -/
def F.UD_FLAGS_OVF (m : Nat) : Fld := ⟨(0x200000 + m * 0x40000 + 0x8) * 8 + 0, 1, 0x0⟩
/-- UD_TABGEN.TABLE_GEN [7:0] RO (12 R376): Advanced by each update-table SET_TABLE (R347) -/
def F.UD_TABGEN_TABLE_GEN (m : Nat) : Fld := ⟨(0x200000 + m * 0x40000 + 0xc) * 8 + 0, 8, 0x0⟩
/-- UD_NORM.VALUE [31:0] RO (12 R376): K32 norm and κ of the last norm pass; +0 when none ran -/
def F.UD_NORM_VALUE (m : Nat) : Fld := ⟨(0x200000 + m * 0x40000 + 0x40) * 8 + 0, 32, 0x0⟩
/-- UD_KAPPA.VALUE [31:0] RO (12 R376): K32 norm and κ of the last norm pass; +0 when none ran -/
def F.UD_KAPPA_VALUE (m : Nat) : Fld := ⟨(0x200000 + m * 0x40000 + 0x44) * 8 + 0, 32, 0x0⟩
/-- UD_CNT.COUNT [63:0] RO (12 R376): n = 0 elements updated; 1 elements copied frozen; 2 non-finite gradient elements; 3 units completed; 4 steps s -/
def F.UD_CNT_COUNT (m : Nat) (i : Nat) : Fld := ⟨(0x200000 + m * 0x40000 + 0x100 + i * 0x8) * 8 + 0, 64, 0x0⟩
/-- FP_STAT.RUN_MAJ [31:24] RO (13 R410): Major version in use -/
def F.FP_STAT_RUN_MAJ (p : Nat) : Fld := ⟨(0x100000 + p * 0x10000 + 0x0) * 8 + 24, 8, 0x0⟩
/-- FP_STAT.RUN_MIN [23:16] RO (13 R410): Minor version in use -/
def F.FP_STAT_RUN_MIN (p : Nat) : Fld := ⟨(0x100000 + p * 0x10000 + 0x0) * 8 + 16, 8, 0x0⟩
/-- FP_STAT.LANE_OK [15:8] RO (13 R410): Bit l: LANE_l is in use -/
def F.FP_STAT_LANE_OK (p : Nat) : Fld := ⟨(0x100000 + p * 0x10000 + 0x0) * 8 + 8, 8, 0x0⟩
/-- FP_STAT.HALF [6:6] RO (13 R410): At x4: 0 lower half; 1 upper half -/
def F.FP_STAT_HALF (p : Nat) : Fld := ⟨(0x100000 + p * 0x10000 + 0x0) * 8 + 6, 1, 0x0⟩
/-- FP_STAT.WIDTH [5:4] RO (13 R410): 0 none; 1 x4; 2 x8; 3 not produced by the device -/
def F.FP_STAT_WIDTH (p : Nat) : Fld := ⟨(0x100000 + p * 0x10000 + 0x0) * 8 + 4, 2, 0x0⟩
/-- FP_STAT.STATE [3:0] RO (13 R410): State by R389 -/
def F.FP_STAT_STATE (p : Nat) : Fld := ⟨(0x100000 + p * 0x10000 + 0x0) * 8 + 0, 4, 0x0⟩
/-- FP_CFG.RETRAIN [8:8] RW (13 R410): Trigger: writing 1 retrains an ACTIVE port; reads back the last value written -/
def F.FP_CFG_RETRAIN (p : Nat) : Fld := ⟨(0x100000 + p * 0x10000 + 0x4) * 8 + 8, 1, 0x0⟩
/-- FP_CFG.DIM [7:4] RW (13 R410): Dimension 0 to 3; 0xF none; 0x4 to 0xE reserved -/
def F.FP_CFG_DIM (p : Nat) : Fld := ⟨(0x100000 + p * 0x10000 + 0x4) * 8 + 4, 4, 0xf⟩
/-- FP_CFG.DATELINE [1:1] RW (13 R410): 1: flits leaving this port take class HI -/
def F.FP_CFG_DATELINE (p : Nat) : Fld := ⟨(0x100000 + p * 0x10000 + 0x4) * 8 + 1, 1, 0x0⟩
/-- FP_CFG.ENABLE [0:0] RW (13 R410): 0: port DISABLED -/
def F.FP_CFG_ENABLE (p : Nat) : Fld := ⟨(0x100000 + p * 0x10000 + 0x4) * 8 + 0, 1, 0x1⟩
/-- FP_PARTNER.VALID [31:31] RO (13 R410): 1: the partner's MODULE_ID is assigned -/
def F.FP_PARTNER_VALID (p : Nat) : Fld := ⟨(0x100000 + p * 0x10000 + 0x8) * 8 + 31, 1, 0x0⟩
/-- FP_PARTNER.PORT [19:16] RO (13 R410): Partner's port number -/
def F.FP_PARTNER_PORT (p : Nat) : Fld := ⟨(0x100000 + p * 0x10000 + 0x8) * 8 + 16, 4, 0x0⟩
/-- FP_PARTNER.MODULE [9:0] RO (13 R410): Partner's MODULE_ID -/
def F.FP_PARTNER_MODULE (p : Nat) : Fld := ⟨(0x100000 + p * 0x10000 + 0x8) * 8 + 0, 10, 0x0⟩
/-- FP_PFEAT.FEAT [31:0] RO (13 R410): Partner's feature word -/
def F.FP_PFEAT_FEAT (p : Nat) : Fld := ⟨(0x100000 + p * 0x10000 + 0xc) * 8 + 0, 32, 0x0⟩
/-- FP_RTT.UNACKED [24:16] RO (13 R410): Flits in the replay buffer, 0 to 256 -/
def F.FP_RTT_UNACKED (p : Nat) : Fld := ⟨(0x100000 + p * 0x10000 + 0x10) * 8 + 16, 9, 0x0⟩
/-- FP_RTT.RTT [15:0] RO (13 R410): Round trip by R386, in ns -/
def F.FP_RTT_RTT (p : Nat) : Fld := ⟨(0x100000 + p * 0x10000 + 0x10) * 8 + 0, 16, 0x0⟩
/-- FP_CRED.HELD [31:16] RO (13 R410): Credits held for sending into the partner's pool q -/
def F.FP_CRED_HELD (p : Nat) (i : Nat) : Fld := ⟨(0x100000 + p * 0x10000 + 0x100 + i * 0x4) * 8 + 16, 16, 0x0⟩
/-- FP_CRED.LIMIT [15:0] RW (13 R410): Size of this port's receive pool q (R388) -/
def F.FP_CRED_LIMIT (p : Nat) (i : Nat) : Fld := ⟨(0x100000 + p * 0x10000 + 0x100 + i * 0x4) * 8 + 0, 16, credReset i⟩
/-- FP_CNT.COUNT [63:0] RO (13 R410): n = 0 routed flits sent; 1 routed flits accepted; 2 bad flits; 3 NAKs sent; 4 replays; 5 HOLDs sent; 6 HOLDs r -/
def F.FP_CNT_COUNT (p : Nat) (i : Nat) : Fld := ⟨(0x100000 + p * 0x10000 + 0x200 + i * 0x8) * 8 + 0, 64, 0x0⟩
/-- FP_LANE_ERR.COUNT [63:0] RO (13 R410): n = 0 routed flits sent; 1 routed flits accepted; 2 bad flits; 3 NAKs sent; 4 replays; 5 HOLDs sent; 6 HOLDs r -/
def F.FP_LANE_ERR_COUNT (p : Nat) (i : Nat) : Fld := ⟨(0x100000 + p * 0x10000 + 0x300 + i * 0x8) * 8 + 0, 64, 0x0⟩
/-- FAB_RT.ALT [31:16] RW (13 R411): Bit p: FP_p is in the alternate set -/
def F.FAB_RT_ALT (i : Nat) : Fld := ⟨(0x100000 + 0x8000 + i * 0x8) * 8 + 16, 16, 0x0⟩
/-- FAB_RT.PORTS [15:0] RW (13 R411): Bit p: FP_p is in the primary set -/
def F.FAB_RT_PORTS (i : Nat) : Fld := ⟨(0x100000 + 0x8000 + i * 0x8) * 8 + 0, 16, 0x0⟩
/-- FAB_BIND_W0.STATE [31:30] RO (13 R411): 0 UNBOUND; 1 PENDING; 2 AGREED; 3 CONFLICT -/
def F.FAB_BIND_W0_STATE (i : Nat) : Fld := ⟨(0x100000 + 0xa000 + i * 0x10) * 8 + 30, 2, 0x0⟩
/-- FAB_BIND_W0.KIND [26:24] RO (13 R411): Kind by R395 -/
def F.FAB_BIND_W0_KIND (i : Nat) : Fld := ⟨(0x100000 + 0xa000 + i * 0x10) * 8 + 24, 3, 0x0⟩
/-- FAB_BIND_W0.MEMBERS [20:10] RO (13 R411): Members, 1 to 1,024 -/
def F.FAB_BIND_W0_MEMBERS (i : Nat) : Fld := ⟨(0x100000 + 0xa000 + i * 0x10) * 8 + 10, 11, 0x0⟩
/-- FAB_BIND_W0.RANK [9:0] RO (13 R411): This module's rank -/
def F.FAB_BIND_W0_RANK (i : Nat) : Fld := ⟨(0x100000 + 0xa000 + i * 0x10) * 8 + 0, 10, 0x0⟩
/-- FAB_BIND_W1.GFEAT [31:0] RO (13 R411): Group feature word under AGREED -/
def F.FAB_BIND_W1_GFEAT (i : Nat) : Fld := ⟨(0x100000 + 0xa004 + i * 0x10) * 8 + 0, 32, 0x0⟩
/-- FAB_BIND_W2.LIST_CRC [31:0] RO (13 R411): CRC-32C of the member list -/
def F.FAB_BIND_W2_LIST_CRC (i : Nat) : Fld := ⟨(0x100000 + 0xa008 + i * 0x10) * 8 + 0, 32, 0x0⟩
/-- FAB_FEAT.FEAT [31:0] RO (13 R411): This module's feature word (R394) -/
def F.FAB_FEAT_FEAT : Fld := ⟨(0x100000 + 0xa080) * 8 + 0, 32, 0x3⟩
/-- FAB_ERR.VALID [63:63] RW1C (13 R411): 1: a message failed R399 since the last clear -/
def F.FAB_ERR_VALID : Fld := ⟨(0x100000 + 0xa090) * 8 + 63, 1, 0x0⟩
/-- FAB_ERR.SRC [57:48] RO (13 R411): Source module of the first such message -/
def F.FAB_ERR_SRC : Fld := ⟨(0x100000 + 0xa090) * 8 + 48, 10, 0x0⟩
/-- FAB_ERR.ADDR [47:0] RO (13 R411): Its DST -/
def F.FAB_ERR_ADDR : Fld := ⟨(0x100000 + 0xa090) * 8 + 0, 48, 0x0⟩
/-- FAB_CNT.COUNT [63:0] RO (13 R411): n = 0 discarded, no route; 1 discarded, HOPS; 2 discarded, unbound or non-member; 3 duplicate hurdle arrivals; -/
def F.FAB_CNT_COUNT (i : Nat) : Fld := ⟨(0x100000 + 0xa100 + i * 0x8) * 8 + 0, 64, 0x0⟩
/-- RR_STAT.ARMED [31:31] RO (14 R439): 1: RR_ARM has completed in this step -/
def F.RR_STAT_ARMED : Fld := ⟨(0x100000 + 0xb000) * 8 + 31, 1, 0x0⟩
/-- RR_STAT.GATHERED [23:16] RO (14 R439): Units whose gather streams are complete -/
def F.RR_STAT_GATHERED : Fld := ⟨(0x100000 + 0xb000) * 8 + 16, 8, 0x0⟩
/-- RR_STAT.REDUCED [15:8] RO (14 R439): Units reduced (R435) -/
def F.RR_STAT_REDUCED : Fld := ⟨(0x100000 + 0xb000) * 8 + 8, 8, 0x0⟩
/-- RR_STAT.STARTED [7:0] RO (14 R439): Units whose trigger has passed -/
def F.RR_STAT_STARTED : Fld := ⟨(0x100000 + 0xb000) * 8 + 0, 8, 0x0⟩
/-- RR_STREAM_DONE.DONE [63:0] RO (14 R439): Streams completed on VC_v, at + 0 -/
def F.RR_STREAM_DONE_DONE (i : Nat) : Fld := ⟨(0x100000 + 0xb010 + i * 0x10) * 8 + 0, 64, 0x0⟩
/-- RR_STREAM_RELEASED.RELEASED [63:0] RO (14 R439): Successor's release count on VC_v, at + 8 -/
def F.RR_STREAM_RELEASED_RELEASED (i : Nat) : Fld := ⟨(0x100000 + 0xb018 + i * 0x10) * 8 + 0, 64, 0x0⟩
/-- RR_FLAGS.CLR_CNT [31:31] RW (14 R439): Trigger: writing 1 clears RR_CNT_7 and CNT_OVF; reads back the last value written -/
def F.RR_FLAGS_CLR_CNT : Fld := ⟨(0x100000 + 0xb080) * 8 + 31, 1, 0x0⟩
/-- RR_FLAGS.CNT_OVF [3:3] RW1C (14 R439): Sticky: RR_CNT_7 has saturated -/
def F.RR_FLAGS_CNT_OVF : Fld := ⟨(0x100000 + 0xb080) * 8 + 3, 1, 0x0⟩
/-- RR_FLAGS.NAN_IN [2:2] RW1C (14 R439): Sticky: a NaN contribution was met -/
def F.RR_FLAGS_NAN_IN : Fld := ⟨(0x100000 + 0xb080) * 8 + 2, 1, 0x0⟩
/-- RR_FLAGS.INV [1:1] RW1C (14 R439): Sticky: an agreed scale was 0xFF -/
def F.RR_FLAGS_INV : Fld := ⟨(0x100000 + 0xb080) * 8 + 1, 1, 0x0⟩
/-- RR_FLAGS.OVF [0:0] RW1C (14 R439): Sticky: a pass-1 saturation or a pass-2 overflow -/
def F.RR_FLAGS_OVF : Fld := ⟨(0x100000 + 0xb080) * 8 + 0, 1, 0x0⟩
/-- RR_ERR.VALID [31:31] RO (14 R439): 1: a relay failure occurred in this step -/
def F.RR_ERR_VALID : Fld := ⟨(0x100000 + 0xb088) * 8 + 31, 1, 0x0⟩
/-- RR_ERR.REASON [15:8] RO (14 R439): Code of R415 -/
def F.RR_ERR_REASON : Fld := ⟨(0x100000 + 0xb088) * 8 + 8, 8, 0x0⟩
/-- RR_ERR.UNIT [7:0] RO (14 R439): Unit concerned -/
def F.RR_ERR_UNIT : Fld := ⟨(0x100000 + 0xb088) * 8 + 0, 8, 0x0⟩
/-- RR_CNT.COUNT [63:0] RO (14 R439): n = 0 records processed; 1 blocks flagged; 2 K16 records anchored; 3 NaN elements counted; 4 duplicates discar -/
def F.RR_CNT_COUNT (i : Nat) : Fld := ⟨(0x100000 + 0xb100 + i * 0x8) * 8 + 0, 64, 0x0⟩
/-- HA_STAT.IDE_CM [19:19] RO (15 R456): 1: CXL IDE active on CXL.cache and CXL.mem -/
def F.HA_STAT_IDE_CM : Fld := ⟨(0x60000 + 0xc000) * 8 + 19, 1, 0x0⟩
/-- HA_STAT.IDE_IO [18:18] RO (15 R456): 1: PCIe IDE link stream active -/
def F.HA_STAT_IDE_IO : Fld := ⟨(0x60000 + 0xc000) * 8 + 18, 1, 0x0⟩
/-- HA_STAT.BME [17:17] RO (15 R456): Copy of Bus Master Enable -/
def F.HA_STAT_BME : Fld := ⟨(0x60000 + 0xc000) * 8 + 17, 1, 0x0⟩
/-- HA_STAT.CFG_READY [16:16] RO (15 R456): 1: configuration requests are served -/
def F.HA_STAT_CFG_READY : Fld := ⟨(0x60000 + 0xc000) * 8 + 16, 1, 0x0⟩
/-- HA_STAT.FLIT [11:10] RO (15 R456): 0 no CXL mode; 1 68-byte; 2 256-byte standard; 3 256-byte latency-optimised -/
def F.HA_STAT_FLIT : Fld := ⟨(0x60000 + 0xc000) * 8 + 10, 2, 0x0⟩
/-- HA_STAT.WIDTH [7:4] RO (15 R456): 0 down; 4 x4; 8 x8; other values not produced by the device -/
def F.HA_STAT_WIDTH : Fld := ⟨(0x60000 + 0xc000) * 8 + 4, 4, 0x0⟩
/-- HA_STAT.SPEED [3:0] RO (15 R456): PCIe rate code: 5 32 GT/s; 6 64 GT/s; 1 to 4 only without a CXL mode -/
def F.HA_STAT_SPEED : Fld := ⟨(0x60000 + 0xc000) * 8 + 0, 4, 0x0⟩
/-- HA_CKPT_SIZE.SIZE [9:0] RO (15 R456): Bound DPA in GiB, a multiple of 4 from 0 to 512; set by CHECKPOINT_MAP -/
def F.HA_CKPT_SIZE_SIZE : Fld := ⟨(0x60000 + 0xc008) * 8 + 0, 10, 0x0⟩
/-- HA_CKPT_BASE.ADDR [47:0] RO (15 R456): Slow-tier module address of UD_m's first window line; a multiple of 2 MiB -/
def F.HA_CKPT_BASE_ADDR (i : Nat) : Fld := ⟨(0x60000 + 0xc010 + i * 0x8) * 8 + 0, 48, 0x0⟩
/-- HA_CNT.COUNT [63:0] RO (15 R456): n = 0 link retrains; 1 flit replays; 2 Retry Status answers; 3 BISnpInv issued; 4 unbound window accesses; 5 p -/
def F.HA_CNT_COUNT (i : Nat) : Fld := ⟨(0x60000 + 0xc100 + i * 0x8) * 8 + 0, 64, 0x0⟩
/-- CMD_STAT.READY [31:31] RO (16 R493): 1: the module is READY -/
def F.CMD_STAT_READY : Fld := ⟨(0x10000 + 0x0) * 8 + 31, 1, 0x0⟩
/-- CMD_STAT.MIR_A [30:30] RO (16 R493): 1: the mirror behind UD_0 is in service (R464); 0 before UD_0's slow tier has trained -/
def F.CMD_STAT_MIR_A : Fld := ⟨(0x10000 + 0x0) * 8 + 30, 1, 0x0⟩
/-- CMD_STAT.MIR_B [29:29] RO (16 R493): 1: the mirror behind UD_2 is in service (R464); 0 before UD_2's slow tier has trained -/
def F.CMD_STAT_MIR_B : Fld := ⟨(0x10000 + 0x0) * 8 + 29, 1, 0x0⟩
/-- CMD_STAT.STEP_VALID [28:28] RS (16 R493): 1: CMD_LAST_STEP holds a step -/
def F.CMD_STAT_STEP_VALID : Fld := ⟨(0x10000 + 0x0) * 8 + 28, 1, 0x0⟩
/-- CMD_STAT.STEP_STATE [3:0] RO (16 R493): 0 no program; 1 idle; 2 running; 3 awaiting commit; 4 committing; 5 replaying; 6 to 15 not produced by the dev -/
def F.CMD_STAT_STEP_STATE : Fld := ⟨(0x10000 + 0x0) * 8 + 0, 4, 0x0⟩
/-- CMD_LAST_STEP.STEP [31:0] RS (16 R493): Last step committed or skipped -/
def F.CMD_LAST_STEP_STEP : Fld := ⟨(0x10000 + 0x4) * 8 + 0, 32, 0x0⟩
/-- CMD_CNT.COUNT [63:0] RO (16 R493): n = 0 entries taken; 1 accepted; 2 DUPLICATE; 3 SEQ_GAP; 4 NOT_READY; 5 RECOVERED; 6 FAULT_FATAL; 7 COMMIT mes -/
def F.CMD_CNT_COUNT (i : Nat) : Fld := ⟨(0x10000 + 0x100 + i * 0x8) * 8 + 0, 64, 0x0⟩
/-- CMD_SQ_BASE.ADDR [63:12] RWS (16 R493): Host address of the ring, in 4 KiB units -/
def F.CMD_SQ_BASE_ADDR (r : Nat) : Fld := ⟨(0x11000 + r * 0x80 + 0x0) * 8 + 12, 52, 0x0⟩
/-- CMD_CQ_BASE.ADDR [63:12] RWS (16 R493): Host address of the ring, in 4 KiB units -/
def F.CMD_CQ_BASE_ADDR (r : Nat) : Fld := ⟨(0x11000 + r * 0x80 + 0x8) * 8 + 12, 52, 0x0⟩
/-- CMD_RING_CFG.ENABLE [31:31] RWS (16 R493): 1: ring enabled (R458) -/
def F.CMD_RING_CFG_ENABLE (r : Nat) : Fld := ⟨(0x11000 + r * 0x80 + 0x10) * 8 + 31, 1, 0x0⟩
/-- CMD_RING_CFG.SIZE [11:0] RWS (16 R493): Entries − 1, 1 to 4,095 -/
def F.CMD_RING_CFG_SIZE (r : Nat) : Fld := ⟨(0x11000 + r * 0x80 + 0x10) * 8 + 0, 12, 0x0⟩
/-- CMD_SQ_TAIL.INDEX [11:0] RWS (16 R493): Ring index -/
def F.CMD_SQ_TAIL_INDEX (r : Nat) : Fld := ⟨(0x11000 + r * 0x80 + 0x14) * 8 + 0, 12, 0x0⟩
/-- CMD_SQ_HEAD.INDEX [11:0] RS (16 R493): Ring index -/
def F.CMD_SQ_HEAD_INDEX (r : Nat) : Fld := ⟨(0x11000 + r * 0x80 + 0x18) * 8 + 0, 12, 0x0⟩
/-- CMD_CQ_TAIL.PHASE [12:12] RS (16 R493): CQ_TAIL: phase of the next completion; reads 0 in the other three -/
def F.CMD_CQ_TAIL_PHASE (r : Nat) : Fld := ⟨(0x11000 + r * 0x80 + 0x1c) * 8 + 12, 1, 0x0⟩
/-- CMD_CQ_TAIL.INDEX [11:0] RS (16 R493): Ring index -/
def F.CMD_CQ_TAIL_INDEX (r : Nat) : Fld := ⟨(0x11000 + r * 0x80 + 0x1c) * 8 + 0, 12, 0x0⟩
/-- CMD_CQ_HEAD.INDEX [11:0] RWS (16 R493): Ring index -/
def F.CMD_CQ_HEAD_INDEX (r : Nat) : Fld := ⟨(0x11000 + r * 0x80 + 0x20) * 8 + 0, 12, 0x0⟩
/-- CMD_SEQ_INIT.SEQ [31:0] RWS (16 R493): First expected SEQ at enable; next expected SEQ -/
def F.CMD_SEQ_INIT_SEQ (r : Nat) : Fld := ⟨(0x11000 + r * 0x80 + 0x24) * 8 + 0, 32, 0x0⟩
/-- CMD_SEQ_NEXT.SEQ [31:0] RS (16 R493): First expected SEQ at enable; next expected SEQ -/
def F.CMD_SEQ_NEXT_SEQ (r : Nat) : Fld := ⟨(0x11000 + r * 0x80 + 0x28) * 8 + 0, 32, 0x0⟩
/-- CMD_RING_STAT.VER_MAJ [31:24] RS (16 R493): Ring version, major -/
def F.CMD_RING_STAT_VER_MAJ (r : Nat) : Fld := ⟨(0x11000 + r * 0x80 + 0x2c) * 8 + 24, 8, 0x0⟩
/-- CMD_RING_STAT.VER_MIN [23:16] RS (16 R493): Ring version, minor -/
def F.CMD_RING_STAT_VER_MIN (r : Nat) : Fld := ⟨(0x11000 + r * 0x80 + 0x2c) * 8 + 16, 8, 0x0⟩
/-- CMD_RING_STAT.INFLIGHT [12:0] RS (16 R493): Accepted commands without terminal status, 0 to 4,095 -/
def F.CMD_RING_STAT_INFLIGHT (r : Nat) : Fld := ⟨(0x11000 + r * 0x80 + 0x2c) * 8 + 0, 13, 0x0⟩
/-- EVC_SRC_CFG.ENABLE [31:31] RW (17 R512): 1: the source may be delivered -/
def F.EVC_SRC_CFG_ENABLE (i : Nat) : Fld := ⟨(0x20000 + 0x0 + i * 0x4) * 8 + 31, 1, 0x0⟩
/-- EVC_SRC_CFG.TKIND [21:20] RW (17 R512): 0 host vector; 1 hub management core; 2 cluster control core; 3 reserved -/
def F.EVC_SRC_CFG_TKIND (i : Nat) : Fld := ⟨(0x20000 + 0x0 + i * 0x4) * 8 + 20, 2, 0x0⟩
/-- EVC_SRC_CFG.TARGET [18:12] RW (17 R512): TKIND 0: vector in [19:12] less bit 19, 0 to 127 in [18:12] with [11] as below; see note -/
def F.EVC_SRC_CFG_TARGET (i : Nat) : Fld := ⟨(0x20000 + 0x0 + i * 0x4) * 8 + 12, 7, 0x0⟩
/-- EVC_SRC_CFG.VEC_HI [11:11] RW (17 R512): TKIND 0: bit 7 of the vector; 0 otherwise -/
def F.EVC_SRC_CFG_VEC_HI (i : Nat) : Fld := ⟨(0x20000 + 0x0 + i * 0x4) * 8 + 11, 1, 0x0⟩
/-- EVC_SRC_CFG.PRIO [7:4] RW (17 R512): Priority 0 to 15; 15 highest -/
def F.EVC_SRC_CFG_PRIO (i : Nat) : Fld := ⟨(0x20000 + 0x0 + i * 0x4) * 8 + 4, 4, 0x0⟩
/-- EVC_SRC_CFG.SENSE [2:0] RW (17 R512): 0 level high; 1 level low; 2 rising edge; 3 falling edge; 4 both edges; 5 to 7 reserved -/
def F.EVC_SRC_CFG_SENSE (i : Nat) : Fld := ⟨(0x20000 + 0x0 + i * 0x4) * 8 + 0, 3, senseReset i⟩
/-- EVC_SRC_STAT.LATCH [3:3] RO (17 R512): 1: an edge was latched during sleep -/
def F.EVC_SRC_STAT_LATCH (i : Nat) : Fld := ⟨(0x20000 + 0x4000 + i * 0x4) * 8 + 3, 1, 0x0⟩
/-- EVC_SRC_STAT.LEVEL [2:2] RO (17 R512): Current input level -/
def F.EVC_SRC_STAT_LEVEL (i : Nat) : Fld := ⟨(0x20000 + 0x4000 + i * 0x4) * 8 + 2, 1, 0x0⟩
/-- EVC_SRC_STAT.STATE [1:0] RO (17 R512): By R497 -/
def F.EVC_SRC_STAT_STATE (i : Nat) : Fld := ⟨(0x20000 + 0x4000 + i * 0x4) * 8 + 0, 2, 0x0⟩
/-- MSIX_ADDR.ADDR [63:2] RW (17 R512): Message address -/
def F.MSIX_ADDR_ADDR (i : Nat) : Fld := ⟨(0x20000 + 0x8000 + i * 0x10) * 8 + 2, 62, 0x0⟩
/-- MSIX_DATA.DATA [31:0] RW (17 R512): Message data -/
def F.MSIX_DATA_DATA (i : Nat) : Fld := ⟨(0x20000 + 0x8008 + i * 0x10) * 8 + 0, 32, 0x0⟩
/-- MSIX_CTL.MASK [0:0] RW (17 R512): 1: vector masked -/
def F.MSIX_CTL_MASK (i : Nat) : Fld := ⟨(0x20000 + 0x800c + i * 0x10) * 8 + 0, 1, 0x1⟩
/-- EVC_PBA.PEND [63:0] RO (17 R512): Bit i: vector 64w + i pending -/
def F.EVC_PBA_PEND (i : Nat) : Fld := ⟨(0x20000 + 0x9000 + i * 0x8) * 8 + 0, 64, 0x0⟩
/-- EVC_EOI.SRC [11:0] RW (17 R512): Trigger: completes source SRC; reads back the last value written -/
def F.EVC_EOI_SRC : Fld := ⟨(0x20000 + 0xa000) * 8 + 0, 12, 0x0⟩
/-- EVC_CSAT.VALID [63:63] RW1C (17 R512): 1: ADDR holds a saturated counter -/
def F.EVC_CSAT_VALID : Fld := ⟨(0x20000 + 0xa010) * 8 + 63, 1, 0x0⟩
/-- EVC_CSAT.MEM [62:62] RO (17 R512): 1: ADDR is a module address; 0: a BAR0 offset -/
def F.EVC_CSAT_MEM : Fld := ⟨(0x20000 + 0xa010) * 8 + 62, 1, 0x0⟩
/-- EVC_CSAT.ADDR [47:0] RO (17 R512): Location of the counter -/
def F.EVC_CSAT_ADDR : Fld := ⟨(0x20000 + 0xa010) * 8 + 0, 48, 0x0⟩
/-- EVC_CNT.COUNT [63:0] RO (17 R512): n = 0 messages sent; 1 completions ignored; 2 counters saturated; 3 firings merged -/
def F.EVC_CNT_COUNT (i : Nat) : Fld := ⟨(0x20000 + 0xa100 + i * 0x8) * 8 + 0, 64, 0x0⟩
/-- EVC_LAST.VALID [31:31] RO (17 R512): 1: a message has been sent on vector v -/
def F.EVC_LAST_VALID (i : Nat) : Fld := ⟨(0x20000 + 0xa800 + i * 0x4) * 8 + 31, 1, 0x0⟩
/-- EVC_LAST.SRC [11:0] RO (17 R512): Source of the last message -/
def F.EVC_LAST_SRC (i : Nat) : Fld := ⟨(0x20000 + 0xa800 + i * 0x4) * 8 + 0, 12, 0x0⟩
/-- ID_HEALTH.DEGRADED [63:63] RS (18 R539): 1: the module is DEGRADED (R519) -/
def F.ID_HEALTH_DEGRADED : Fld := ⟨(0x0 + 0x40) * 8 + 63, 1, 0x0⟩
/-- ID_HEALTH.FATAL [62:62] RS (18 R539): 1: a FATAL fault since the last LOAD_PROGRAM -/
def F.ID_HEALTH_FATAL : Fld := ⟨(0x0 + 0x40) * 8 + 62, 1, 0x0⟩
/-- ID_HEALTH.CORES_RET [61:52] RS (18 R539): Cores retired one by one, 0 to 720; the cores of a retired cluster count in CL_RET only -/
def F.ID_HEALTH_CORES_RET : Fld := ⟨(0x0 + 0x40) * 8 + 52, 10, 0x0⟩
/-- ID_HEALTH.CL_RET [51:45] RS (18 R539): Retired clusters, 0 to 80 -/
def F.ID_HEALTH_CL_RET : Fld := ⟨(0x0 + 0x40) * 8 + 45, 7, 0x0⟩
/-- ID_HEALTH.FP_X4 [44:40] RS (18 R539): Fabric ports at x4 -/
def F.ID_HEALTH_FP_X4 : Fld := ⟨(0x0 + 0x40) * 8 + 40, 5, 0x0⟩
/-- ID_HEALTH.FP_RET [39:35] RS (18 R539): Fabric ports retired -/
def F.ID_HEALTH_FP_RET : Fld := ⟨(0x0 + 0x40) * 8 + 35, 5, 0x0⟩
/-- ID_HEALTH.PC_RET [34:30] RS (18 R539): Stacks with a retired pseudo-channel -/
def F.ID_HEALTH_PC_RET : Fld := ⟨(0x0 + 0x40) * 8 + 30, 5, 0x0⟩
/-- ID_HEALTH.HBM_FAIL [29:25] RS (18 R539): Stacks FAILING -/
def F.ID_HEALTH_HBM_FAIL : Fld := ⟨(0x0 + 0x40) * 8 + 25, 5, 0x0⟩
/-- ID_HEALTH.ST_FAIL [24:20] RS (18 R539): Slow-tier packages FAILING -/
def F.ID_HEALTH_ST_FAIL : Fld := ⟨(0x0 + 0x40) * 8 + 20, 5, 0x0⟩
/-- ID_HEALTH.BL_X8 [19:16] RS (18 R539): Board links at x8 -/
def F.ID_HEALTH_BL_X8 : Fld := ⟨(0x0 + 0x40) * 8 + 16, 4, 0x0⟩
/-- ID_HEALTH.BL_RET [15:12] RS (18 R539): Board links retired -/
def F.ID_HEALTH_BL_RET : Fld := ⟨(0x0 + 0x40) * 8 + 12, 4, 0x0⟩
/-- ID_HEALTH.UCIE_DIS [11:3] RS (18 R539): UCIe modules disabled, 0 to 266 -/
def F.ID_HEALTH_UCIE_DIS : Fld := ⟨(0x0 + 0x40) * 8 + 3, 9, 0x0⟩
/-- ID_HEALTH.MC_OUT [2:1] RS (18 R539): Hub management cores out of service -/
def F.ID_HEALTH_MC_OUT : Fld := ⟨(0x0 + 0x40) * 8 + 1, 2, 0x0⟩
/-- ID_REPLAY.PHASE [31:29] RO (18 R539): By R522; 5 to 7 not produced by the device -/
def F.ID_REPLAY_PHASE : Fld := ⟨(0x0 + 0x48) * 8 + 29, 3, 0x0⟩
/-- ID_REPLAY.SET [28:16] RO (18 R539): Last drain set, saturating at 8,191 -/
def F.ID_REPLAY_SET : Fld := ⟨(0x0 + 0x48) * 8 + 16, 13, 0x0⟩
/-- ID_REPLAY.REPLAY_ID [15:0] RO (18 R539): Current or last REPLAY_ID -/
def F.ID_REPLAY_REPLAY_ID : Fld := ⟨(0x0 + 0x48) * 8 + 0, 16, 0x0⟩
/-- ID_REPLAY_ORIG.VALID [31:31] RO (18 R539): 1: the fields hold the current or last replay -/
def F.ID_REPLAY_ORIG_VALID : Fld := ⟨(0x0 + 0x4c) * 8 + 31, 1, 0x0⟩
/-- ID_REPLAY_ORIG.ORIGIN [25:16] RO (18 R539): Module that first reported the fault -/
def F.ID_REPLAY_ORIG_ORIGIN : Fld := ⟨(0x0 + 0x4c) * 8 + 16, 10, 0x0⟩
/-- ID_REPLAY_ORIG.CAUSE [15:0] RO (18 R539): Unit address of the faulting part, or 0xFFFF -/
def F.ID_REPLAY_ORIG_CAUSE : Fld := ⟨(0x0 + 0x4c) * 8 + 0, 16, 0x0⟩
/-- ID_FLT_NEXT.WRAPPED [4:4] RS (18 R539): 1: the log has overwritten an entry -/
def F.ID_FLT_NEXT_WRAPPED : Fld := ⟨(0x0 + 0x50) * 8 + 4, 1, 0x0⟩
/-- ID_FLT_NEXT.NEXT [3:0] RS (18 R539): Entry the next record writes -/
def F.ID_FLT_NEXT_NEXT : Fld := ⟨(0x0 + 0x50) * 8 + 0, 4, 0x0⟩
/-- ID_FLT_LOG_W0.VALID [31:31] RS (18 R539): 1: the entry holds a record -/
def F.ID_FLT_LOG_W0_VALID (i : Nat) : Fld := ⟨(0x0 + 0x100 + i * 0x10) * 8 + 31, 1, 0x0⟩
/-- ID_FLT_LOG_W0.CLASS [30:28] RS (18 R539): 1 STEP; 2 FATAL; 3 DEGRADE; 4 MARSHAL; 0, 5 to 7 not produced by the device -/
def F.ID_FLT_LOG_W0_CLASS (i : Nat) : Fld := ⟨(0x0 + 0x100 + i * 0x10) * 8 + 28, 3, 0x0⟩
/-- ID_FLT_LOG_W0.CAUSE [23:16] RS (18 R539): By the cause table -/
def F.ID_FLT_LOG_W0_CAUSE (i : Nat) : Fld := ⟨(0x0 + 0x100 + i * 0x10) * 8 + 16, 8, 0x0⟩
/-- ID_FLT_LOG_W0.UNIT [15:0] RS (18 R539): Unit address of the part -/
def F.ID_FLT_LOG_W0_UNIT (i : Nat) : Fld := ⟨(0x0 + 0x100 + i * 0x10) * 8 + 0, 16, 0x0⟩
/-- ID_FLT_LOG_W1.STEP [31:0] RS (18 R539): Step number -/
def F.ID_FLT_LOG_W1_STEP (i : Nat) : Fld := ⟨(0x0 + 0x104 + i * 0x10) * 8 + 0, 32, 0x0⟩
/-- ID_FLT_LOG_W2.TIME [31:0] RS (18 R539): Timebase at the record -/
def F.ID_FLT_LOG_W2_TIME (i : Nat) : Fld := ⟨(0x0 + 0x108 + i * 0x10) * 8 + 0, 32, 0x0⟩
/-- ID_FLT_LOG_W3.TIME [31:0] RS (18 R539): Timebase at the record -/
def F.ID_FLT_LOG_W3_TIME (i : Nat) : Fld := ⟨(0x0 + 0x10c + i * 0x10) * 8 + 0, 32, 0x0⟩
/-- ID_FLT_CNT.COUNT [63:0] RO (18 R540): n = 0 replays started; 1 restarts; 2 REPLAY messages discarded; 3 drain sets run; 4 messages held; 5 messages  -/
def F.ID_FLT_CNT_COUNT (i : Nat) : Fld := ⟨(0x0 + 0x200 + i * 0x8) * 8 + 0, 64, 0x0⟩
/-- SEC_BOOT.STAGE [31:28] RO (19 R564): 0 ROM; 1 VERIFY; 2 TRAIN; 3 READY; 4 RECOVERY; 5 HALT; 6 to 15 not produced by the device -/
def F.SEC_BOOT_STAGE : Fld := ⟨(0x50000 + 0x0) * 8 + 28, 4, 0x0⟩
/-- SEC_BOOT.CAUSE [23:16] RO (19 R564): 0x00 none; 0x01 to 0x09 by R543 and R549; 0x0A FW_RECOVER image refused -/
def F.SEC_BOOT_CAUSE : Fld := ⟨(0x50000 + 0x0) * 8 + 16, 8, 0x0⟩
/-- SEC_BOOT.READY_MS [15:4] RO (19 R564): Milliseconds from step 1, or from the warm reset, to READY -/
def F.SEC_BOOT_READY_MS : Fld := ⟨(0x50000 + 0x0) * 8 + 4, 12, 0x0⟩
/-- SEC_BOOT.WARM [0:0] RO (19 R564): 1: the last start was a warm reset -/
def F.SEC_BOOT_WARM : Fld := ⟨(0x50000 + 0x0) * 8 + 0, 1, 0x0⟩
/-- SEC_FW.UNITS [15:8] RO (19 R564): Units handed over in the current or last handover, 0 to 109 -/
def F.SEC_FW_UNITS : Fld := ⟨(0x50000 + 0x4) * 8 + 8, 8, 0x0⟩
/-- SEC_FW.STATE [2:0] RO (19 R564): 0 NONE; 1 STAGING; 2 STAGED; 3 ACTIVATING; 4 FLASHING; 5 to 7 not produced by the device -/
def F.SEC_FW_STATE : Fld := ⟨(0x50000 + 0x4) * 8 + 0, 3, 0x0⟩
/-- SEC_FW_STAGED.MAJOR [31:24] RO (19 R564): Staged image major version -/
def F.SEC_FW_STAGED_MAJOR : Fld := ⟨(0x50000 + 0x8) * 8 + 24, 8, 0x0⟩
/-- SEC_FW_STAGED.MINOR [23:16] RO (19 R564): Staged image minor version -/
def F.SEC_FW_STAGED_MINOR : Fld := ⟨(0x50000 + 0x8) * 8 + 16, 8, 0x0⟩
/-- SEC_FW_STAGED.BUILD [15:0] RO (19 R564): Staged image build; all fields 0 when nothing is staged -/
def F.SEC_FW_STAGED_BUILD : Fld := ⟨(0x50000 + 0x8) * 8 + 0, 16, 0x0⟩
/-- SEC_SVN.RUNNING [15:8] RO (19 R564): SVN of the running image -/
def F.SEC_SVN_RUNNING : Fld := ⟨(0x50000 + 0xc) * 8 + 8, 8, 0x0⟩
/-- SEC_SVN.FUSED [7:0] RO (19 R564): Fused SVN -/
def F.SEC_SVN_FUSED : Fld := ⟨(0x50000 + 0xc) * 8 + 0, 8, 0x0⟩
/-- SEC_CNT.COUNT [63:0] RO (19 R564): n = 0 signatures made; 1 image verifications; 2 images refused; 3 handovers completed -/
def F.SEC_CNT_COUNT (i : Nat) : Fld := ⟨(0x50000 + 0x100 + i * 0x8) * 8 + 0, 64, 0x0⟩
/-- PWR_STAT.DUTY_MIN [7:4] RO (20 R584): Lowest duty of any compute die, in eighths -/
def F.PWR_STAT_DUTY_MIN : Fld := ⟨(0x40000 + 0x0) * 8 + 4, 4, 0x8⟩
/-- PWR_STAT.ALERT [3:3] RO (20 R584): 1: ALERT_N is low -/
def F.PWR_STAT_ALERT : Fld := ⟨(0x40000 + 0x0) * 8 + 3, 1, 0x0⟩
/-- PWR_STAT.THERM [2:2] RO (20 R584): 1: a compute die is throttling (R575) -/
def F.PWR_STAT_THERM : Fld := ⟨(0x40000 + 0x0) * 8 + 2, 1, 0x0⟩
/-- PWR_STAT.LIMIT [1:1] RO (20 R584): 1: the power limit holds the duty below 8/8 -/
def F.PWR_STAT_LIMIT : Fld := ⟨(0x40000 + 0x0) * 8 + 1, 1, 0x0⟩
/-- PWR_STAT.BRAKE [0:0] RO (20 R584): 1: PWR_BRAKE_N is low -/
def F.PWR_STAT_BRAKE : Fld := ⟨(0x40000 + 0x0) * 8 + 0, 1, 0x0⟩
/-- PWR_IN.POWER [63:48] RO (20 R584): Input power, W, mean of the last 10 µs -/
def F.PWR_IN_POWER : Fld := ⟨(0x40000 + 0x8) * 8 + 48, 16, 0x0⟩
/-- PWR_IN.CURRENT [47:32] RO (20 R584): Input current, 10 mA units -/
def F.PWR_IN_CURRENT : Fld := ⟨(0x40000 + 0x8) * 8 + 32, 16, 0x0⟩
/-- PWR_IN.VOLTAGE [31:16] RO (20 R584): Input voltage, 10 mV units -/
def F.PWR_IN_VOLTAGE : Fld := ⟨(0x40000 + 0x8) * 8 + 16, 16, 0x0⟩
/-- PWR_LIMIT.LIMIT [12:0] RWS (20 R584): Power limit in W, 1,200 to 4,800; a write outside that range is discarded and recorded in ID_RSVD_WR under R8 -/
def F.PWR_LIMIT_LIMIT : Fld := ⟨(0x40000 + 0x10) * 8 + 0, 13, 0x12c0⟩
/-- PWR_ALERT.LIMIT [4:4] RW1C (20 R584): The power limit lowered the duty (R570) -/
def F.PWR_ALERT_LIMIT : Fld := ⟨(0x40000 + 0x18) * 8 + 4, 1, 0x0⟩
/-- PWR_ALERT.INLET [3:3] RW1C (20 R584): Coolant inlet above 40 °C -/
def F.PWR_ALERT_INLET : Fld := ⟨(0x40000 + 0x18) * 8 + 3, 1, 0x0⟩
/-- PWR_ALERT.TJ [2:2] RW1C (20 R584): A junction at or above 100 °C -/
def F.PWR_ALERT_TJ : Fld := ⟨(0x40000 + 0x18) * 8 + 2, 1, 0x0⟩
/-- PWR_ALERT.OV [1:1] RW1C (20 R584): Input above 70 V -/
def F.PWR_ALERT_OV : Fld := ⟨(0x40000 + 0x18) * 8 + 1, 1, 0x0⟩
/-- PWR_ALERT.UV [0:0] RW1C (20 R584): Input below 58 V -/
def F.PWR_ALERT_UV : Fld := ⟨(0x40000 + 0x18) * 8 + 0, 1, 0x0⟩
/-- PWR_ALERT_EN.LIMIT [4:4] RW (20 R584): The power limit lowered the duty (R570) -/
def F.PWR_ALERT_EN_LIMIT : Fld := ⟨(0x40000 + 0x1c) * 8 + 4, 1, 0x1⟩
/-- PWR_ALERT_EN.INLET [3:3] RW (20 R584): Coolant inlet above 40 °C -/
def F.PWR_ALERT_EN_INLET : Fld := ⟨(0x40000 + 0x1c) * 8 + 3, 1, 0x1⟩
/-- PWR_ALERT_EN.TJ [2:2] RW (20 R584): A junction at or above 100 °C -/
def F.PWR_ALERT_EN_TJ : Fld := ⟨(0x40000 + 0x1c) * 8 + 2, 1, 0x1⟩
/-- PWR_ALERT_EN.OV [1:1] RW (20 R584): Input above 70 V -/
def F.PWR_ALERT_EN_OV : Fld := ⟨(0x40000 + 0x1c) * 8 + 1, 1, 0x1⟩
/-- PWR_ALERT_EN.UV [0:0] RW (20 R584): Input below 58 V -/
def F.PWR_ALERT_EN_UV : Fld := ⟨(0x40000 + 0x1c) * 8 + 0, 1, 0x1⟩
/-- PWR_TEMP.DUTY [19:16] RO (20 R584): Duty of CD_n, in eighths -/
def F.PWR_TEMP_DUTY (i : Nat) : Fld := ⟨(0x40000 + 0x100 + i * 0x4) * 8 + 16, 4, dutyReset i⟩
/-- PWR_TEMP.TEMP [15:0] RO (20 R584): Temperature in 1/8 °C, two's complement -/
def F.PWR_TEMP_TEMP (i : Nat) : Fld := ⟨(0x40000 + 0x100 + i * 0x4) * 8 + 0, 16, 0x0⟩
/-- PWR_CL_STATE.DIE [31:30] RO (20 R584): CD_n: 0 RUN; 1 PARKED; 2 and 3 not produced by the device -/
def F.PWR_CL_STATE_DIE (i : Nat) : Fld := ⟨(0x40000 + 0x200 + i * 0x4) * 8 + 30, 2, 0x0⟩
/-- PWR_CL_STATE.CL0 [1:0] RO (20 R584): CL_k: 0 RUN; 1 CLOCK_GATED; 2 SLEEP; 3 not produced by the device -/
def F.PWR_CL_STATE_CL0 (i : Nat) : Fld := ⟨(0x40000 + 0x200 + i * 0x4) * 8 + 0, 2, 0x0⟩
/-- PWR_CL_STATE.CL1 [3:2] RO (20 R584): CL_k: 0 RUN; 1 CLOCK_GATED; 2 SLEEP; 3 not produced by the device -/
def F.PWR_CL_STATE_CL1 (i : Nat) : Fld := ⟨(0x40000 + 0x200 + i * 0x4) * 8 + 2, 2, 0x0⟩
/-- PWR_CL_STATE.CL2 [5:4] RO (20 R584): CL_k: 0 RUN; 1 CLOCK_GATED; 2 SLEEP; 3 not produced by the device -/
def F.PWR_CL_STATE_CL2 (i : Nat) : Fld := ⟨(0x40000 + 0x200 + i * 0x4) * 8 + 4, 2, 0x0⟩
/-- PWR_CL_STATE.CL3 [7:6] RO (20 R584): CL_k: 0 RUN; 1 CLOCK_GATED; 2 SLEEP; 3 not produced by the device -/
def F.PWR_CL_STATE_CL3 (i : Nat) : Fld := ⟨(0x40000 + 0x200 + i * 0x4) * 8 + 6, 2, 0x0⟩
/-- PWR_CL_STATE.CL4 [9:8] RO (20 R584): CL_k: 0 RUN; 1 CLOCK_GATED; 2 SLEEP; 3 not produced by the device -/
def F.PWR_CL_STATE_CL4 (i : Nat) : Fld := ⟨(0x40000 + 0x200 + i * 0x4) * 8 + 8, 2, 0x0⟩
/-- PWR_CL_STATE.CL5 [11:10] RO (20 R584): CL_k: 0 RUN; 1 CLOCK_GATED; 2 SLEEP; 3 not produced by the device -/
def F.PWR_CL_STATE_CL5 (i : Nat) : Fld := ⟨(0x40000 + 0x200 + i * 0x4) * 8 + 10, 2, 0x0⟩
/-- PWR_CL_STATE.CL6 [13:12] RO (20 R584): CL_k: 0 RUN; 1 CLOCK_GATED; 2 SLEEP; 3 not produced by the device -/
def F.PWR_CL_STATE_CL6 (i : Nat) : Fld := ⟨(0x40000 + 0x200 + i * 0x4) * 8 + 12, 2, 0x0⟩
/-- PWR_CL_STATE.CL7 [15:14] RO (20 R584): CL_k: 0 RUN; 1 CLOCK_GATED; 2 SLEEP; 3 not produced by the device -/
def F.PWR_CL_STATE_CL7 (i : Nat) : Fld := ⟨(0x40000 + 0x200 + i * 0x4) * 8 + 14, 2, 0x0⟩
/-- PWR_CL_STATE.CL8 [17:16] RO (20 R584): CL_k: 0 RUN; 1 CLOCK_GATED; 2 SLEEP; 3 not produced by the device -/
def F.PWR_CL_STATE_CL8 (i : Nat) : Fld := ⟨(0x40000 + 0x200 + i * 0x4) * 8 + 16, 2, 0x0⟩
/-- PWR_CL_STATE.CL9 [19:18] RO (20 R584): CL_k: 0 RUN; 1 CLOCK_GATED; 2 SLEEP; 3 not produced by the device -/
def F.PWR_CL_STATE_CL9 (i : Nat) : Fld := ⟨(0x40000 + 0x200 + i * 0x4) * 8 + 18, 2, 0x0⟩
/-- PWR_UD_STATE.PARKED [3:0] RO (20 R584): Bit m: UD_m is PARKED -/
def F.PWR_UD_STATE_PARKED : Fld := ⟨(0x40000 + 0x220) * 8 + 0, 4, 0x0⟩
/-- PWR_CNT.COUNT [63:0] RO (20 R584): n = 0 brake assertions; 1 ns braked; 2 thermal duty lowerings; 3 power-limit duty lowerings; 4 thermal shutdow -/
def F.PWR_CNT_COUNT (i : Nat) : Fld := ⟨(0x40000 + 0x300 + i * 0x8) * 8 + 0, 64, 0x0⟩
/-- HD_STALE.COUNT [63:0] RO (04 R133): Stale member arrivals discarded -/
def F.HD_STALE_COUNT (d : Nat) : Fld := ⟨(0x1000000 + d * 0x200000 + 0x151000) * 8 + 0, 64, 0x0⟩
/-- TB_NOW.TIME [63:0] RO (17 R513): timebase -/
def F.TB_NOW_TIME : Fld := ⟨(0x30000 + 0x0) * 8 + 0, 64, 0x0⟩
/-- TB_ADJ.OFFSET [63:0] RW (17 R513): signed remaining offset -/
def F.TB_ADJ_OFFSET : Fld := ⟨(0x30000 + 0x8) * 8 + 0, 64, 0x0⟩
/-- TB_SYNC_CFG.EN [31:31] RW (17 R513). -/
def F.TB_SYNC_CFG_EN : Fld := ⟨(0x30000 + 0x10) * 8 + 31, 1, 0x0⟩
/-- TB_SYNC_CFG.HURDLE [7:0] RW (17 R513). -/
def F.TB_SYNC_CFG_HURDLE : Fld := ⟨(0x30000 + 0x10) * 8 + 0, 8, 0x0⟩
/-- TB_SYNC.TIME [63:0] RO (17 R513). -/
def F.TB_SYNC_TIME : Fld := ⟨(0x30000 + 0x18) * 8 + 0, 64, 0x0⟩
/-- TB_SYNC_EPOCH.EPOCH [15:0] RO (17 R513). -/
def F.TB_SYNC_EPOCH_EPOCH : Fld := ⟨(0x30000 + 0x20) * 8 + 0, 16, 0x0⟩
/-- TB_SPLIT_CFG.EN [31:31] RW (17 R513). -/
def F.TB_SPLIT_CFG_EN (i : Nat) : Fld := ⟨(0x30000 + 0x100 + i * 0x4) * 8 + 31, 1, 0x0⟩
/-- TB_SPLIT_CFG.SRC [11:0] RW (17 R513). -/
def F.TB_SPLIT_CFG_SRC (i : Nat) : Fld := ⟨(0x30000 + 0x100 + i * 0x4) * 8 + 0, 12, 0x0⟩
/-- TB_SPLIT.TIME [63:0] RO (17 R513). -/
def F.TB_SPLIT_TIME (i : Nat) : Fld := ⟨(0x30000 + 0x200 + i * 0x8) * 8 + 0, 64, 0x0⟩
/-- HC_HDR.ENTRIES [31:24] RO (15 R447): capability structures that follow; layout PRESUMED, log 125 -/
def F.HC_HDR_ENTRIES : Fld := ⟨(0x60000 + 0x1000) * 8 + 24, 8, 0x4⟩
/-- HC_HDR.CM [23:20] RO (15 R447): CXL.cachemem version; layout PRESUMED, log 125 -/
def F.HC_HDR_CM : Fld := ⟨(0x60000 + 0x1000) * 8 + 20, 4, 0x1⟩
/-- HC_HDR.VER [19:16] RO (15 R447): version; layout PRESUMED, log 125 -/
def F.HC_HDR_VER : Fld := ⟨(0x60000 + 0x1000) * 8 + 16, 4, 0x1⟩
/-- HC_HDR.ID [15:0] RO (15 R447): CXL capability header; layout PRESUMED, log 125 -/
def F.HC_HDR_ID : Fld := ⟨(0x60000 + 0x1000) * 8 + 0, 16, 0x1⟩
/-- HC_CAP_RAS.PTR [31:20] RO (15 R447): offset of the structure; layout PRESUMED, log 125 -/
def F.HC_CAP_RAS_PTR : Fld := ⟨(0x60000 + 0x1004) * 8 + 20, 12, 0x100⟩
/-- HC_CAP_RAS.VER [19:16] RO (15 R447): version; layout PRESUMED, log 125 -/
def F.HC_CAP_RAS_VER : Fld := ⟨(0x60000 + 0x1004) * 8 + 16, 4, 0x1⟩
/-- HC_CAP_RAS.ID [15:0] RO (15 R447): capability identifier; layout PRESUMED, log 125 -/
def F.HC_CAP_RAS_ID : Fld := ⟨(0x60000 + 0x1004) * 8 + 0, 16, 0x2⟩
/-- HC_CAP_LINK.PTR [31:20] RO (15 R447): offset of the structure; layout PRESUMED, log 125 -/
def F.HC_CAP_LINK_PTR : Fld := ⟨(0x60000 + 0x1008) * 8 + 20, 12, 0x180⟩
/-- HC_CAP_LINK.VER [19:16] RO (15 R447): version; layout PRESUMED, log 125 -/
def F.HC_CAP_LINK_VER : Fld := ⟨(0x60000 + 0x1008) * 8 + 16, 4, 0x1⟩
/-- HC_CAP_LINK.ID [15:0] RO (15 R447): capability identifier; layout PRESUMED, log 125 -/
def F.HC_CAP_LINK_ID : Fld := ⟨(0x60000 + 0x1008) * 8 + 0, 16, 0x4⟩
/-- HC_CAP_HDM.PTR [31:20] RO (15 R447): offset of the structure; layout PRESUMED, log 125 -/
def F.HC_CAP_HDM_PTR : Fld := ⟨(0x60000 + 0x100c) * 8 + 20, 12, 0x200⟩
/-- HC_CAP_HDM.VER [19:16] RO (15 R447): version; layout PRESUMED, log 125 -/
def F.HC_CAP_HDM_VER : Fld := ⟨(0x60000 + 0x100c) * 8 + 16, 4, 0x1⟩
/-- HC_CAP_HDM.ID [15:0] RO (15 R447): capability identifier; layout PRESUMED, log 125 -/
def F.HC_CAP_HDM_ID : Fld := ⟨(0x60000 + 0x100c) * 8 + 0, 16, 0x5⟩
/-- HC_CAP_IDE.PTR [31:20] RO (15 R447): offset of the structure; layout PRESUMED, log 125 -/
def F.HC_CAP_IDE_PTR : Fld := ⟨(0x60000 + 0x1010) * 8 + 20, 12, 0x280⟩
/-- HC_CAP_IDE.VER [19:16] RO (15 R447): version; layout PRESUMED, log 125 -/
def F.HC_CAP_IDE_VER : Fld := ⟨(0x60000 + 0x1010) * 8 + 16, 4, 0x1⟩
/-- HC_CAP_IDE.ID [15:0] RO (15 R447): capability identifier; layout PRESUMED, log 125 -/
def F.HC_CAP_IDE_ID : Fld := ⟨(0x60000 + 0x1010) * 8 + 0, 16, 0x7⟩
/-- HC_RAS_UES.BITS [16:0] RW1C (15 R447): uncorrectable error status; layout PRESUMED, log 125 -/
def F.HC_RAS_UES_BITS : Fld := ⟨(0x60000 + 0x1100) * 8 + 0, 17, 0x0⟩
/-- HC_RAS_UEM.BITS [16:0] RWS (15 R447): uncorrectable error mask; layout PRESUMED, log 125 -/
def F.HC_RAS_UEM_BITS : Fld := ⟨(0x60000 + 0x1104) * 8 + 0, 17, 0x1cfff⟩
/-- HC_RAS_UEV.BITS [16:0] RWS (15 R447): uncorrectable error severity; layout PRESUMED, log 125 -/
def F.HC_RAS_UEV_BITS : Fld := ⟨(0x60000 + 0x1108) * 8 + 0, 17, 0x1cfff⟩
/-- HC_RAS_CES.BITS [6:0] RW1C (15 R447): correctable error status; layout PRESUMED, log 125 -/
def F.HC_RAS_CES_BITS : Fld := ⟨(0x60000 + 0x110c) * 8 + 0, 7, 0x0⟩
/-- HC_RAS_CEM.BITS [6:0] RWS (15 R447): correctable error mask; layout PRESUMED, log 125 -/
def F.HC_RAS_CEM_BITS : Fld := ⟨(0x60000 + 0x1110) * 8 + 0, 7, 0x7f⟩
/-- HC_RAS_CTL.FIRST [5:0] RO (15 R447): first error pointer; layout PRESUMED, log 125 -/
def F.HC_RAS_CTL_FIRST : Fld := ⟨(0x60000 + 0x1114) * 8 + 0, 6, 0x0⟩
/-- HC_RAS_LOG.WORD [31:0] RO (15 R447): header log; layout PRESUMED, log 125 -/
def F.HC_RAS_LOG_WORD (i : Nat) : Fld := ⟨(0x60000 + 0x1118 + i * 0x4) * 8 + 0, 32, 0x0⟩
/-- HC_LINK_CAP.VER [3:0] RO (15 R447): link version supported; layout PRESUMED, log 125 -/
def F.HC_LINK_CAP_VER : Fld := ⟨(0x60000 + 0x1180) * 8 + 0, 4, 0x1⟩
/-- HC_LINK_STAT.INIT [3:0] RO (15 R447): link initialisation state; layout PRESUMED, log 125 -/
def F.HC_LINK_STAT_INIT : Fld := ⟨(0x60000 + 0x1188) * 8 + 0, 4, 0x0⟩
/-- HC_HDM_CAP.POISON [10:10] RO (15 R447): poison on decode error; layout PRESUMED, log 125 -/
def F.HC_HDM_CAP_POISON : Fld := ⟨(0x60000 + 0x1200) * 8 + 10, 1, 0x1⟩
/-- HC_HDM_CAP.TARGETS [7:4] RO (15 R447): target ports; layout PRESUMED, log 125 -/
def F.HC_HDM_CAP_TARGETS : Fld := ⟨(0x60000 + 0x1200) * 8 + 4, 4, 0x0⟩
/-- HC_HDM_CAP.DECODERS [3:0] RO (15 R447): one decoder; layout PRESUMED, log 125 -/
def F.HC_HDM_CAP_DECODERS : Fld := ⟨(0x60000 + 0x1200) * 8 + 0, 4, 0x0⟩
/-- HC_HDM_CTL.EN [1:1] RW (15 R447): decoder enable; layout PRESUMED, log 125 -/
def F.HC_HDM_CTL_EN : Fld := ⟨(0x60000 + 0x1204) * 8 + 1, 1, 0x0⟩
/-- HC_HDM_CTL.POISON [0:0] RW (15 R447): poison on decode error enable; layout PRESUMED, log 125 -/
def F.HC_HDM_CTL_POISON : Fld := ⟨(0x60000 + 0x1204) * 8 + 0, 1, 0x0⟩
/-- HC_HDM_BASE_LO.ADDR [31:28] RW (15 R447): host base address [31:28] of decoder 0; layout PRESUMED, log 125 -/
def F.HC_HDM_BASE_LO_ADDR : Fld := ⟨(0x60000 + 0x1210) * 8 + 28, 4, 0x0⟩
/-- HC_HDM_BASE_HI.ADDR [31:0] RW (15 R447): host base address [63:32] of decoder 0; layout PRESUMED, log 125 -/
def F.HC_HDM_BASE_HI_ADDR : Fld := ⟨(0x60000 + 0x1214) * 8 + 0, 32, 0x0⟩
/-- HC_HDM_SIZE_LO.SIZE [31:28] RW (15 R447): size [31:28] of decoder 0; layout PRESUMED, log 125 -/
def F.HC_HDM_SIZE_LO_SIZE : Fld := ⟨(0x60000 + 0x1218) * 8 + 28, 4, 0x0⟩
/-- HC_HDM_SIZE_HI.SIZE [31:0] RW (15 R447): size [63:32] of decoder 0; layout PRESUMED, log 125 -/
def F.HC_HDM_SIZE_HI_SIZE : Fld := ⟨(0x60000 + 0x121c) * 8 + 0, 32, 0x0⟩
/-- HC_HDM_DEC.BI [13:13] RW (15 R447): back-invalidate; layout PRESUMED, log 125 -/
def F.HC_HDM_DEC_BI : Fld := ⟨(0x60000 + 0x1220) * 8 + 13, 1, 0x0⟩
/-- HC_HDM_DEC.TYPE [12:12] RW (15 R447): target type; layout PRESUMED, log 125 -/
def F.HC_HDM_DEC_TYPE : Fld := ⟨(0x60000 + 0x1220) * 8 + 12, 1, 0x0⟩
/-- HC_HDM_DEC.ERR [11:11] RO (15 R447): error: not committed; layout PRESUMED, log 125 -/
def F.HC_HDM_DEC_ERR : Fld := ⟨(0x60000 + 0x1220) * 8 + 11, 1, 0x0⟩
/-- HC_HDM_DEC.COMMITTED [10:10] RO (15 R447): decoder 0 is committed; layout PRESUMED, log 125 -/
def F.HC_HDM_DEC_COMMITTED : Fld := ⟨(0x60000 + 0x1220) * 8 + 10, 1, 0x0⟩
/-- HC_HDM_DEC.COMMIT [9:9] RW (15 R447): commit; layout PRESUMED, log 125 -/
def F.HC_HDM_DEC_COMMIT : Fld := ⟨(0x60000 + 0x1220) * 8 + 9, 1, 0x0⟩
/-- HC_HDM_DEC.LOCK [8:8] RW (15 R447): lock on commit; layout PRESUMED, log 125 -/
def F.HC_HDM_DEC_LOCK : Fld := ⟨(0x60000 + 0x1220) * 8 + 8, 1, 0x0⟩
/-- HC_HDM_DEC.IW [7:4] RW (15 R447): interleave ways; layout PRESUMED, log 125 -/
def F.HC_HDM_DEC_IW : Fld := ⟨(0x60000 + 0x1220) * 8 + 4, 4, 0x0⟩
/-- HC_HDM_DEC.IG [3:0] RW (15 R447): interleave granularity; layout PRESUMED, log 125 -/
def F.HC_HDM_DEC_IG : Fld := ⟨(0x60000 + 0x1220) * 8 + 0, 4, 0x0⟩
/-- HC_HDM_SKIP.DPA [63:28] RW (15 R447): DPA skip of decoder 0; layout PRESUMED, log 125 -/
def F.HC_HDM_SKIP_DPA : Fld := ⟨(0x60000 + 0x1224) * 8 + 28, 36, 0x0⟩
/-- HC_IDE_CAP.CONTAIN [16:16] RO (15 R447): containment mode; layout PRESUMED, log 125 -/
def F.HC_IDE_CAP_CONTAIN : Fld := ⟨(0x60000 + 0x1280) * 8 + 16, 1, 0x1⟩
/-- HC_IDE_CAP.IDE [0:0] RO (15 R447): CXL IDE; layout PRESUMED, log 125 -/
def F.HC_IDE_CAP_IDE : Fld := ⟨(0x60000 + 0x1280) * 8 + 0, 1, 0x1⟩
/-- HC_IDE_CTL.PCRC_OFF [0:0] RW (15 R447): PCRC disable; layout PRESUMED, log 125 -/
def F.HC_IDE_CTL_PCRC_OFF : Fld := ⟨(0x60000 + 0x1284) * 8 + 0, 1, 0x0⟩
/-- HC_IDE_STAT.TX [7:4] RO (15 R447): transmit state: 0 inactive, 1 active, 2 insecure; layout PRESUMED, log 125 -/
def F.HC_IDE_STAT_TX : Fld := ⟨(0x60000 + 0x1288) * 8 + 4, 4, 0x0⟩
/-- HC_IDE_STAT.RX [3:0] RO (15 R447): receive state: 0 inactive, 1 active, 2 insecure; layout PRESUMED, log 125 -/
def F.HC_IDE_STAT_RX : Fld := ⟨(0x60000 + 0x1288) * 8 + 0, 4, 0x0⟩
/-- HC_IDE_ERR.TX [7:4] RW1C (15 R447): transmit error status; layout PRESUMED, log 125 -/
def F.HC_IDE_ERR_TX : Fld := ⟨(0x60000 + 0x128c) * 8 + 4, 4, 0x0⟩
/-- HC_IDE_ERR.RX [3:0] RW1C (15 R447): receive error status; layout PRESUMED, log 125 -/
def F.HC_IDE_ERR_RX : Fld := ⟨(0x60000 + 0x128c) * 8 + 0, 4, 0x0⟩
/-- HV_ARRAY.COUNT [47:32] RO (15 R447): capabilities; layout PRESUMED, log 125 -/
def F.HV_ARRAY_COUNT : Fld := ⟨(0x60000 + 0x8000) * 8 + 32, 16, 0x2⟩
/-- HV_ARRAY.TYPE [27:24] RO (15 R447): device type; layout PRESUMED, log 125 -/
def F.HV_ARRAY_TYPE : Fld := ⟨(0x60000 + 0x8000) * 8 + 24, 4, 0x0⟩
/-- HV_ARRAY.VER [23:16] RO (15 R447): version; layout PRESUMED, log 125 -/
def F.HV_ARRAY_VER : Fld := ⟨(0x60000 + 0x8000) * 8 + 16, 8, 0x1⟩
/-- HV_ARRAY.ID [15:0] RO (15 R447): device capabilities array; layout PRESUMED, log 125 -/
def F.HV_ARRAY_ID : Fld := ⟨(0x60000 + 0x8000) * 8 + 0, 16, 0x0⟩
/-- HV_STAT_HDR.OFFSET [63:32] RO (15 R447): offset of the device status registers; layout PRESUMED, log 125 -/
def F.HV_STAT_HDR_OFFSET : Fld := ⟨(0x60000 + 0x8010) * 8 + 32, 32, 0x100⟩
/-- HV_STAT_HDR.VER [23:16] RO (15 R447): version; layout PRESUMED, log 125 -/
def F.HV_STAT_HDR_VER : Fld := ⟨(0x60000 + 0x8010) * 8 + 16, 8, 0x1⟩
/-- HV_STAT_HDR.ID [15:0] RO (15 R447): device status registers; layout PRESUMED, log 125 -/
def F.HV_STAT_HDR_ID : Fld := ⟨(0x60000 + 0x8010) * 8 + 0, 16, 0x1⟩
/-- HV_STAT_LEN.LEN [31:0] RO (15 R447): length; layout PRESUMED, log 125 -/
def F.HV_STAT_LEN_LEN : Fld := ⟨(0x60000 + 0x8018) * 8 + 0, 32, 0x8⟩
/-- HV_MBOX_HDR.OFFSET [63:32] RO (15 R447): offset of the primary mailbox; layout PRESUMED, log 125 -/
def F.HV_MBOX_HDR_OFFSET : Fld := ⟨(0x60000 + 0x8020) * 8 + 32, 32, 0x200⟩
/-- HV_MBOX_HDR.VER [23:16] RO (15 R447): version; layout PRESUMED, log 125 -/
def F.HV_MBOX_HDR_VER : Fld := ⟨(0x60000 + 0x8020) * 8 + 16, 8, 0x1⟩
/-- HV_MBOX_HDR.ID [15:0] RO (15 R447): primary mailbox registers; layout PRESUMED, log 125 -/
def F.HV_MBOX_HDR_ID : Fld := ⟨(0x60000 + 0x8020) * 8 + 0, 16, 0x2⟩
/-- HV_MBOX_LEN.LEN [31:0] RO (15 R447): length; layout PRESUMED, log 125 -/
def F.HV_MBOX_LEN_LEN : Fld := ⟨(0x60000 + 0x8028) * 8 + 0, 32, 0x20⟩
/-- HV_STATUS.EVENT [7:0] RO (15 R447): event status; layout PRESUMED, log 125 -/
def F.HV_STATUS_EVENT : Fld := ⟨(0x60000 + 0x8100) * 8 + 0, 8, 0x0⟩
/-- HV_MBOX_CAP.PAYLOAD [4:0] RO (15 R447): payload size: 2^16 bytes; layout PRESUMED, log 125 -/
def F.HV_MBOX_CAP_PAYLOAD : Fld := ⟨(0x60000 + 0x8200) * 8 + 0, 5, 0x10⟩
/-- HV_MBOX_CTL.DOORBELL [0:0] RO (15 R447): a command is under way; layout PRESUMED, log 125 -/
def F.HV_MBOX_CTL_DOORBELL : Fld := ⟨(0x60000 + 0x8204) * 8 + 0, 1, 0x0⟩
/-- HV_MBOX_CMD.LEN [36:16] RW (15 R447): payload length; layout PRESUMED, log 125 -/
def F.HV_MBOX_CMD_LEN : Fld := ⟨(0x60000 + 0x8208) * 8 + 16, 21, 0x0⟩
/-- HV_MBOX_CMD.OPCODE [15:0] RW (15 R447): command opcode; layout PRESUMED, log 125 -/
def F.HV_MBOX_CMD_OPCODE : Fld := ⟨(0x60000 + 0x8208) * 8 + 0, 16, 0x0⟩
/-- HV_MBOX_STAT.RETURN [47:32] RO (15 R447): return code; layout PRESUMED, log 125 -/
def F.HV_MBOX_STAT_RETURN : Fld := ⟨(0x60000 + 0x8210) * 8 + 32, 16, 0x0⟩
/-- HV_MBOX_STAT.BG [0:0] RO (15 R447): background operation; layout PRESUMED, log 125 -/
def F.HV_MBOX_STAT_BG : Fld := ⟨(0x60000 + 0x8210) * 8 + 0, 1, 0x0⟩
/-- HV_MBOX_BG.WORD [63:0] RO (15 R447): background command status; layout PRESUMED, log 125 -/
def F.HV_MBOX_BG_WORD : Fld := ⟨(0x60000 + 0x8218) * 8 + 0, 64, 0x0⟩

/-- The registers of the map, by name; an array's elements and a block's copies share the name. -/
inductive Reg where
  | CL_REMAP | CL_CORE_STAT | ID_PART | ID_STEPPING | ID_CAPS | ID_CORES
  | ID_MODULE | ID_FW_VER | ID_PROTO | ID_RSVD_WR_CNT | ID_RSVD_WR | CO_FMT_CTL
  | CO_FMT_FLAGS | CO_OVF_CNT | CO_SEQ_STAT | CO_SEQ_QUEUE | CO_FAULT | CO_STALL_LIMIT
  | CO_SPLIT_NEXT | CO_BT | CO_PA | CO_LAP | CO_AB_CUR | CO_AB_BASE
  | CO_SPLIT_TIME | CO_SPLIT_TAG | HD_CFG | HD_MEM | HD_STAT | HD_ARR
  | MX_STAT | MX_CHK_PASSES | MX_CHK_MISS | MX_CHK_AT | MX_BLK_SKIP | MX_ZONE
  | TB_CFG | CL_EXC_W0 | CL_EXC_W1 | CL_EXC_W2 | CL_EXC_W3 | CH_STAT
  | CH_ELEMS | CH_HAZARD_CYC | CH_TOKEN_CYC | CH_CK | CH_TAB | CH_CFG
  | RC_STAT | RC_LOW | RC_ERR | RC_OUT | RC_CNT | FM_CNT
  | CX_STAT | CX_CNT | CX_SLOT_W0 | CX_SLOT_W1 | CX_SLOT_W2 | CX_SLOT_W3
  | CX_ERR | SEC_PR_BASE | SEC_PR_LIMIT | SEC_PR_CTL | HBM_STAT | ST_STAT
  | HBM_LIMIT | ST_LIMIT | HBM_CE_CNT | HBM_UE_CNT | HBM_SCRUB | HBM_PPR_CNT
  | ST_CE_CNT | ST_UE_CNT | ST_SCRUB | ST_PPR_CNT | HBM_POISON | ST_POISON
  | DMA_ERR | UD_STAT | UD_GEN | UD_FLAGS | UD_TABGEN | UD_NORM
  | UD_KAPPA | UD_CNT | FP_STAT | FP_CFG | FP_PARTNER | FP_PFEAT
  | FP_RTT | FP_CRED | FP_CNT | FP_LANE_ERR | FAB_RT | FAB_BIND_W0
  | FAB_BIND_W1 | FAB_BIND_W2 | FAB_BIND_W3 | FAB_FEAT | FAB_ERR | FAB_CNT
  | RR_STAT | RR_STREAM_DONE | RR_STREAM_RELEASED | RR_FLAGS | RR_ERR | RR_CNT
  | HA_STAT | HA_CKPT_SIZE | HA_CKPT_BASE | HA_CNT | CMD_STAT | CMD_LAST_STEP
  | CMD_CNT | CMD_SQ_BASE | CMD_CQ_BASE | CMD_RING_CFG | CMD_SQ_TAIL | CMD_SQ_HEAD
  | CMD_CQ_TAIL | CMD_CQ_HEAD | CMD_SEQ_INIT | CMD_SEQ_NEXT | CMD_RING_STAT | EVC_SRC_CFG
  | EVC_SRC_STAT | MSIX_ADDR | MSIX_DATA | MSIX_CTL | EVC_PBA | EVC_EOI
  | EVC_CSAT | EVC_CNT | EVC_LAST | ID_HEALTH | ID_REPLAY | ID_REPLAY_ORIG
  | ID_FLT_NEXT | ID_FLT_LOG_W0 | ID_FLT_LOG_W1 | ID_FLT_LOG_W2 | ID_FLT_LOG_W3 | ID_FLT_CNT
  | SEC_BOOT | SEC_FW | SEC_FW_STAGED | SEC_SVN | SEC_CNT | PWR_STAT
  | PWR_IN | PWR_LIMIT | PWR_ALERT | PWR_ALERT_EN | PWR_TEMP | PWR_CL_STATE
  | PWR_UD_STATE | PWR_CNT | HD_STALE | TB_NOW | TB_ADJ | TB_SYNC_CFG
  | TB_SYNC | TB_SYNC_EPOCH | TB_SPLIT_CFG | TB_SPLIT | HC_HDR | HC_CAP_RAS
  | HC_CAP_LINK | HC_CAP_HDM | HC_CAP_IDE | HC_RAS_UES | HC_RAS_UEM | HC_RAS_UEV
  | HC_RAS_CES | HC_RAS_CEM | HC_RAS_CTL | HC_RAS_LOG | HC_LINK_CAP | HC_LINK_STAT
  | HC_HDM_CAP | HC_HDM_CTL | HC_HDM_BASE_LO | HC_HDM_BASE_HI | HC_HDM_SIZE_LO | HC_HDM_SIZE_HI
  | HC_HDM_DEC | HC_HDM_SKIP | HC_IDE_CAP | HC_IDE_CTL | HC_IDE_STAT | HC_IDE_ERR
  | HV_ARRAY | HV_STAT_HDR | HV_STAT_LEN | HV_MBOX_HDR | HV_MBOX_LEN | HV_STATUS
  | HV_MBOX_CAP | HV_MBOX_CTL | HV_MBOX_CMD | HV_MBOX_STAT | HV_MBOX_BG
deriving DecidableEq, Repr

/-- How a field's reset value is given. -/
inductive ResetRule where
  | const (v : Nat)
  | sense
  | cred
  | duty
deriving DecidableEq, Repr

/-- One field of a register: lowest bit, width, access code, reset value. -/
structure FldDesc where
  lo    : Nat
  width : Nat
  acc   : Acc
  reset : ResetRule
deriving DecidableEq, Repr

/-- One register or array of registers: first offset, dimensions as (count, stride) from the largest stride, width, fields. -/
structure RegDesc where
  reg    : Reg
  base   : Nat
  dims   : List (Nat × Nat)
  bits   : Nat
  fields : List FldDesc
deriving DecidableEq, Repr

/-- Registers of the map, part 1. -/
def regTable0 : List RegDesc := [
  ⟨.CL_REMAP, 0x1000000, [(8, 0x200000), (10, 0x20000)], 32, [⟨28, 4, .ro, .const 0x7⟩, ⟨24, 4, .ro, .const 0x6⟩, ⟨20, 4, .ro, .const 0x5⟩, ⟨16, 4, .ro, .const 0x4⟩, ⟨12, 4, .ro, .const 0x3⟩, ⟨8, 4, .ro, .const 0x2⟩, ⟨4, 4, .ro, .const 0x1⟩, ⟨0, 4, .ro, .const 0x0⟩]⟩,
  ⟨.CL_CORE_STAT, 0x1000004, [(8, 0x200000), (10, 0x20000)], 32, [⟨21, 1, .ro, .const 0x0⟩, ⟨17, 4, .ro, .const 0x0⟩, ⟨14, 3, .ro, .const 0x0⟩, ⟨13, 1, .ro, .const 0x0⟩, ⟨12, 1, .ro, .const 0x0⟩, ⟨0, 9, .ro, .const 0x0⟩]⟩,
  ⟨.ID_PART, 0x0, [], 32, [⟨16, 8, .ro, .const 0x1⟩, ⟨0, 16, .ro, .const 0x640⟩]⟩,
  ⟨.ID_STEPPING, 0x4, [], 32, [⟨4, 4, .ro, .const 0x0⟩, ⟨0, 4, .ro, .const 0x1⟩]⟩,
  ⟨.ID_CAPS, 0x8, [], 32, [⟨21, 5, .ro, .const 0x10⟩, ⟨16, 5, .ro, .const 0x10⟩, ⟨12, 4, .ro, .const 0x4⟩, ⟨8, 4, .ro, .const 0x9⟩, ⟨4, 4, .ro, .const 0xa⟩, ⟨0, 4, .ro, .const 0x8⟩]⟩,
  ⟨.ID_CORES, 0xc, [], 32, [⟨10, 7, .ro, .const 0x50⟩, ⟨0, 10, .ro, .const 0x280⟩]⟩,
  ⟨.ID_MODULE, 0x10, [], 32, [⟨31, 1, .rws, .const 0x0⟩, ⟨0, 10, .rws, .const 0x0⟩]⟩,
  ⟨.ID_FW_VER, 0x18, [], 32, [⟨24, 8, .ro, .const 0x0⟩, ⟨16, 8, .ro, .const 0x0⟩, ⟨0, 16, .ro, .const 0x0⟩]⟩,
  ⟨.ID_PROTO, 0x1c, [], 32, [⟨24, 8, .ro, .const 0x0⟩, ⟨16, 8, .ro, .const 0x0⟩, ⟨8, 8, .ro, .const 0x0⟩, ⟨0, 8, .ro, .const 0x0⟩]⟩,
  ⟨.ID_RSVD_WR_CNT, 0x20, [], 64, [⟨0, 64, .ro, .const 0x0⟩]⟩,
  ⟨.ID_RSVD_WR, 0x28, [], 32, [⟨31, 1, .rw, .const 0x0⟩, ⟨30, 1, .rw1c, .const 0x0⟩, ⟨29, 1, .ro, .const 0x0⟩, ⟨0, 26, .ro, .const 0x0⟩]⟩,
  ⟨.CO_FMT_CTL, 0x1008100, [(8, 0x200000), (10, 0x20000), (9, 0x1000)], 32, [⟨1, 1, .ro, .const 0x0⟩, ⟨0, 1, .rw, .const 0x0⟩]⟩,
  ⟨.CO_FMT_FLAGS, 0x1008104, [(8, 0x200000), (10, 0x20000), (9, 0x1000)], 32, [⟨31, 1, .rw, .const 0x0⟩, ⟨4, 1, .rw1c, .const 0x0⟩, ⟨3, 1, .rw1c, .const 0x0⟩, ⟨2, 1, .rw1c, .const 0x0⟩, ⟨1, 1, .rw1c, .const 0x0⟩, ⟨0, 1, .rw1c, .const 0x0⟩]⟩,
  ⟨.CO_OVF_CNT, 0x1008108, [(8, 0x200000), (10, 0x20000), (9, 0x1000)], 64, [⟨0, 64, .ro, .const 0x0⟩]⟩,
  ⟨.CO_SEQ_STAT, 0x1008000, [(8, 0x200000), (10, 0x20000), (9, 0x1000)], 32, [⟨16, 12, .ro, .const 0x0⟩, ⟨2, 1, .ro, .const 0x0⟩, ⟨0, 2, .ro, .const 0x0⟩]⟩,
  ⟨.CO_SEQ_QUEUE, 0x1008004, [(8, 0x200000), (10, 0x20000), (9, 0x1000)], 32, [⟨20, 5, .ro, .const 0x0⟩, ⟨15, 5, .ro, .const 0x0⟩, ⟨10, 5, .ro, .const 0x0⟩, ⟨5, 5, .ro, .const 0x0⟩, ⟨0, 5, .ro, .const 0x0⟩]⟩,
  ⟨.CO_FAULT, 0x1008008, [(8, 0x200000), (10, 0x20000), (9, 0x1000)], 32, [⟨24, 6, .ro, .const 0x0⟩, ⟨12, 12, .ro, .const 0x0⟩, ⟨8, 4, .ro, .const 0x0⟩, ⟨0, 8, .ro, .const 0x0⟩]⟩,
  ⟨.CO_STALL_LIMIT, 0x100800c, [(8, 0x200000), (10, 0x20000), (9, 0x1000)], 32, [⟨0, 32, .ro, .const 0x0⟩]⟩,
  ⟨.CO_SPLIT_NEXT, 0x1008010, [(8, 0x200000), (10, 0x20000), (9, 0x1000)], 32, [⟨6, 1, .ro, .const 0x0⟩, ⟨0, 6, .ro, .const 0x0⟩]⟩,
  ⟨.CO_BT, 0x1008200, [(8, 0x200000), (10, 0x20000), (9, 0x1000), (64, 0x4)], 32, [⟨0, 16, .rw, .const 0x0⟩]⟩,
  ⟨.CO_PA, 0x1008300, [(8, 0x200000), (10, 0x20000), (9, 0x1000), (16, 0x4)], 32, [⟨16, 16, .ro, .const 0x0⟩, ⟨0, 16, .rw, .const 0x0⟩]⟩,
  ⟨.CO_LAP, 0x1008340, [(8, 0x200000), (10, 0x20000), (9, 0x1000), (8, 0x4)], 32, [⟨0, 32, .rw, .const 0x0⟩]⟩,
  ⟨.CO_AB_CUR, 0x1008400, [(8, 0x200000), (10, 0x20000), (9, 0x1000), (16, 0x10)], 64, [⟨0, 48, .rw, .const 0x0⟩]⟩,
  ⟨.CO_AB_BASE, 0x1008408, [(8, 0x200000), (10, 0x20000), (9, 0x1000), (16, 0x10)], 64, [⟨0, 48, .rw, .const 0x0⟩]⟩,
  ⟨.CO_SPLIT_TIME, 0x1008800, [(8, 0x200000), (10, 0x20000), (9, 0x1000), (64, 0x10)], 64, [⟨0, 64, .ro, .const 0x0⟩]⟩,
  ⟨.CO_SPLIT_TAG, 0x1008808, [(8, 0x200000), (10, 0x20000), (9, 0x1000), (64, 0x10)], 64, [⟨32, 12, .ro, .const 0x0⟩, ⟨0, 32, .ro, .const 0x0⟩]⟩,
  ⟨.HD_CFG, 0x1150000, [(8, 0x200000), (256, 0x10)], 32, [⟨16, 10, .ro, .const 0x0⟩, ⟨2, 3, .ro, .const 0x0⟩, ⟨0, 2, .ro, .const 0x0⟩]⟩,
  ⟨.HD_MEM, 0x1150004, [(8, 0x200000), (256, 0x10)], 32, [⟨0, 11, .ro, .const 0x0⟩]⟩]

/-- Registers of the map, part 2. -/
def regTable1 : List RegDesc := [
  ⟨.HD_STAT, 0x1150008, [(8, 0x200000), (256, 0x10)], 32, [⟨16, 10, .ro, .const 0x0⟩, ⟨0, 16, .ro, .const 0x0⟩]⟩,
  ⟨.HD_ARR, 0x115000c, [(8, 0x200000), (256, 0x10)], 32, [⟨11, 11, .ro, .const 0x0⟩, ⟨0, 11, .ro, .const 0x0⟩]⟩,
  ⟨.MX_STAT, 0x1008500, [(8, 0x200000), (10, 0x20000), (9, 0x1000)], 32, [⟨14, 1, .ro, .const 0x0⟩, ⟨11, 3, .ro, .const 0x0⟩, ⟨8, 3, .ro, .const 0x0⟩, ⟨6, 2, .ro, .const 0x0⟩, ⟨4, 2, .ro, .const 0x0⟩, ⟨2, 2, .ro, .const 0x0⟩, ⟨0, 2, .ro, .const 0x0⟩]⟩,
  ⟨.MX_CHK_PASSES, 0x1008508, [(8, 0x200000), (10, 0x20000), (9, 0x1000)], 64, [⟨0, 64, .ro, .const 0x0⟩]⟩,
  ⟨.MX_CHK_MISS, 0x1008510, [(8, 0x200000), (10, 0x20000), (9, 0x1000)], 64, [⟨0, 64, .ro, .const 0x0⟩]⟩,
  ⟨.MX_CHK_AT, 0x1008518, [(8, 0x200000), (10, 0x20000), (9, 0x1000), (3, 0x8)], 64, [⟨0, 64, .ro, .const 0x0⟩]⟩,
  ⟨.MX_BLK_SKIP, 0x1008530, [(8, 0x200000), (10, 0x20000), (9, 0x1000)], 64, [⟨0, 64, .ro, .const 0x0⟩]⟩,
  ⟨.MX_ZONE, 0x1008580, [(8, 0x200000), (10, 0x20000), (9, 0x1000), (4, 0x20), (8, 0x4)], 32, [⟨0, 32, .ro, .const 0x0⟩]⟩,
  ⟨.TB_CFG, 0x1008600, [(8, 0x200000), (10, 0x20000), (9, 0x1000), (32, 0x8)], 64, [⟨0, 64, .ro, .const 0x0⟩]⟩,
  ⟨.CL_EXC_W0, 0x1001000, [(8, 0x200000), (10, 0x20000), (6, 0x10)], 32, [⟨31, 1, .ro, .const 0x0⟩, ⟨28, 3, .ro, .const 0x0⟩, ⟨12, 3, .ro, .const 0x0⟩, ⟨0, 12, .ro, .const 0x0⟩]⟩,
  ⟨.CL_EXC_W1, 0x1001004, [(8, 0x200000), (10, 0x20000), (6, 0x10)], 32, [⟨16, 16, .ro, .const 0x0⟩, ⟨0, 16, .ro, .const 0x0⟩]⟩,
  ⟨.CL_EXC_W2, 0x1001008, [(8, 0x200000), (10, 0x20000), (6, 0x10)], 32, [⟨8, 8, .ro, .const 0x0⟩, ⟨0, 8, .ro, .const 0x0⟩]⟩,
  ⟨.CL_EXC_W3, 0x100100c, [(8, 0x200000), (10, 0x20000), (6, 0x10)], 32, [⟨0, 32, .ro, .const 0x0⟩]⟩,
  ⟨.CH_STAT, 0x1008700, [(8, 0x200000), (10, 0x20000), (9, 0x1000)], 32, [⟨12, 4, .ro, .const 0x0⟩, ⟨8, 1, .ro, .const 0x0⟩, ⟨7, 1, .ro, .const 0x0⟩, ⟨5, 2, .ro, .const 0x0⟩, ⟨4, 1, .ro, .const 0x0⟩, ⟨2, 2, .ro, .const 0x0⟩, ⟨1, 1, .ro, .const 0x0⟩, ⟨0, 1, .ro, .const 0x0⟩]⟩,
  ⟨.CH_ELEMS, 0x1008708, [(8, 0x200000), (10, 0x20000), (9, 0x1000)], 64, [⟨0, 64, .ro, .const 0x0⟩]⟩,
  ⟨.CH_HAZARD_CYC, 0x1008710, [(8, 0x200000), (10, 0x20000), (9, 0x1000)], 64, [⟨0, 64, .ro, .const 0x0⟩]⟩,
  ⟨.CH_TOKEN_CYC, 0x1008718, [(8, 0x200000), (10, 0x20000), (9, 0x1000)], 64, [⟨0, 64, .ro, .const 0x0⟩]⟩,
  ⟨.CH_CK, 0x1008740, [(8, 0x200000), (10, 0x20000), (9, 0x1000), (16, 0x4)], 32, [⟨0, 32, .ro, .const 0x0⟩]⟩,
  ⟨.CH_TAB, 0x1008780, [(8, 0x200000), (10, 0x20000), (9, 0x1000), (32, 0x4)], 32, [⟨31, 1, .ro, .const 0x0⟩, ⟨16, 8, .ro, .const 0x0⟩, ⟨0, 16, .ro, .const 0x0⟩]⟩,
  ⟨.CH_CFG, 0x1008c00, [(8, 0x200000), (10, 0x20000), (9, 0x1000), (16, 0x20), (4, 0x8)], 64, [⟨0, 48, .ro, .const 0x0⟩]⟩,
  ⟨.RC_STAT, 0x1002000, [(8, 0x200000), (10, 0x20000)], 32, [⟨31, 1, .ro, .const 0x0⟩, ⟨30, 1, .ro, .const 0x0⟩, ⟨0, 15, .ro, .const 0x0⟩]⟩,
  ⟨.RC_LOW, 0x1002004, [(8, 0x200000), (10, 0x20000)], 32, [⟨0, 32, .ro, .const 0x0⟩]⟩,
  ⟨.RC_ERR, 0x1002008, [(8, 0x200000), (10, 0x20000)], 32, [⟨31, 1, .ro, .const 0x0⟩, ⟨12, 3, .ro, .const 0x0⟩, ⟨8, 4, .ro, .const 0x0⟩, ⟨0, 8, .ro, .const 0x0⟩]⟩,
  ⟨.RC_OUT, 0x1002040, [(8, 0x200000), (10, 0x20000), (16, 0x4)], 32, [⟨0, 16, .ro, .const 0x0⟩]⟩,
  ⟨.RC_CNT, 0x1002100, [(8, 0x200000), (10, 0x20000), (9, 0x8)], 64, [⟨0, 64, .ro, .const 0x0⟩]⟩,
  ⟨.FM_CNT, 0x1002400, [(8, 0x200000), (10, 0x20000), (4, 0x8)], 64, [⟨0, 64, .ro, .const 0x0⟩]⟩,
  ⟨.CX_STAT, 0x1008e00, [(8, 0x200000), (10, 0x20000), (9, 0x1000)], 32, [⟨14, 2, .ro, .const 0x0⟩, ⟨13, 1, .ro, .const 0x0⟩, ⟨8, 5, .ro, .const 0x0⟩, ⟨6, 2, .ro, .const 0x0⟩, ⟨0, 6, .ro, .const 0x0⟩]⟩,
  ⟨.CX_CNT, 0x1008e08, [(8, 0x200000), (10, 0x20000), (9, 0x1000), (9, 0x8)], 64, [⟨0, 64, .ro, .const 0x0⟩]⟩]

/-- Registers of the map, part 3. -/
def regTable2 : List RegDesc := [
  ⟨.CX_SLOT_W0, 0x1002800, [(8, 0x200000), (10, 0x20000), (16, 0x10)], 32, [⟨20, 11, .ro, .const 0x0⟩, ⟨16, 3, .ro, .const 0x0⟩, ⟨8, 8, .ro, .const 0x0⟩, ⟨0, 2, .ro, .const 0x0⟩]⟩,
  ⟨.CX_SLOT_W1, 0x1002804, [(8, 0x200000), (10, 0x20000), (16, 0x10)], 32, [⟨0, 29, .ro, .const 0x0⟩]⟩,
  ⟨.CX_SLOT_W2, 0x1002808, [(8, 0x200000), (10, 0x20000), (16, 0x10)], 32, [⟨16, 9, .ro, .const 0x0⟩, ⟨8, 8, .ro, .const 0x0⟩, ⟨4, 4, .ro, .const 0x0⟩, ⟨0, 4, .ro, .const 0x0⟩]⟩,
  ⟨.CX_SLOT_W3, 0x100280c, [(8, 0x200000), (10, 0x20000), (16, 0x10)], 32, [⟨0, 32, .ro, .const 0x0⟩]⟩,
  ⟨.CX_ERR, 0x1002900, [(8, 0x200000), (10, 0x20000)], 32, [⟨31, 1, .ro, .const 0x0⟩, ⟨16, 8, .ro, .const 0x0⟩, ⟨12, 3, .ro, .const 0x0⟩, ⟨0, 12, .ro, .const 0x0⟩]⟩,
  ⟨.SEC_PR_BASE, 0x51000, [(16, 0x20)], 64, [⟨21, 27, .rw, .const 0x0⟩]⟩,
  ⟨.SEC_PR_LIMIT, 0x51008, [(16, 0x20)], 64, [⟨21, 27, .rw, .const 0x0⟩]⟩,
  ⟨.SEC_PR_CTL, 0x51010, [(16, 0x20)], 32, [⟨9, 1, .ro, .const 0x0⟩, ⟨1, 4, .rw, .const 0x0⟩, ⟨0, 1, .rw, .const 0x0⟩]⟩,
  ⟨.HBM_STAT, 0x300000, [(16, 0x4000)], 32, [⟨8, 1, .ro, .const 0x0⟩, ⟨7, 1, .ro, .const 0x0⟩, ⟨6, 1, .ro, .const 0x0⟩, ⟨5, 1, .ro, .const 0x0⟩, ⟨0, 5, .ro, .const 0x0⟩]⟩,
  ⟨.ST_STAT, 0x340000, [(24, 0x2000)], 32, [⟨8, 1, .ro, .const 0x0⟩, ⟨7, 1, .ro, .const 0x0⟩, ⟨6, 1, .ro, .const 0x0⟩, ⟨5, 1, .ro, .const 0x0⟩, ⟨0, 5, .ro, .const 0x0⟩]⟩,
  ⟨.HBM_LIMIT, 0x300008, [(16, 0x4000)], 64, [⟨0, 36, .ro, .const 0xb2d05e000⟩]⟩,
  ⟨.ST_LIMIT, 0x340008, [(24, 0x2000)], 64, [⟨0, 36, .ro, .const 0xb2d05e000⟩]⟩,
  ⟨.HBM_CE_CNT, 0x300100, [(16, 0x4000), (32, 0x8)], 64, [⟨0, 64, .ro, .const 0x0⟩]⟩,
  ⟨.HBM_UE_CNT, 0x300200, [(16, 0x4000), (32, 0x8)], 64, [⟨0, 64, .ro, .const 0x0⟩]⟩,
  ⟨.HBM_SCRUB, 0x300300, [(16, 0x4000)], 64, [⟨0, 64, .ro, .const 0x0⟩]⟩,
  ⟨.HBM_PPR_CNT, 0x300308, [(16, 0x4000)], 64, [⟨0, 64, .ro, .const 0x0⟩]⟩,
  ⟨.ST_CE_CNT, 0x340100, [(24, 0x2000)], 64, [⟨0, 64, .ro, .const 0x0⟩]⟩,
  ⟨.ST_UE_CNT, 0x340200, [(24, 0x2000)], 64, [⟨0, 64, .ro, .const 0x0⟩]⟩,
  ⟨.ST_SCRUB, 0x340300, [(24, 0x2000)], 64, [⟨0, 64, .ro, .const 0x0⟩]⟩,
  ⟨.ST_PPR_CNT, 0x340308, [(24, 0x2000)], 64, [⟨0, 64, .ro, .const 0x0⟩]⟩,
  ⟨.HBM_POISON, 0x300310, [(16, 0x4000)], 64, [⟨63, 1, .rw1c, .const 0x0⟩, ⟨0, 48, .ro, .const 0x0⟩]⟩,
  ⟨.ST_POISON, 0x340310, [(24, 0x2000)], 64, [⟨63, 1, .rw1c, .const 0x0⟩, ⟨0, 48, .ro, .const 0x0⟩]⟩,
  ⟨.DMA_ERR, 0x1008f00, [(8, 0x200000), (10, 0x20000), (9, 0x1000)], 32, [⟨31, 1, .ro, .const 0x0⟩, ⟨12, 8, .ro, .const 0x0⟩, ⟨0, 12, .ro, .const 0x0⟩]⟩,
  ⟨.UD_STAT, 0x200000, [(4, 0x40000)], 32, [⟨16, 8, .ro, .const 0x0⟩, ⟨14, 2, .ro, .const 0x0⟩, ⟨4, 1, .ro, .const 0x0⟩, ⟨0, 4, .ro, .const 0x0⟩]⟩,
  ⟨.UD_GEN, 0x200004, [(4, 0x40000)], 32, [⟨2, 1, .ro, .const 0x0⟩, ⟨1, 1, .ro, .const 0x0⟩, ⟨0, 1, .rs, .const 0x0⟩]⟩,
  ⟨.UD_FLAGS, 0x200008, [(4, 0x40000)], 32, [⟨31, 1, .rw, .const 0x0⟩, ⟨3, 1, .rw1c, .const 0x0⟩, ⟨2, 1, .rw1c, .const 0x0⟩, ⟨1, 1, .rw1c, .const 0x0⟩, ⟨0, 1, .rw1c, .const 0x0⟩]⟩,
  ⟨.UD_TABGEN, 0x20000c, [(4, 0x40000)], 32, [⟨0, 8, .ro, .const 0x0⟩]⟩,
  ⟨.UD_NORM, 0x200040, [(4, 0x40000)], 32, [⟨0, 32, .ro, .const 0x0⟩]⟩]

/-- Registers of the map, part 4. -/
def regTable3 : List RegDesc := [
  ⟨.UD_KAPPA, 0x200044, [(4, 0x40000)], 32, [⟨0, 32, .ro, .const 0x0⟩]⟩,
  ⟨.UD_CNT, 0x200100, [(4, 0x40000), (7, 0x8)], 64, [⟨0, 64, .ro, .const 0x0⟩]⟩,
  ⟨.FP_STAT, 0x100000, [(16, 0x10000)], 32, [⟨24, 8, .ro, .const 0x0⟩, ⟨16, 8, .ro, .const 0x0⟩, ⟨8, 8, .ro, .const 0x0⟩, ⟨6, 1, .ro, .const 0x0⟩, ⟨4, 2, .ro, .const 0x0⟩, ⟨0, 4, .ro, .const 0x0⟩]⟩,
  ⟨.FP_CFG, 0x100004, [(16, 0x10000)], 32, [⟨8, 1, .rw, .const 0x0⟩, ⟨4, 4, .rw, .const 0xf⟩, ⟨1, 1, .rw, .const 0x0⟩, ⟨0, 1, .rw, .const 0x1⟩]⟩,
  ⟨.FP_PARTNER, 0x100008, [(16, 0x10000)], 32, [⟨31, 1, .ro, .const 0x0⟩, ⟨16, 4, .ro, .const 0x0⟩, ⟨0, 10, .ro, .const 0x0⟩]⟩,
  ⟨.FP_PFEAT, 0x10000c, [(16, 0x10000)], 32, [⟨0, 32, .ro, .const 0x0⟩]⟩,
  ⟨.FP_RTT, 0x100010, [(16, 0x10000)], 32, [⟨16, 9, .ro, .const 0x0⟩, ⟨0, 16, .ro, .const 0x0⟩]⟩,
  ⟨.FP_CRED, 0x100100, [(16, 0x10000), (14, 0x4)], 32, [⟨16, 16, .ro, .const 0x0⟩, ⟨0, 16, .rw, .cred⟩]⟩,
  ⟨.FP_CNT, 0x100200, [(16, 0x10000), (12, 0x8)], 64, [⟨0, 64, .ro, .const 0x0⟩]⟩,
  ⟨.FP_LANE_ERR, 0x100300, [(16, 0x10000), (8, 0x8)], 64, [⟨0, 64, .ro, .const 0x0⟩]⟩,
  ⟨.FAB_RT, 0x108000, [(1024, 0x8)], 64, [⟨16, 16, .rw, .const 0x0⟩, ⟨0, 16, .rw, .const 0x0⟩]⟩,
  ⟨.FAB_BIND_W0, 0x10a000, [(6, 0x10)], 32, [⟨30, 2, .ro, .const 0x0⟩, ⟨24, 3, .ro, .const 0x0⟩, ⟨10, 11, .ro, .const 0x0⟩, ⟨0, 10, .ro, .const 0x0⟩]⟩,
  ⟨.FAB_BIND_W1, 0x10a004, [(6, 0x10)], 32, [⟨0, 32, .ro, .const 0x0⟩]⟩,
  ⟨.FAB_BIND_W2, 0x10a008, [(6, 0x10)], 32, [⟨0, 32, .ro, .const 0x0⟩]⟩,
  ⟨.FAB_BIND_W3, 0x10a00c, [(6, 0x10)], 32, []⟩,
  ⟨.FAB_FEAT, 0x10a080, [], 32, [⟨0, 32, .ro, .const 0x3⟩]⟩,
  ⟨.FAB_ERR, 0x10a090, [], 64, [⟨63, 1, .rw1c, .const 0x0⟩, ⟨48, 10, .ro, .const 0x0⟩, ⟨0, 48, .ro, .const 0x0⟩]⟩,
  ⟨.FAB_CNT, 0x10a100, [(5, 0x8)], 64, [⟨0, 64, .ro, .const 0x0⟩]⟩,
  ⟨.RR_STAT, 0x10b000, [], 32, [⟨31, 1, .ro, .const 0x0⟩, ⟨16, 8, .ro, .const 0x0⟩, ⟨8, 8, .ro, .const 0x0⟩, ⟨0, 8, .ro, .const 0x0⟩]⟩,
  ⟨.RR_STREAM_DONE, 0x10b010, [(6, 0x10)], 64, [⟨0, 64, .ro, .const 0x0⟩]⟩,
  ⟨.RR_STREAM_RELEASED, 0x10b018, [(6, 0x10)], 64, [⟨0, 64, .ro, .const 0x0⟩]⟩,
  ⟨.RR_FLAGS, 0x10b080, [], 32, [⟨31, 1, .rw, .const 0x0⟩, ⟨3, 1, .rw1c, .const 0x0⟩, ⟨2, 1, .rw1c, .const 0x0⟩, ⟨1, 1, .rw1c, .const 0x0⟩, ⟨0, 1, .rw1c, .const 0x0⟩]⟩,
  ⟨.RR_ERR, 0x10b088, [], 32, [⟨31, 1, .ro, .const 0x0⟩, ⟨8, 8, .ro, .const 0x0⟩, ⟨0, 8, .ro, .const 0x0⟩]⟩,
  ⟨.RR_CNT, 0x10b100, [(8, 0x8)], 64, [⟨0, 64, .ro, .const 0x0⟩]⟩,
  ⟨.HA_STAT, 0x6c000, [], 32, [⟨19, 1, .ro, .const 0x0⟩, ⟨18, 1, .ro, .const 0x0⟩, ⟨17, 1, .ro, .const 0x0⟩, ⟨16, 1, .ro, .const 0x0⟩, ⟨10, 2, .ro, .const 0x0⟩, ⟨4, 4, .ro, .const 0x0⟩, ⟨0, 4, .ro, .const 0x0⟩]⟩,
  ⟨.HA_CKPT_SIZE, 0x6c008, [], 32, [⟨0, 10, .ro, .const 0x0⟩]⟩,
  ⟨.HA_CKPT_BASE, 0x6c010, [(4, 0x8)], 64, [⟨0, 48, .ro, .const 0x0⟩]⟩,
  ⟨.HA_CNT, 0x6c100, [(6, 0x8)], 64, [⟨0, 64, .ro, .const 0x0⟩]⟩]

/-- Registers of the map, part 5. -/
def regTable4 : List RegDesc := [
  ⟨.CMD_STAT, 0x10000, [], 32, [⟨31, 1, .ro, .const 0x0⟩, ⟨30, 1, .ro, .const 0x0⟩, ⟨29, 1, .ro, .const 0x0⟩, ⟨28, 1, .rs, .const 0x0⟩, ⟨0, 4, .ro, .const 0x0⟩]⟩,
  ⟨.CMD_LAST_STEP, 0x10004, [], 32, [⟨0, 32, .rs, .const 0x0⟩]⟩,
  ⟨.CMD_CNT, 0x10100, [(8, 0x8)], 64, [⟨0, 64, .ro, .const 0x0⟩]⟩,
  ⟨.CMD_SQ_BASE, 0x11000, [(16, 0x80)], 64, [⟨12, 52, .rws, .const 0x0⟩]⟩,
  ⟨.CMD_CQ_BASE, 0x11008, [(16, 0x80)], 64, [⟨12, 52, .rws, .const 0x0⟩]⟩,
  ⟨.CMD_RING_CFG, 0x11010, [(16, 0x80)], 32, [⟨31, 1, .rws, .const 0x0⟩, ⟨0, 12, .rws, .const 0x0⟩]⟩,
  ⟨.CMD_SQ_TAIL, 0x11014, [(16, 0x80)], 32, [⟨0, 12, .rws, .const 0x0⟩]⟩,
  ⟨.CMD_SQ_HEAD, 0x11018, [(16, 0x80)], 32, [⟨0, 12, .rs, .const 0x0⟩]⟩,
  ⟨.CMD_CQ_TAIL, 0x1101c, [(16, 0x80)], 32, [⟨12, 1, .rs, .const 0x0⟩, ⟨0, 12, .rs, .const 0x0⟩]⟩,
  ⟨.CMD_CQ_HEAD, 0x11020, [(16, 0x80)], 32, [⟨0, 12, .rws, .const 0x0⟩]⟩,
  ⟨.CMD_SEQ_INIT, 0x11024, [(16, 0x80)], 32, [⟨0, 32, .rws, .const 0x0⟩]⟩,
  ⟨.CMD_SEQ_NEXT, 0x11028, [(16, 0x80)], 32, [⟨0, 32, .rs, .const 0x0⟩]⟩,
  ⟨.CMD_RING_STAT, 0x1102c, [(16, 0x80)], 32, [⟨24, 8, .rs, .const 0x0⟩, ⟨16, 8, .rs, .const 0x0⟩, ⟨0, 13, .rs, .const 0x0⟩]⟩,
  ⟨.EVC_SRC_CFG, 0x20000, [(4096, 0x4)], 32, [⟨31, 1, .rw, .const 0x0⟩, ⟨20, 2, .rw, .const 0x0⟩, ⟨12, 7, .rw, .const 0x0⟩, ⟨11, 1, .rw, .const 0x0⟩, ⟨4, 4, .rw, .const 0x0⟩, ⟨0, 3, .rw, .sense⟩]⟩,
  ⟨.EVC_SRC_STAT, 0x24000, [(4096, 0x4)], 32, [⟨3, 1, .ro, .const 0x0⟩, ⟨2, 1, .ro, .const 0x0⟩, ⟨0, 2, .ro, .const 0x0⟩]⟩,
  ⟨.MSIX_ADDR, 0x28000, [(256, 0x10)], 64, [⟨2, 62, .rw, .const 0x0⟩]⟩,
  ⟨.MSIX_DATA, 0x28008, [(256, 0x10)], 32, [⟨0, 32, .rw, .const 0x0⟩]⟩,
  ⟨.MSIX_CTL, 0x2800c, [(256, 0x10)], 32, [⟨0, 1, .rw, .const 0x1⟩]⟩,
  ⟨.EVC_PBA, 0x29000, [(4, 0x8)], 64, [⟨0, 64, .ro, .const 0x0⟩]⟩,
  ⟨.EVC_EOI, 0x2a000, [], 32, [⟨0, 12, .rw, .const 0x0⟩]⟩,
  ⟨.EVC_CSAT, 0x2a010, [], 64, [⟨63, 1, .rw1c, .const 0x0⟩, ⟨62, 1, .ro, .const 0x0⟩, ⟨0, 48, .ro, .const 0x0⟩]⟩,
  ⟨.EVC_CNT, 0x2a100, [(4, 0x8)], 64, [⟨0, 64, .ro, .const 0x0⟩]⟩,
  ⟨.EVC_LAST, 0x2a800, [(256, 0x4)], 32, [⟨31, 1, .ro, .const 0x0⟩, ⟨0, 12, .ro, .const 0x0⟩]⟩,
  ⟨.ID_HEALTH, 0x40, [], 64, [⟨63, 1, .rs, .const 0x0⟩, ⟨62, 1, .rs, .const 0x0⟩, ⟨52, 10, .rs, .const 0x0⟩, ⟨45, 7, .rs, .const 0x0⟩, ⟨40, 5, .rs, .const 0x0⟩, ⟨35, 5, .rs, .const 0x0⟩, ⟨30, 5, .rs, .const 0x0⟩, ⟨25, 5, .rs, .const 0x0⟩, ⟨20, 5, .rs, .const 0x0⟩, ⟨16, 4, .rs, .const 0x0⟩, ⟨12, 4, .rs, .const 0x0⟩, ⟨3, 9, .rs, .const 0x0⟩, ⟨1, 2, .rs, .const 0x0⟩]⟩,
  ⟨.ID_REPLAY, 0x48, [], 32, [⟨29, 3, .ro, .const 0x0⟩, ⟨16, 13, .ro, .const 0x0⟩, ⟨0, 16, .ro, .const 0x0⟩]⟩,
  ⟨.ID_REPLAY_ORIG, 0x4c, [], 32, [⟨31, 1, .ro, .const 0x0⟩, ⟨16, 10, .ro, .const 0x0⟩, ⟨0, 16, .ro, .const 0x0⟩]⟩,
  ⟨.ID_FLT_NEXT, 0x50, [], 32, [⟨4, 1, .rs, .const 0x0⟩, ⟨0, 4, .rs, .const 0x0⟩]⟩,
  ⟨.ID_FLT_LOG_W0, 0x100, [(16, 0x10)], 32, [⟨31, 1, .rs, .const 0x0⟩, ⟨28, 3, .rs, .const 0x0⟩, ⟨16, 8, .rs, .const 0x0⟩, ⟨0, 16, .rs, .const 0x0⟩]⟩]

/-- Registers of the map, part 6. -/
def regTable5 : List RegDesc := [
  ⟨.ID_FLT_LOG_W1, 0x104, [(16, 0x10)], 32, [⟨0, 32, .rs, .const 0x0⟩]⟩,
  ⟨.ID_FLT_LOG_W2, 0x108, [(16, 0x10)], 32, [⟨0, 32, .rs, .const 0x0⟩]⟩,
  ⟨.ID_FLT_LOG_W3, 0x10c, [(16, 0x10)], 32, [⟨0, 32, .rs, .const 0x0⟩]⟩,
  ⟨.ID_FLT_CNT, 0x200, [(7, 0x8)], 64, [⟨0, 64, .ro, .const 0x0⟩]⟩,
  ⟨.SEC_BOOT, 0x50000, [], 32, [⟨28, 4, .ro, .const 0x0⟩, ⟨16, 8, .ro, .const 0x0⟩, ⟨4, 12, .ro, .const 0x0⟩, ⟨0, 1, .ro, .const 0x0⟩]⟩,
  ⟨.SEC_FW, 0x50004, [], 32, [⟨8, 8, .ro, .const 0x0⟩, ⟨0, 3, .ro, .const 0x0⟩]⟩,
  ⟨.SEC_FW_STAGED, 0x50008, [], 32, [⟨24, 8, .ro, .const 0x0⟩, ⟨16, 8, .ro, .const 0x0⟩, ⟨0, 16, .ro, .const 0x0⟩]⟩,
  ⟨.SEC_SVN, 0x5000c, [], 32, [⟨8, 8, .ro, .const 0x0⟩, ⟨0, 8, .ro, .const 0x0⟩]⟩,
  ⟨.SEC_CNT, 0x50100, [(4, 0x8)], 64, [⟨0, 64, .ro, .const 0x0⟩]⟩,
  ⟨.PWR_STAT, 0x40000, [], 32, [⟨4, 4, .ro, .const 0x8⟩, ⟨3, 1, .ro, .const 0x0⟩, ⟨2, 1, .ro, .const 0x0⟩, ⟨1, 1, .ro, .const 0x0⟩, ⟨0, 1, .ro, .const 0x0⟩]⟩,
  ⟨.PWR_IN, 0x40008, [], 64, [⟨48, 16, .ro, .const 0x0⟩, ⟨32, 16, .ro, .const 0x0⟩, ⟨16, 16, .ro, .const 0x0⟩]⟩,
  ⟨.PWR_LIMIT, 0x40010, [], 32, [⟨0, 13, .rws, .const 0x12c0⟩]⟩,
  ⟨.PWR_ALERT, 0x40018, [], 32, [⟨4, 1, .rw1c, .const 0x0⟩, ⟨3, 1, .rw1c, .const 0x0⟩, ⟨2, 1, .rw1c, .const 0x0⟩, ⟨1, 1, .rw1c, .const 0x0⟩, ⟨0, 1, .rw1c, .const 0x0⟩]⟩,
  ⟨.PWR_ALERT_EN, 0x4001c, [], 32, [⟨4, 1, .rw, .const 0x1⟩, ⟨3, 1, .rw, .const 0x1⟩, ⟨2, 1, .rw, .const 0x1⟩, ⟨1, 1, .rw, .const 0x1⟩, ⟨0, 1, .rw, .const 0x1⟩]⟩,
  ⟨.PWR_TEMP, 0x40100, [(14, 0x4)], 32, [⟨16, 4, .ro, .duty⟩, ⟨0, 16, .ro, .const 0x0⟩]⟩,
  ⟨.PWR_CL_STATE, 0x40200, [(8, 0x4)], 32, [⟨30, 2, .ro, .const 0x0⟩, ⟨0, 2, .ro, .const 0x0⟩, ⟨2, 2, .ro, .const 0x0⟩, ⟨4, 2, .ro, .const 0x0⟩, ⟨6, 2, .ro, .const 0x0⟩, ⟨8, 2, .ro, .const 0x0⟩, ⟨10, 2, .ro, .const 0x0⟩, ⟨12, 2, .ro, .const 0x0⟩, ⟨14, 2, .ro, .const 0x0⟩, ⟨16, 2, .ro, .const 0x0⟩, ⟨18, 2, .ro, .const 0x0⟩]⟩,
  ⟨.PWR_UD_STATE, 0x40220, [], 32, [⟨0, 4, .ro, .const 0x0⟩]⟩,
  ⟨.PWR_CNT, 0x40300, [(5, 0x8)], 64, [⟨0, 64, .ro, .const 0x0⟩]⟩,
  ⟨.HD_STALE, 0x1151000, [(8, 0x200000)], 64, [⟨0, 64, .ro, .const 0x0⟩]⟩,
  ⟨.TB_NOW, 0x30000, [], 64, [⟨0, 64, .ro, .const 0x0⟩]⟩,
  ⟨.TB_ADJ, 0x30008, [], 64, [⟨0, 64, .rw, .const 0x0⟩]⟩,
  ⟨.TB_SYNC_CFG, 0x30010, [], 32, [⟨31, 1, .rw, .const 0x0⟩, ⟨0, 8, .rw, .const 0x0⟩]⟩,
  ⟨.TB_SYNC, 0x30018, [], 64, [⟨0, 64, .ro, .const 0x0⟩]⟩,
  ⟨.TB_SYNC_EPOCH, 0x30020, [], 32, [⟨0, 16, .ro, .const 0x0⟩]⟩,
  ⟨.TB_SPLIT_CFG, 0x30100, [(16, 0x4)], 32, [⟨31, 1, .rw, .const 0x0⟩, ⟨0, 12, .rw, .const 0x0⟩]⟩,
  ⟨.TB_SPLIT, 0x30200, [(16, 0x8)], 64, [⟨0, 64, .ro, .const 0x0⟩]⟩,
  ⟨.HC_HDR, 0x61000, [], 32, [⟨24, 8, .ro, .const 0x4⟩, ⟨20, 4, .ro, .const 0x1⟩, ⟨16, 4, .ro, .const 0x1⟩, ⟨0, 16, .ro, .const 0x1⟩]⟩,
  ⟨.HC_CAP_RAS, 0x61004, [], 32, [⟨20, 12, .ro, .const 0x100⟩, ⟨16, 4, .ro, .const 0x1⟩, ⟨0, 16, .ro, .const 0x2⟩]⟩]

/-- Registers of the map, part 7. -/
def regTable6 : List RegDesc := [
  ⟨.HC_CAP_LINK, 0x61008, [], 32, [⟨20, 12, .ro, .const 0x180⟩, ⟨16, 4, .ro, .const 0x1⟩, ⟨0, 16, .ro, .const 0x4⟩]⟩,
  ⟨.HC_CAP_HDM, 0x6100c, [], 32, [⟨20, 12, .ro, .const 0x200⟩, ⟨16, 4, .ro, .const 0x1⟩, ⟨0, 16, .ro, .const 0x5⟩]⟩,
  ⟨.HC_CAP_IDE, 0x61010, [], 32, [⟨20, 12, .ro, .const 0x280⟩, ⟨16, 4, .ro, .const 0x1⟩, ⟨0, 16, .ro, .const 0x7⟩]⟩,
  ⟨.HC_RAS_UES, 0x61100, [], 32, [⟨0, 17, .rw1c, .const 0x0⟩]⟩,
  ⟨.HC_RAS_UEM, 0x61104, [], 32, [⟨0, 17, .rws, .const 0x1cfff⟩]⟩,
  ⟨.HC_RAS_UEV, 0x61108, [], 32, [⟨0, 17, .rws, .const 0x1cfff⟩]⟩,
  ⟨.HC_RAS_CES, 0x6110c, [], 32, [⟨0, 7, .rw1c, .const 0x0⟩]⟩,
  ⟨.HC_RAS_CEM, 0x61110, [], 32, [⟨0, 7, .rws, .const 0x7f⟩]⟩,
  ⟨.HC_RAS_CTL, 0x61114, [], 32, [⟨0, 6, .ro, .const 0x0⟩]⟩,
  ⟨.HC_RAS_LOG, 0x61118, [(16, 0x4)], 32, [⟨0, 32, .ro, .const 0x0⟩]⟩,
  ⟨.HC_LINK_CAP, 0x61180, [], 64, [⟨0, 4, .ro, .const 0x1⟩]⟩,
  ⟨.HC_LINK_STAT, 0x61188, [], 64, [⟨0, 4, .ro, .const 0x0⟩]⟩,
  ⟨.HC_HDM_CAP, 0x61200, [], 32, [⟨10, 1, .ro, .const 0x1⟩, ⟨4, 4, .ro, .const 0x0⟩, ⟨0, 4, .ro, .const 0x0⟩]⟩,
  ⟨.HC_HDM_CTL, 0x61204, [], 32, [⟨1, 1, .rw, .const 0x0⟩, ⟨0, 1, .rw, .const 0x0⟩]⟩,
  ⟨.HC_HDM_BASE_LO, 0x61210, [], 32, [⟨28, 4, .rw, .const 0x0⟩]⟩,
  ⟨.HC_HDM_BASE_HI, 0x61214, [], 32, [⟨0, 32, .rw, .const 0x0⟩]⟩,
  ⟨.HC_HDM_SIZE_LO, 0x61218, [], 32, [⟨28, 4, .rw, .const 0x0⟩]⟩,
  ⟨.HC_HDM_SIZE_HI, 0x6121c, [], 32, [⟨0, 32, .rw, .const 0x0⟩]⟩,
  ⟨.HC_HDM_DEC, 0x61220, [], 32, [⟨13, 1, .rw, .const 0x0⟩, ⟨12, 1, .rw, .const 0x0⟩, ⟨11, 1, .ro, .const 0x0⟩, ⟨10, 1, .ro, .const 0x0⟩, ⟨9, 1, .rw, .const 0x0⟩, ⟨8, 1, .rw, .const 0x0⟩, ⟨4, 4, .rw, .const 0x0⟩, ⟨0, 4, .rw, .const 0x0⟩]⟩,
  ⟨.HC_HDM_SKIP, 0x61224, [], 64, [⟨28, 36, .rw, .const 0x0⟩]⟩,
  ⟨.HC_IDE_CAP, 0x61280, [], 32, [⟨16, 1, .ro, .const 0x1⟩, ⟨0, 1, .ro, .const 0x1⟩]⟩,
  ⟨.HC_IDE_CTL, 0x61284, [], 32, [⟨0, 1, .rw, .const 0x0⟩]⟩,
  ⟨.HC_IDE_STAT, 0x61288, [], 32, [⟨4, 4, .ro, .const 0x0⟩, ⟨0, 4, .ro, .const 0x0⟩]⟩,
  ⟨.HC_IDE_ERR, 0x6128c, [], 32, [⟨4, 4, .rw1c, .const 0x0⟩, ⟨0, 4, .rw1c, .const 0x0⟩]⟩,
  ⟨.HV_ARRAY, 0x68000, [], 64, [⟨32, 16, .ro, .const 0x2⟩, ⟨24, 4, .ro, .const 0x0⟩, ⟨16, 8, .ro, .const 0x1⟩, ⟨0, 16, .ro, .const 0x0⟩]⟩,
  ⟨.HV_STAT_HDR, 0x68010, [], 64, [⟨32, 32, .ro, .const 0x100⟩, ⟨16, 8, .ro, .const 0x1⟩, ⟨0, 16, .ro, .const 0x1⟩]⟩,
  ⟨.HV_STAT_LEN, 0x68018, [], 32, [⟨0, 32, .ro, .const 0x8⟩]⟩,
  ⟨.HV_MBOX_HDR, 0x68020, [], 64, [⟨32, 32, .ro, .const 0x200⟩, ⟨16, 8, .ro, .const 0x1⟩, ⟨0, 16, .ro, .const 0x2⟩]⟩]

/-- Registers of the map, part 8. -/
def regTable7 : List RegDesc := [
  ⟨.HV_MBOX_LEN, 0x68028, [], 32, [⟨0, 32, .ro, .const 0x20⟩]⟩,
  ⟨.HV_STATUS, 0x68100, [], 64, [⟨0, 8, .ro, .const 0x0⟩]⟩,
  ⟨.HV_MBOX_CAP, 0x68200, [], 32, [⟨0, 5, .ro, .const 0x10⟩]⟩,
  ⟨.HV_MBOX_CTL, 0x68204, [], 32, [⟨0, 1, .ro, .const 0x0⟩]⟩,
  ⟨.HV_MBOX_CMD, 0x68208, [], 64, [⟨16, 21, .rw, .const 0x0⟩, ⟨0, 16, .rw, .const 0x0⟩]⟩,
  ⟨.HV_MBOX_STAT, 0x68210, [], 64, [⟨32, 16, .ro, .const 0x0⟩, ⟨0, 1, .ro, .const 0x0⟩]⟩,
  ⟨.HV_MBOX_BG, 0x68218, [], 64, [⟨0, 64, .ro, .const 0x0⟩]⟩]

/-- Every register of the manual (01 R28; one row per register table). -/
def regTable : List RegDesc :=
  regTable0 ++ regTable1 ++ regTable2 ++ regTable3 ++ regTable4 ++ regTable5 ++ regTable6 ++ regTable7

/-- The array indices of an offset relative to a register's base, peeled from the largest stride down; none where the
offset falls outside the array. The last number is what is left: 0 at the register's own offset. -/
def peelDims : List (Nat × Nat) → Nat → Option (List Nat × Nat)
  | [], rel => some ([], rel)
  | (count, stride) :: ds, rel =>
    if rel / stride < count then
      match peelDims ds (rel % stride) with
      | some (ix, rest) => some (rel / stride :: ix, rest)
      | none => none
    else none

/-- A register found at an offset: its description, its own offset and its indices. -/
structure RegAt where
  desc : RegDesc
  off  : Nat
  ix   : List Nat
deriving DecidableEq, Repr

/-- Is this the register that holds byte offset off? -/
def regHere (d : RegDesc) (off : Nat) : Option RegAt :=
  if off < d.base then none
  else
    match peelDims d.dims (off - d.base) with
    | some (ix, rest) => if rest < d.bits / 8 then some ⟨d, off - rest, ix⟩ else none
    | none => none

/-- The first register of a list that holds byte offset off. -/
def regFind : List RegDesc → Nat → Option RegAt
  | [], _ => none
  | d :: ds, off =>
    match regHere d off with
    | some r => some r
    | none => regFind ds off

/-- The FAB registers read the same through every port window: the offset folded to the window of FP_0 (13 R411, 14 R439). -/
def foldFab (off : Nat) : Nat :=
  if 0x100000 ≤ off && off < 0x200000 && 0x8000 ≤ off % 0x10000 then 0x100000 + off % 0x10000 else off

/-- The register that occupies a BAR0 byte offset; none where it is unmapped (01 R33). -/
def regAt (off : Nat) : Option RegAt := regFind regTable (foldFab off)

/-- A field of a register that was found, with its reset value at these indices. -/
def fldOf (r : RegAt) (d : FldDesc) : Fld :=
  let i := r.ix.getLast?.getD 0
  ⟨r.off * 8 + d.lo, d.width,
    match d.reset with
    | .const v => v
    | .sense => senseReset i
    | .cred => credReset i
    | .duty => dutyReset i⟩

end Sys2Proof.Machine
end

