-- ==== Sys2Proof/Machine/Maps.lean ====
section
/-!
DEFINITION. Finite maps from naturals as lists of pairs in one order: keys strictly rising, so that equal maps are equal lists.
mapPut keeps that order; mapSetD also drops an entry that equals what a missing key reads as.
-/

namespace Sys2Proof.Machine

/-- A finite map from naturals: (key, value) pairs, keys strictly rising. -/
abbrev NMap (α : Type) := List (Nat × α)

/-- The value under a key. -/
def mapFind {α : Type} : NMap α → Nat → Option α
  | [], _ => none
  | (k, v) :: m, x => if k = x then some v else mapFind m x

/-- The value under a key, or what a missing key reads as. -/
def mapGet {α : Type} (d : α) : NMap α → Nat → α
  | [], _ => d
  | (k, v) :: m, x => if k = x then v else mapGet d m x

/-- The map without a key. -/
def mapErase {α : Type} : NMap α → Nat → NMap α
  | [], _ => []
  | (k, v) :: m, x => if k = x then mapErase m x else (k, v) :: mapErase m x

/-- The map with a value under a key. -/
def mapPut {α : Type} : NMap α → Nat → α → NMap α
  | [], x, a => [(x, a)]
  | (k, v) :: m, x, a =>
    if k = x then (k, a) :: m
    else if x < k then (x, a) :: (k, v) :: m
    else (k, v) :: mapPut m x a

/-- The map with a value under a key, where d is what a missing key reads as: an entry that equals d is dropped. -/
def mapSetD {α : Type} [DecidableEq α] (d : α) (m : NMap α) (x : Nat) (a : α) : NMap α :=
  if a = d then mapErase m x else mapPut m x a

/-- Keys strictly rising. -/
def keysRise {α : Type} : NMap α → Bool
  | [] => true
  | [_] => true
  | (k, _) :: (l, w) :: m => decide (k < l) && keysRise ((l, w) :: m)

/-- The canonical form of a map whose missing keys read d: keys rise and no entry equals d. -/
def canonical {α : Type} [DecidableEq α] (d : α) (m : NMap α) : Bool :=
  keysRise m && m.all (fun e => decide (e.2 ≠ d))

end Sys2Proof.Machine
end

