-- ==== Sys2Proof/Machine/State.lean ====
section
/-!
DEFINITION. The state of the module as plain data: the registers of BAR0, the memories, and what each unit holds beside its registers.
-/

namespace Sys2Proof.Machine

open Sys2Proof

/-- An instruction dispatched to an engine (04 R97, R99): its place in the core's order, its index, its 128-bit word, the
sixteen address bases as they stood at dispatch, and the descriptor that a DX read then (11 R333). -/
structure QEntry where
  seq  : Nat := 0
  idx  : Nat := 0
  word : Nat := 0
  ab   : List Nat := []
  desc : List Byte := []
deriving DecidableEq, Repr

/-- A post or return on its way to a counter (04 R102, R105, R107). -/
structure Post where
  x     : SlotId
  pacer : Bool
  idx   : Nat
  n     : Nat
deriving DecidableEq, Repr

/-- An arrival dispatched and not yet made (04 R112). -/
structure PendArrival where
  entry  : QEntry
  hurdle : Nat
deriving DecidableEq, Repr

/-- One occurrence of a flag, as the exception log keeps it (05 R167, R169, R172): log entry number, source, instruction
index, row and column of the element. -/
structure Occ where
  kind  : Nat
  src   : Nat
  index : Nat
  row   : Nat
  col   : Nat
deriving DecidableEq, Repr

/-- Flags gathered by an operation over many elements: which, how many elements set OVF, and the occurrences. -/
structure FlagSum where
  flags : Flags := {}
  ovfs  : Nat := 0
  occs  : List Occ := []
deriving DecidableEq, Repr

/-- What the checks of a pass compare (05 R153 to R155): the side register of each unfrozen cell (i, j) under i * 128 + j, the checksum row's
lane by column, the checksum column's lane by row, and in K16 the magnitude sums of both; residues modulo 2^31 - 1, in K16 K32 codes. -/
structure PassCheck where
  side    : NMap Nat := []
  rowLane : List Nat := []
  colLane : List Nat := []
  rowMag  : List Nat := []
  colMag  : List Nat := []
  klen    : Nat := 0
deriving DecidableEq, Repr

/-- A pass of the matrix engine that was taken and is not yet verified (05 R135, R157): the values its bank held before it
and after it, and what it flagged. -/
structure Pass where
  entry    : QEntry
  bank     : Nat
  clear    : Bool
  epoch    : Nat                -- status generation of the bank that the pass belongs to (R162)
  ffmt     : Nat
  frozen   : Nat                -- frozen rows, one bit each
  prior    : NMap Nat           -- the bank before the pass
  priorSt  : Nat                -- its status, row mask and status generation before the pass
  priorRm  : Nat
  priorEp  : Nat
  after    : NMap Nat           -- the bank after the pass
  conv     : FlagSum            -- turn buffer
  arith    : FlagSum            -- array
  products : Bool               -- forms products, so is checked (R153)
  places   : List Nat := []     -- window-ring places the pass reads (09 R274)
  compared : Nat := 0           -- comparisons made (R159)
  retries  : Nat := 0           -- times it was the first pass of a re-feed (R158)
  flagsDue : Bool := false      -- the event of R162 has passed: its flags are set at verification
  omitted  : Bool := false      -- reads only padding (09 R265)
  refed    : Bool := false      -- has been fed again and awaits its verification (R166)
  check    : PassCheck := {}    -- what its comparison compares (R154, R155)
deriving DecidableEq, Repr

/-- A token of the exchange zone (05 R163). -/
structure Token where
  status  : Nat
  trow    : Nat
  tcol    : Nat
  index   : Nat
  bank    : Nat
  rowmask : Nat
deriving DecidableEq, Repr

/-- Flags that wait for the event of R162, by bank and status generation: array arithmetic of verified passes, and the
occurrences of conversions and of re-feeds, whose flags are set already. -/
structure PendFlags where
  bank  : Nat
  epoch : Nat
  sum   : FlagSum
  occs  : List Occ
deriving DecidableEq, Repr

/-- Matrix engine and turn buffer of one core (05). -/
structure MxSt where
  banks   : List (NMap Nat) := [[], [], [], []]  -- element (i, j) under i * 128 + j; a missing key is +0
  status  : List Nat := [0, 0, 0, 0]              -- without the arithmetic flags, which `flags` holds
  rowmask : List Nat := [0, 0, 0, 0]
  epoch   : List Nat := [0, 0, 0, 0]             -- status resets of each bank so far in the step
  cur     : Option Pass := none                  -- taken, not retired
  unver   : List Pass := []                      -- retired, not verified, oldest first
  emits   : List QEntry := []                    -- EMITs taken whose token has not entered
  zone    : List Token := []                     -- head first
  flags   : List PendFlags := []
  refeed  : List Pass := []                      -- passes being fed again, oldest first (R158)
  skipped : List Pass := []                      -- retired passes without products behind an unverified one of their bank (R158)
  waits   : List Nat := []                       -- EMITs, by their place in the core's order, that were EMITTING as a re-feed began (R166)
deriving DecidableEq, Repr

/-- A bank held by the chain (06 R199), with what its token carried. -/
structure Held where
  bank    : Nat
  rowmask : Nat
  trow    : Nat
  tcol    : Nat
deriving DecidableEq, Repr

/-- Storage of the chain that a VX reads or writes (06 R201): elements lo to hi of a vector register, a mask register, a
bank, or core-store bytes from lo up to hi. -/
inductive Touch where
  | vr (k lo hi : Nat)
  | mask (k : Nat)
  | bank (b : Nat)
  | store (lo hi : Nat)
deriving DecidableEq, Repr

/-- What a converting write adds to an amax record (03 R89, R94). -/
structure AmaxAdd where
  hist : Nat
  amax : Nat
  sat  : Nat
  nan  : Nat
deriving DecidableEq, Repr

/-- A VX in flight (06 R203): what it will have written when it retires. -/
structure VxFlight where
  entry   : QEntry
  vr      : List (Nat × Nat)           -- vector register elements, vr * 256 + element
  mask    : List (Nat × Nat)           -- mask bits, register * 16384 + row * 128 + column
  banks   : List (Nat × List (Nat × Nat))
  store   : List (Nat × List Byte)
  sum     : FlagSum
  amax    : List AmaxAdd
  rel     : Nat
  elems   : Nat
  handoff : Bool
  hand    : List Byte := []            -- bytes for the packer that no CX_PACK has claimed yet
  handTo  : Nat := 0                   -- place in the core's order of the CX_PACK that claimed them
  handEnd : Nat := 0                   -- and where they end in its tensor
  writes  : List Touch
  trow    : Nat
  tcol    : Nat
deriving DecidableEq, Repr

/-- Decathlon chain of one core (06 R179). CK and configuration slots have their home in the registers CH_CK, CH_CFG. -/
structure ChSt where
  vr   : NMap Nat := []                -- missing key: 0
  mask : NMap Nat := []                -- missing key: 0
  held : List Held := []               -- H0 first
  vxs  : List VxFlight := []           -- in take order
deriving DecidableEq, Repr

/-- A tensor on its way through the packer (10 R303, R307, R315): fed by the handoff of VX instructions, or by a DMA descriptor. -/
structure PackJob where
  entry   : QEntry
  dma     : Bool                       -- a descriptor's job; otherwise a CX_PACK
  tslot   : Nat
  fmt     : Nat
  pay     : Nat
  hdr     : Nat
  block   : Nat                        -- index of the next block
  left    : Nat                        -- handoff VX still to come; 0 for a descriptor
  buf     : List Byte                  -- plain bytes not yet coded
  fed     : Nat := 0                   -- plain bytes that have come for it
  prot    : Bool                       -- the destination area reaches a protected region (R306)
  tries   : Nat                        -- mismatches of the next block (R305)
  done    : Bool
deriving DecidableEq, Repr

/-- A descriptor that expands packed blocks (10 R308, R312). -/
structure ExpJob where
  entry  : QEntry
  stream : Bool
  desc   : List Byte
  taken  : Bool
  begun  : Nat                         -- blocks started
  count  : Nat                         -- blocks in all
  drained : Nat
  tries  : Nat                         -- failed attempts at the next block (R309)
  pin    : Option Nat := none          -- table slot that the block under repetition pins (R299)
  copy   : Bool := false               -- an LCOPY into a protected region: its blocks are stored escaped (R306)
deriving DecidableEq, Repr

/-- One entry of the expansion queue (10 R308). -/
structure ExpEntry where
  job   : Nat                          -- place in the core's order of its descriptor
  dst   : Nat
  data  : List Byte
  pin   : Option Nat                   -- table slot it pins (R299)
  heads : List (Nat × List Byte) := [] -- header to write with it, of an LCOPY into a protected region (R306)
deriving DecidableEq, Repr

/-- A descriptor in flight in the core DMA engine (11 R341). -/
structure DxFlight where
  entry  : QEntry
  stream : Bool
  desc   : List Byte
  done   : Bool                        -- its last write has landed
  epoch  : Nat                         -- epoch a routine's descriptor carries (08 R244)
  kind   : Nat                         -- as in StreamEntry
  page   : Nat
  posts  : List Post                   -- NPOST posts of MCAST (R338), and the post of a stream descriptor
  tag    : Nat := 0                    -- TAG of a REMOTE descriptor that leaves block by block (13 R397)
deriving DecidableEq, Repr

/-- A descriptor in a core's stream queue (08 R241), with the waits and posts the routine gave it. -/
structure StreamEntry where
  desc   : List Byte
  baton  : Nat                         -- baton posted at retirement
  post   : Bool
  pacer  : Option Nat                  -- pacer taken before it
  epoch  : Nat
  kind   : Nat                         -- 0 walk or write, 1 eviction copy, 2 fetch copy, 3 copy-on-write, 4 of a program's routine
  page   : Nat                         -- page record concerned
  runs   : List (Nat × Nat × Nat) := []   -- source, destination, length of what a cache routine's descriptor moves (08 R240, R246)
deriving DecidableEq, Repr

/-- A place of the window ring (09 R274): the input position it holds, the fed codes of its 128 channels, their scale
codes, and the power of two of their conversion. -/
structure RingRow where
  tag    : Nat
  codes  : List Nat
  scales : List Nat
  shift  : Int
deriving DecidableEq, Repr

/-- What one physical core holds beside its registers (04, 05, 06, 10, 11). -/
structure CoreSt where
  occupied : Bool := false             -- the loaded program has a stream here
  instrs   : List Nat := []            -- instruction words
  abInit   : List (Nat × Nat) := []    -- initial current value and wrap base of each address base
  limits   : List Nat := []            -- pacer limits of its stream
  cleared  : Bool := false             -- a reset since LOAD_PROGRAM took the registers that the load had set
  held     : Bool := false             -- its start waits for the copy into its cluster's CO_8 (01 R22)
  seq      : Nat := 0                  -- instructions dispatched in this step
  packLens : List Nat := []            -- plain bytes of each executed CX_PACK of its stream, in order (10 R315)
  packed   : Nat := 0                  -- CX_PACK instructions dispatched in this step
  since    : List Nat := [0, 0, 0, 0, 0, 0]   -- stall clock when the front of the stream, and the head of each queue, came there (04 R119)
  mq : List QEntry := []
  tq : List QEntry := []
  vq : List QEntry := []
  dq : List QEntry := []
  cq : List QEntry := []
  sq : List StreamEntry := []
  lastStream : Bool := false           -- the DMA engine took its stream queue last (08 R241)
  pend     : List PendArrival := []    -- arrivals dispatched, not made
  arrivals : NMap Nat := []            -- hurdle: epoch of the last arrival made
  inWait   : Bool := false             -- the arrival of the ARRIVE_WAIT at the front is dispatched
  mx : MxSt := {}
  ch : ChSt := {}
  packs : List PackJob := []
  exps  : List ExpJob := []
  expq  : List ExpEntry := []
  dxs   : List DxFlight := []
  ring  : NMap RingRow := []
  splits : Nat := 0                    -- entries of the split ring written since LOAD_PROGRAM, up to 64 (04 R131)
deriving DecidableEq, Repr

/-- A request to a cluster control core (04 R122). -/
structure CcReq where
  core    : CoreId
  entry   : QEntry
  routine : Nat
  arg     : Nat
  done    : Bool
deriving DecidableEq, Repr

/-- What one cluster holds beside its registers: its control core's requests, the code lengths of its table slots (10 R297). -/
structure ClusterSt where
  ccq  : List CcReq := []
  imem : NMap Nat := []                -- control core's instruction memory, 64 KiB: bytes that are not 0 (04 R121)
  dmem : NMap Nat := []                -- its data memory, 256 KiB
  tabs : List (List Nat) := List.replicate 16 []
  chains : List (List Byte) := List.replicate 16 (List.replicate 64 0)   -- measurement chain of each table slot (19 R560)
  lastEpoch : Nat := 0                 -- the epoch word as last read here (08 R256)
  copying : Bool := false              -- a copy into CO_8 is due or running (01 R22)
  copies : List (Nat × Nat) := []      -- (from core, slot) to copy to CO_8
  rtBegun : Bool := false              -- the routine at the head of ccq has begun (08 R238)
  rtPos   : Nat := 0                   -- its progress: entries or pages done
  rtSub   : Nat := 0                   -- progress within the position of a seal
  rtCount : Nat := 0                   -- its RESULT so far
  rtEpoch : Nat := 0                   -- epoch read at its start (08 R240)
  rtNode  : Nat := 0xFFFFFFFF          -- node matched or inserted last by a seal (08 R251)
deriving DecidableEq, Repr

/-- A flit of a port (13 R379), before its CRC and FEC. -/
structure Flit where
  seq     : Nat := 0
  typ     : Nat := 0
  ackSeq  : Nat := 0
  ackKind : Nat := 0
  vc      : Nat := 0
  cls     : Nat := 0
  credVc  : Nat := 0
  credCls : Nat := 0
  cred    : Nat := 0
  payload : List Byte := []
  time    : Nat := 0                   -- timebase when its last bit left (R385); no part of the flit
deriving DecidableEq, Repr

/-- A flit that waits for a port (13 R402, R407): its type, channel, class and payload; origin says it starts here. -/
structure OutFlit where
  typ     : Nat
  vc      : Nat
  cls     : Nat := 0
  dst     : Nat := 0
  payload : List Byte
  origin  : Bool := true
  inPort  : Nat := 0                   -- port it came in by, when it is passed on
  inPool  : Nat := 0                   -- and the credit pool it lies in there (13 R387)
deriving DecidableEq, Repr

/-- A message that is arriving on one channel and class of one port (13 R397, R398). -/
structure RxStream where
  header : List Byte
  data   : List Byte
  need   : Nat                         -- data bytes still to come
  fwd    : Option Nat                  -- port the message leaves by, when it is not for this module
  drop   : Bool                        -- its flits are discarded
  cut    : Bool := false               -- because the port that it left by retired (13 R408)
deriving DecidableEq, Repr

/-- One fabric port beside its registers (13). -/
structure PortSt where
  q        : List OutFlit := []        -- waiting flits, oldest first
  sent     : List Flit := []           -- replay buffer: sent, not acknowledged, oldest first (R383)
  resend   : List Flit := []           -- flits to send again before any new one (R385, R407)
  txNext   : Nat := 0                  -- SEQ of the next new routed flit
  rxLast   : Nat := 4095               -- SEQ of the last accepted routed flit
  oweAck   : Nat := 0                  -- 0 none, 1 ACK, 2 NAK, 3 HOLD
  nakOpen  : Bool := false             -- a NAK was sent and the missing flit has not come (R384)
  holding  : Bool := false             -- the partner's HOLD is in force (R393)
  credOwed : NMap Nat := []            -- credits to return, by pool
  rr       : Nat := 0                  -- data pool served last (R407)
  fails    : Nat := 0                  -- failed retrain attempts in a row (R392)
  removed  : Nat := 0                  -- lanes removed, one bit each
  errBase  : List Nat := List.replicate 8 0   -- FP_LANE_ERR when the port last became ACTIVE
  replays  : List Nat := []            -- times of replays (18 R516)
  thresh   : Bool := false             -- the replay threshold is met
  partner  : Bool := false             -- a partner is present
  limits   : List Nat := []            -- partner's credit limits
  rx       : NMap RxStream := []       -- arriving messages by pool
  locks    : NMap Nat := []            -- by pool: the message that has begun to leave and not ended (13 R398)
  startAt  : Nat := 0                  -- timebase of its start (R406)
  started  : Bool := false             -- past its start of R390
  holdTo   : Nat := 0                  -- timebase until which the partner's HOLD lasts (R393)
  identAt  : Nat := 0                  -- timebase of the last IDENT (R394)
  detectAt : Nat := 0                  -- timebase of the last look for a partner (R389)
  repair   : Bool := false             -- REPAIR_PART retrains it on all lanes (18 R535)
deriving DecidableEq, Repr

/-- A data message (13 R397). -/
structure Msg where
  vc      : Nat
  dst     : Nat
  src     : Nat
  tag     : Nat
  last    : Bool
  hops    : Nat
  tgt     : Nat
  npost   : Nat
  addr    : Nat
  data    : List Byte
  cred    : Option (Nat × Nat × Nat) := none   -- the receive buffer it occupies: port, pool, flits (13 R387)
deriving DecidableEq, Repr

/-- A HURDLE (5) or MGMT (6) flit that has arrived: its type, the port whose receive buffer it occupies, its payload. -/
structure CtrlFlit where
  typ     : Nat
  inPort  : Nat
  payload : List Byte
deriving DecidableEq, Repr

/-- A FEATURES message as kept (13 R396). -/
structure Feature where
  src     : Nat
  vc      : Nat
  kind    : Nat
  rank    : Nat
  members : Nat
  crc     : Nat
  feat    : Nat
deriving DecidableEq, Repr

/-- A COMMIT message as kept (16 R482). -/
structure CommitMsg where
  src    : Nat
  step   : Nat
  round  : Nat
  skip   : Bool
  replay : Nat
deriving DecidableEq, Repr

/-- A STOPPED or DRAIN message of a replay as kept (18 R524 to R526). -/
structure ReplayMsg where
  src   : Nat
  step  : Nat
  id    : Nat
  kind  : Nat
  round : Nat
  set   : Nat
  dirty : Bool
deriving DecidableEq, Repr

/-- A journalled command (16 R464 to R467). -/
structure Cmd where
  ring    : Nat
  seq     : Nat
  entry   : List Byte
  started : Bool := false
  fin     : Option (Nat × Nat) := none   -- executed: the status and detail that wait for their place in order (R465, R468)
  status  : Option (Nat × Nat) := none   -- terminal status and detail
  result  : List Byte := List.replicate 16 0
  time    : Nat := 0
  replayed : Bool := false                -- run again after a restart of the marshal (18 R514): it ends RECOVERED
  rolled   : Bool := false                -- rolled back by a replay (16 R491): it no longer overlaps
  entryIn  : Bool × Bool := (false, false) -- the mirrors behind UD_0 and UD_2 hold its entry (R464)
  statusIn : Bool × Bool := (false, false) -- and its terminal status (R465)
  ver      : Nat × Nat := (1, 0)          -- the ring's version for this entry, major and minor (R474)
deriving DecidableEq, Repr

/-- A completion entry owed for a taken entry (16 R460), in take order. -/
structure Owed where
  ring     : Nat
  seq      : Nat
  head     : Nat
  opcode   : Nat
  irq      : Bool
  accepted : Bool
  status   : Nat                        -- of an entry that was not accepted
  info     : Nat
deriving DecidableEq, Repr

/-- The step that runs or awaits commit (16 R479 to R483). -/
structure StepRun where
  ring     : Nat
  seq      : Nat
  step     : Nat
  program  : Bool := false              -- a RUN_PROGRAM
  commit   : Bool := false              -- RFLAGS COMMIT
  rounds   : Nat := 0
  roundVc  : Nat := 0
  limit    : Nat := 0
  halted   : Bool := false              -- every occupied core has halted
  committing : Bool := false
  cRing    : Nat := 0                   -- the command whose completion the commit gives
  cSeq     : Nat := 0
  cRounds  : Nat := 0
  cRoundVc : Nat := 0
  round    : Nat := 0                   -- commit round that runs
  sentCommit : Bool := false            -- the first COMMIT message has left (18 R521)
  skip     : Bool := false
  replays  : Nat := 0
  started  : Bool := false              -- cores started (it may wait for PENDING bindings)
  cTime    : Nat := 0                   -- timebase at which the commit began (16 R483)
  cLimit   : Nat := 0                   -- LIMIT_MS of the commit
deriving DecidableEq, Repr

/-- What the replay protocol holds beside ID_REPLAY (18 R522 to R529). -/
structure ReplaySt where
  id      : Nat := 0
  step    : Nat := 0
  round   : Nat := 0
  msgs    : List ReplayMsg := []
  dirty   : Bool := false               -- own DIRTY of the next set
  orDirty : Bool := false               -- ORed over the rounds of the set so far
  held    : List Msg := []
  reported : Bool := false              -- the report of the current set was sent
  set     : Nat := 0                    -- drain set that runs
  rejoin  : Option (Nat × Nat) := none  -- after a warm reset: the step that was uncommitted and its REPLAY_ID (18 R533)
  rounds  : Nat := 0                    -- ROUNDS and ROUND_VC of the last RUN_STEP that began (18 R520)
  roundVc : Nat := 0
deriving DecidableEq, Repr

/-- What a commit records of one core, cluster or table so that a replay restores it (18 R529). -/
structure Snapshot where
  regs     : List (Nat × Nat) := []
  tabs     : List (Nat × List (List Nat)) := []
  chains   : List (Nat × List (List Byte)) := []
  amax     : List Byte := []
  hurdles  : List (Nat × Nat × Nat) := []   -- hurdle arrival bits
deriving DecidableEq, Repr

/-- A function table pair (06 R189, R192): tables A and B, and their generation. -/
structure FtPair where
  gen   : Nat
  data  : List Byte
deriving DecidableEq, Repr

/-- The update tables (12 R347 to R352): job record, group table, curve table, tensor table. -/
structure UpdTables where
  job    : List Byte
  group  : List Byte
  curve  : List Byte
  tensor : List Byte
deriving DecidableEq, Repr

/-- A unit of an armed relay table (14 R416): trigger hurdle and pass, blocks, local contribution, reduced records. -/
structure RelayUnit where
  hurdle : Nat
  passno : Nat
  blocks : Nat
  contrib : Nat
  out    : Nat
deriving DecidableEq, Repr

/-- The relay engines of a step (14). Channel 0 is the data channel, 1 the gather channel. -/
structure RelaySt where
  calls    : Nat := 0                   -- RR_ARM calls in this step
  dvc      : Nat := 0
  gvc      : Nat := 0
  slots    : Nat := 0
  recv     : Nat := 0
  grecv    : Nat := 0
  rel      : Nat := 0
  chain    : Nat := 0
  chainLen : Nat := 0
  norm     : Nat := 0
  units    : List RelayUnit := []
  passes   : NMap Nat := []             -- hurdle: passes since step start (R419)
  arrived  : List (Nat × Nat × Nat) := []   -- channel, stream, slot of records arrived and not processed
  seen     : List (Nat × Nat × Nat) := []   -- records processed
  sent     : List Nat := [0, 0]         -- streams wholly sent, by channel
  opened   : List Bool := [false, false]    -- the next stream has begun
  nextSlot : List Nat := [0, 0]         -- its next slot
  counts   : NMap Nat := []             -- unit: COUNT of the summary that came (R425)
  chains   : List (Nat × Nat) := []     -- unit and kind (0 running sums, 1 final sums, 2 running norm, 3 final norm) that have come
  ready    : List Nat := []             -- units reduced, in the order they became so (R435)
deriving DecidableEq, Repr

/-- A reduced block as the gradient buffer holds it (12 R346, R362): 1 K8E codes, 2 K16 codes, or 0 for an OUT slot with no record of
the block; the codes' bytes, the wire scale, and the AMAX and SUMSQ of its trailer (14 R428). -/
structure HeldBlock where
  kind  : Nat
  data  : List Byte
  scale : Nat
  amax  : Nat
  sumsq : Nat
deriving DecidableEq, Repr

/-- A buffer half of an update die (12 R356, R357): the unit, the chunk of the die's share, the reading, statistics formed, and the
blocks that it holds by their number in the unit. -/
structure UdHalf where
  unit   : Nat
  chunk  : Nat
  second : Bool
  stat   : Bool
  blocks : NMap HeldBlock := []
deriving DecidableEq, Repr

/-- One update die beside its registers (12 R346, R356 to R360). -/
structure UdSt where
  halves : List UdHalf := []
  sums   : NMap (List Nat) := []        -- unit: running sums with this die's partials so far
  chunks : NMap Nat := []               -- unit: chunks whose partials are added
  read2  : NMap Nat := []               -- unit: chunks updated
  norms  : NMap Nat := []               -- unit: running sum of squares with this die's blocks
  done   : List Nat := []               -- units whose update is complete
deriving DecidableEq, Repr

/-- The parts of a loaded program image that are used after its load (04 R123 to R127). -/
structure Program where
  ranges   : List (Nat × Nat × Nat) := []   -- base, length, access bits (R125)
  routines : List (Nat × Nat × Nat × Nat) := []   -- cluster key, routine number, kind, entry (R126)
  hurdles  : Nat := 0
  amaxBase : Nat := 0
  amaxLen  : Nat := 0
  stall    : Nat := 0
  arms     : Bool := false                  -- a stream calls RR_ARM (16 R479)
  rewrites : Bool := false                  -- a range that the program reads is written (16 R480)
  vcs : List Nat := []                      -- channels of its group-scope hurdles and REMOTE descriptors (16 R479)
  flush    : Bool := false                  -- FLAGS DENORM_FLUSH (02 R67)
  image    : List Byte := []                -- as it was loaded: its measurement (19 R559)
deriving DecidableEq, Repr


/-- The rollout cache beside its records in memory (08 R235, R243, R249, R254): the configuration record adopted, the prefix
nodes' 32-byte records by global index, evictions under way (page, slow-tier slot, cancelled), fetches under way (page, HBM slot), HBM slots that
wait for quiet (slot, stamp, home), the epoch of each page's last walk, DEFERRED pages whose SLOT is a slow-tier slot. -/
structure RolloutSt where
  conf    : List Byte := []
  nodes   : NMap (List Byte) := []
  evicts  : List (Nat × Nat × Bool) := []
  fetches : List (Nat × Nat) := []
  quiets  : List (Nat × Nat × Nat) := []
  walked  : NMap Nat := []
  outPages : List Nat := []
deriving DecidableEq, Repr

/-- A signature that the security engine owes (19 R558): for an ATTEST of a ring (ring, sequence number, host address), or for an
SPDM request of a transport (0 DOE, 1 MCTP). -/
inductive SigReq where
  | attest (ring seq host : Nat) (report : List Byte)
  | spdm (via : Nat) (data : List Byte)
deriving DecidableEq, Repr

/-- What the module answered on the host link or the sideband, oldest first. -/
inductive Reply where
  | retryStatus                                        -- Configuration Request Retry Status (15 R443)
  | unsupported                                        -- Unsupported Request (01 R31)
  | snoop (addr : Nat)                                 -- RspIHitI (15 R448)
  | memData (dpa : Nat) (data : List Byte) (poison : Bool)   -- CXL.mem read (15 R449, R450)
  | memDone (dpa : Nat)                                -- CXL.mem write
  | biSnp (addr : Nat)                                 -- BISnpInv of a window line (15 R451)
  | mailbox (via code : Nat)                           -- FW_RECOVER (19 R556): 0 Success, else the error
  | doe (vendor typ : Nat) (body : List Byte)          -- a DOE object (15 R453)
  | sideband (typ : Nat) (body : List Byte)            -- an MCTP message (19 R563)
  | spdm (via : Nat) (body : List Byte)                -- an SPDM response over DOE (0) or MCTP (1)
  | outcome (via : Nat) (ok : Bool)                    -- a request in a secured session was done, or refused with an error (19 R557, R562)
deriving DecidableEq, Repr

/-- A window line that the module has written while its BISnpInv is outstanding (15 R451, R452): its address, what the host still reads of it,
the poison mark that goes with that, and the bytes that the module has written (bit i: byte i). -/
structure BiWait where
  line : Nat
  old  : List Byte
  bad  : Bool
  mine : Nat
deriving DecidableEq, Repr

/-- The configuration space of the one function (15 R440, R445, R446, R448): identity, BARs, capabilities and what they advertise. Offsets within
the space are PCI Express's and are not modelled; no command of the table writes it but by a reset of the link. -/
structure PciFunction where
  vendor     : Nat := 0x1F3B
  device     : Nat := 0x0640
  subVendor  : Nat := 0x1F3B
  subsystem  : Nat := 0x0640
  revision   : Nat := 0xA1
  class_     : Nat := 0x120000
  bar0       : Nat := 0                         -- address that the host assigns
  bar0Bytes  : Nat := 0x4000000                 -- 64-bit memory, non-prefetchable
  otherBars  : List Nat := [0, 0, 0, 0, 0]      -- BAR2 to BAR5 and the expansion ROM
  msixSize   : Nat := 256
  msixTable  : Nat := 0x28000                   -- table and pending-bit array in the EVC block (17 R501)
  msixPba    : Nat := 0x29000
  endpoint   : Bool := true
  payloadMax : Nat := 512
  readMax    : Nat := 4096
  tags14     : Bool := false                    -- 10-bit tags; 14-bit in 256-byte flit mode
  dvsecs     : List Nat := [0, 7, 8]            -- CXL DVSEC for Devices, Flex Bus Port, Register Locator
  locator    : List Nat := [0x60000, 0x68000]   -- component registers, device registers (15 R447)
  cacheSize  : Nat := 0                         -- no host line is retained (15 R448)
  protocols  : List Nat := [0, 1, 2]            -- CXL.io, CXL.cache, CXL.mem: type 2
  hdmCount   : Nat := 1
  widths     : List Nat := [8, 4]
  rates      : List Nat := [6, 5]               -- 64 GT/s, 32 GT/s in CXL mode
  virtuals   : Nat := 0                         -- no SR-IOV, ARI or Function Level Reset
  ideStreams : Nat := 2                         -- one link stream, one selective stream; containment mode
  extended   : List Nat := [0x2E, 0x30, 0x2A, 0x31, 0x25, 0x01]   -- DOE, IDE, Physical Layer 32 and 64 GT/s, Data Link Feature, AER
deriving DecidableEq, Repr

/-- The FW_RECOVER receive buffer (19 R556): the transport that holds it (0 mailbox, 1 sideband), LEN, the bytes. -/
structure Recover where
  via  : Nat
  len  : Nat
  data : List Byte
deriving DecidableEq, Repr

/-- How far bring-up has come (19 R541 to R546), and PERST_N. -/
structure BootSt where
  start    : Nat := 0                  -- timebase at step 1, or at the start of the warm reset
  rails    : Bool := false             -- hub out of reset (step 2)
  block    : Bool := false             -- the starting block runs (step 3)
  verified : Bool := false             -- step 4
  sections : Bool := false             -- step 5
  released : Bool := false             -- step 6
  releasedAt : Nat := 0                -- timebase then
  cxl      : Bool := false             -- step 8 has begun
  trained  : Bool := false             -- the host link has trained once since power-on
  dram     : Bool := false             -- step 10
  perst    : Bool := true              -- PERST_N is low: unconnected it holds the host link in reset (20 R581)
  perstAt  : Nat := 0                  -- timebase of the last assertion
  shut     : Bool := false             -- after a thermal shutdown (20 R576)
deriving DecidableEq, Repr

/-- The power manager beside its registers (20 R568 to R575): the duties imposed by the power limit, by the brake and by each die's
thermal throttle, the end of the wait after a step, the alert conditions in force, the end of the rise after a brake. -/
structure PowerSt where
  limit  : Nat := 8
  brake  : Nat := 8
  dies   : List Nat := List.replicate 8 8
  waitTo : Nat := 0
  conds  : Nat := 0
  riseAt : Nat := 0
deriving DecidableEq, Repr

/-- The event controller beside its registers (17 R496 to R503): the last level seen of each level input, the EVC_SRC_CFG word of
each active source at its delivery, slices that sleep (0 to 79 clusters, 80 to 87 dies), completions that wait for a wake, the
whole function masked, timebase of the last message and of the capture in EVC_CSAT. -/
structure EventSt where
  levels   : NMap Nat := []
  active   : NMap Nat := []
  slept    : List Nat := []
  deferred : List Nat := []
  masked   : Bool := false
  msgAt    : Option Nat := none
  csatAt   : Nat := 0                  -- timebase at which EVC_CSAT captured (R506)
deriving DecidableEq, Repr

/-- The window of a retired part as it stood at retirement (01 R36): its unit, base and size, and what its registers were read from. -/
structure Frozen where
  unit  : Nat
  base  : Nat
  size  : Nat
  regs  : NMap Nat
  cores : NMap CoreSt
  ports : NMap PortSt
  ftabs : NMap FtPair
deriving DecidableEq, Repr

/-- Fault reasons at which the block itself would stop: none. The spec describes every fault of the module as a next state
(18 R514); a command whose operands no sender can form has a next state too (log 5). -/
inductive Fault where
deriving DecidableEq, Repr

/-- Why a command has no meaning. -/
inductive Refusal where
  /-- A command that has no meaning in the model yet, by its mnemonic. Safe: nothing is proved of it. -/
  | notModelled (mnemonic : String)
deriving DecidableEq, Repr

/-- The module. Registers: by the address of a field's lowest bit (8 times the BAR0 offset plus the bit); a missing entry
holds the field's reset value (RegMap). Memory: bytes by physical key; a missing entry reads 0. -/
structure State where
  regs     : NMap Nat := []
  latches  : List (Nat × Nat × Nat) := []       -- requester, offset, latched upper half (01 R32)
  readout  : List (Nat × Nat) := []             -- offset and value of register reads, oldest first
  mem      : List Host.Cell := []
  poison   : List Nat := []                     -- poisoned 256-byte lines (11 R322)
  lineKeys : NMap Nat := []                     -- 256-byte line: key it was written under, plus 1 (11 R343)
  free     : Nat := 0                           -- draws of free values so far (the model's own)
  fired    : List Nat := []                     -- event inputs raised by other commands (17 R497)
  cores    : NMap CoreSt := []
  clusters : NMap ClusterSt := []
  prog     : Option Program := none
  pair     : Option (Nat × Nat × Nat) := none   -- generation pair in force: PAIR_A, PAIR_B, PAIR_LEN (12 R369)
  keySlots : NMap Nat := []                     -- security engine key slots that hold a key (19 R562)
  posts    : List Post := []                    -- posts and returns on their way
  stallClock : Nat := 0                         -- nanoseconds in which the wait timers ran (04 R119, 20 R569)
  reporting : List Nat := []                    -- modules that reported a replay which this one did not join (04 R119)
  ports    : NMap PortSt := []                  -- fabric ports by number
  wire     : List (Nat × List Byte) := []       -- flits sent, by port, oldest first: 256 bytes each
  groups   : List (List Nat) := List.replicate 6 []   -- member list of each channel in rank order (16 R476)
  bindRec  : List Byte := []                    -- group record of the BIND_GROUPS in force (16 R476, 19 R559)
  features : List Feature := []                 -- FEATURES messages kept
  tags     : NMap Nat := []                     -- next descriptor tag, by channel (13 R397)
  inbox    : List Msg := []                     -- data messages that have arrived whole
  hurdleBits : List (Nat × Nat × Nat) := []     -- hurdle, epoch, rank of the member arrivals counted (13 R400)
  journal  : List Cmd := []                     -- accepted commands in acceptance order (16 R464, R467)
  owed     : List Owed := []
  lastRing : Nat := 15                          -- ring an entry was last taken from (16 R459)
  hostOut  : List (Nat × List Byte) := []       -- writes to host memory, oldest first: address and bytes
  msixOut  : List (Nat × Nat) := []             -- MSI-X messages sent, oldest first: address and data (17 R498)
  ctrlIn   : List CtrlFlit := []                -- HURDLE and MGMT flits that have arrived (13 R400, R401)
  run      : Option StepRun := none
  firstRun : Bool := false                      -- no RUN_STEP has begun since LOAD_PROGRAM (16 R480)
  failedStep : Option Nat := none               -- step that ended FAULT_FATAL since the last commit or load: its number may run again (16 R480)
  commits  : List CommitMsg := []
  replay   : ReplaySt := {}
  snapshot : Snapshot := {}
  faults   : List (Nat × Nat) := []             -- STEP-class faults (unit, cause) that wait for REPLAY_START
  ueTimes  : List (Nat × Nat) := []             -- part key and time of each uncorrectable error (18 R516)
  ceTimes  : List (Nat × Nat) := []             -- part key and time of each corrected error of DRAM
  retired  : List Nat := []                     -- unit addresses the marshal records as retired (18 R519)
  frozen   : List Frozen := []                  -- windows of retired parts (01 R36)
  remaps   : List (Nat × Nat × Nat) := []       -- pending remaps: cluster key, slot, core or 15 (01 R21, R25)
  storeErrs : NMap Nat := []                    -- error counters of core and cluster stores, by unit address (01 R18)
  ftabs    : NMap FtPair := []                  -- function table pairs in force, 0 to 15 (06 R189 to R192)
  ftPend   : NMap FtPair := []                  -- pairs that wait for the step boundary
  upd      : Option UpdTables := none           -- update tables in force (12 R347)
  pageDone : List (Nat × Nat) := []             -- page copies that have retired: kind (1 eviction, 2 fetch) and page record
  relay    : RelaySt := {}
  uds      : List UdSt := [{}, {}, {}, {}]      -- the update dies
  curves   : List Nat := []                     -- values of the 256 curves at the step's number (12 R350)
  normDone : Bool := false                      -- the norm pass of the step has run (12 R360)
  updPend  : Option UpdTables := none           -- update tables that wait for the step boundary
  partCmds : List (Nat × Nat × Nat × Nat) := [] -- part commands under way: opcode, unit, ring, sequence number (18 R535)
  powered  : Bool := false                      -- power is applied (19)
  staged   : Option (Nat × Nat) := none         -- staged firmware image: address and length of its locked range (19 R550)
  tbHalf   : Bool := false                      -- first ns of two under a negative TB_ADJ (17 R509)
  boards   : List Nat := List.replicate 8 16    -- lanes of each board link in use, 0 retired (18 R516)
  boardRemoved : List Nat := List.replicate 8 0 -- lanes of each board link removed, one bit each (18 R516)
  boardFails : List Nat := List.replicate 8 0   -- failed training attempts of each board link in a row
  ucie     : NMap Nat := []                     -- failed lanes by panel link, UCIe module and direction (01 R14)
  ucieDis  : List Nat := []                     -- UCIe modules disabled: link * 64 + module
  portsHeld : List Nat := []                    -- repaired ports that enter the route sets at the next step boundary (18 R536)
  ceRows   : NMap Nat := []                     -- scrub passes that corrected a row, by unit and row (11 R324)
  softRows : List Nat := []                     -- rows that await a soft repair
  hardRows : List Nat := []                     -- rows that await a hard repair at the next REPAIR_PART
  udFault  : List Nat := []                     -- update dies with a fault (17 R495)
  biWait   : List BiWait := []                  -- window lines whose BISnpInv is outstanding (15 R451, R452)
  pci      : PciFunction := {}                  -- the configuration space (15 R446)
  rollout  : RolloutSt := {}
  events   : EventSt := {}
  boot     : BootSt := {}
  power    : PowerSt := {}
  fuseSvn  : Nat := 0                           -- fused SVN (19 R549)
  flash    : List Byte := []                    -- image area of the boot flash as programmed (19 R547)
  running  : List Byte := []                    -- running firmware image (19 R546)
  recover  : Option Recover := none
  certs    : NMap (List Byte) := []             -- provisioned certificate slots 1 to 7 (19 R557)
  sessions : List Nat := []                     -- transports with a secured SPDM session: 0 DOE, 1 MCTP (19 R558)
  ideKeys  : List (Nat × Nat) := []             -- IDE keys in force by stream (15 R455)
  ideNext  : List (Nat × Nat) := []             -- IDE keys programmed for the next switch-over (15 R452)
  sigs     : List SigReq := []                  -- signatures owed, oldest first
  replies  : List Reply := []
  dynAddr  : Option Nat := none                 -- I3C dynamic address (19 R563)
  pending  : List Instr := []                   -- the queue of commands
deriving DecidableEq, Repr

/-- The machine right after reset: power not yet applied, every register at its reset value, nothing held, no command waiting. Log 9 (DEDUCED). -/
def State.reset : State := {}

end Sys2Proof.Machine
end

