-- ==== Sys2Proof/Machine/Ops.lean ====
section
/-!
DEFINITION. The named operations over registers and memory: fields, device counters, discarded writes, event inputs, the
remap table, the module address map and its bytes.
-/

namespace Sys2Proof.Machine

open Sys2Proof

/-! Register fields. -/

/-- The value of a field. -/
def rd (s : State) (f : Fld) : Nat := mapGet f.reset s.regs f.at_

/-- The state with a field written; what does not fit the field is cut off. -/
def wr (s : State) (f : Fld) (v : Nat) : State :=
  { s with regs := mapSetD f.reset s.regs f.at_ (v % 2 ^ f.width) }

/-- A one-bit field as a Bool. -/
def rdb (s : State) (f : Fld) : Bool := rd s f == 1

/-- The state with fields written one after another. -/
def wrAll (s : State) (l : List (Fld × Nat)) : State := l.foldl (fun t e => wr t e.1 e.2) s

/-! Event inputs, device counters, discarded writes. -/

/-- An input of an event source was raised by another command; EVENT_FIRING takes it (17 R497). -/
def raise (s : State) (src : Nat) : State := { s with fired := s.fired ++ [src] }

/-- Hub event source of a local index (17 R494). -/
def hubSrc (l : Nat) : Nat := 3584 + l

/-- Compute-die event source. -/
def dieSrc (d l : Nat) : Nat := 448 * d + 400 + l

/-- Cluster event source. -/
def clSrc (k : ClusterId) (l : Nat) : Nat := 448 * k.die.val + 40 * k.cl.val + l

/-- The counter-saturation source of the owner of a register counter (17 R495, R505), by BAR0 offset. -/
def satSource (off : Nat) : Nat :=
  if 0x1000000 ≤ off then
    let d := (off - 0x1000000) / 0x200000
    let r := (off - 0x1000000) % 0x200000
    if r < 0x140000 then 448 * d + 40 * (r / 0x20000) + 16 else dieSrc d 9
  else if 0x300000 ≤ off && off < 0x340000 then dieSrc ((off - 0x300000) / 0x8000) 9
  else if 0x100000 ≤ off && off < 0x200000 && off % 0x10000 < 0x8000 then dieSrc ((off - 0x100000) / 0x20000) 9
  else hubSrc 29

/-- The value at which every device counter saturates (17 R505). -/
def counterMax : Nat := 2 ^ 64 - 1

/-- EVC_CSAT captures the first counter that saturated; of those of one moment that with the lowest address (17 R506). -/
def noteSat (s : State) (mem : Bool) (addr : Nat) : State :=
  if rdb s F.EVC_CSAT_VALID && !(s.events.csatAt == rd s F.TB_NOW_TIME && decide (addr < rd s F.EVC_CSAT_ADDR)) then s
  else wrAll { s with events := { s.events with csatAt := rd s F.TB_NOW_TIME } }
    [(F.EVC_CSAT_VALID, 1), (F.EVC_CSAT_MEM, b2n mem), (F.EVC_CSAT_ADDR, addr)]

/-- A counter saturated: it is captured, and EVC_CNT_2 counts it (17 R506, R512); EVC_CNT_2 saturates itself by the same rules. -/
def captureSat (s : State) (mem : Bool) (addr : Nat) : State :=
  let s := noteSat s mem addr
  let f := F.EVC_CNT_COUNT 2
  if rd s f + 1 < counterMax then wr s f (rd s f + 1)
  else if rd s f = counterMax then s
  else raise (noteSat (wr s f counterMax) false (f.at_ / 8)) (hubSrc 29)

/-- A device counter advances by n (17 R505, R506); ovf is the counter's own OVF bit where it has one. Log 95 (DEDUCED). -/
def bumpOvf (s : State) (f : Fld) (n : Nat) (ovf : Option Fld) : State :=
  let v := rd s f
  if v + n < counterMax then wr s f (v + n)
  else if v = counterMax then s
  else
    let s := wr s f counterMax
    let s := match ovf with
      | some o => wr s o 1
      | none => s
    raise (captureSat s false (f.at_ / 8)) (satSource (f.at_ / 8))

/-- A device counter without an OVF bit advances by n. -/
def bump (s : State) (f : Fld) (n : Nat) : State := bumpOvf s f n none

/-- A discarded register write is recorded in ID_RSVD_WR (00 R8, 01 R33, R38). -/
def recordRsvd (s : State) (off : Nat) : State :=
  let s := bumpOvf s F.ID_RSVD_WR_CNT_COUNT 1 (some F.ID_RSVD_WR_OVF)
  if rdb s F.ID_RSVD_WR_FIRST_VALID then s
  else raise (wrAll s [(F.ID_RSVD_WR_FIRST_VALID, 1), (F.ID_RSVD_WR_FIRST_OFFSET, off)]) (hubSrc 24)

/-- One draw of a free value below 2^width: the spec leaves the value open (Config.freeNat). -/
def drawFree (s : State) (width : Nat) : Nat × State :=
  (Config.freeNat s.free % 2 ^ width, { s with free := s.free + 1 })

/-! Units. -/

/-- What a physical core holds beside its registers. -/
def core (s : State) (c : CoreId) : CoreSt := mapGet {} s.cores c.key

/-- The state with a core's holdings replaced. -/
def setCore (s : State) (c : CoreId) (x : CoreSt) : State := { s with cores := mapPut s.cores c.key x }

/-- What a cluster holds beside its registers. -/
def cluster (s : State) (k : ClusterId) : ClusterSt := mapGet {} s.clusters k.key

/-- The state with a cluster's holdings replaced. -/
def setCluster (s : State) (k : ClusterId) (x : ClusterSt) : State := { s with clusters := mapPut s.clusters k.key x }

/-- Every cluster of the module. -/
def allClusters : List ClusterId :=
  (List.finRange 8).flatMap (fun d => (List.finRange 10).map (fun k => ⟨d, k⟩))

/-- Every physical core of the module. -/
def allCores : List CoreId :=
  allClusters.flatMap (fun k => (List.finRange 9).map (fun j => ⟨k.die, k.cl, j⟩))

/-- The field of CL_REMAP that names the physical core serving a slot (01 R25). -/
def remapFld (k : ClusterId) (slot : Nat) : Fld := ⟨clusterBase k * 8 + 4 * slot, 4, slot⟩

/-- The physical core that serves a slot (01 R19); none where the slot is unmapped. -/
def slotCore (s : State) (x : SlotId) : Option CoreId :=
  let v := rd s (remapFld x.cluster x.slot.val)
  if h : v < 9 then some ⟨x.die, x.cl, ⟨v, h⟩⟩ else none

/-- The slot that a physical core serves. -/
def coreSlot (s : State) (c : CoreId) : Option SlotId :=
  ((List.finRange 8).map (fun j => (⟨c.die, c.cl, j⟩ : SlotId))).find? (fun x => slotCore s x = some c)

/-- The slot number of a core for logs and addresses; 0 for a core that serves none. -/
def slotNum (s : State) (c : CoreId) : Nat :=
  match coreSlot s c with
  | some x => x.slot.val
  | none => 0

/-- The physical core with a record key. -/
def coreOfKey (n : Nat) : CoreId :=
  ⟨⟨n / 90 % 8, Nat.mod_lt _ (by decide)⟩, ⟨n / 9 % 10, Nat.mod_lt _ (by decide)⟩, ⟨n % 9, Nat.mod_lt _ (by decide)⟩⟩

/-- The cores that hold a stream of the loaded program. -/
def occupiedCores (s : State) : List CoreId :=
  (s.cores.filter (fun e => e.2.occupied)).map (fun e => coreOfKey e.1)

/-- RESET_PART holds a unit (18 R535). -/
def resetHolds (s : State) (u : Nat) : Bool := s.partCmds.any (fun p => p.1 == 0x52 && p.2.1 == u)

/-- A compute die is PARKED (20 R573). -/
def dieParked (s : State) (d : Nat) : Bool := rd s (F.PWR_CL_STATE_DIE d) == 1 || resetHolds s (0x2000 + d)

/-- An update die is PARKED (20 R573). -/
def udParked (s : State) (m : Nat) : Bool := bit (rd s F.PWR_UD_STATE_PARKED) m || resetHolds s (0x4000 + m)

/-- The journal mirror behind UD_m, m 0 or 2, is in service (16 R464): its slow tier has trained, the die is in RUN and a board link to it
is in service. -/
def mirrorOk (s : State) (m : Nat) : Bool :=
  rdb s (if m = 0 then F.CMD_STAT_MIR_A else F.CMD_STAT_MIR_B) && !udParked s m
    && (s.boards.getD m 16 != 0 || s.boards.getD (m + 4) 16 != 0)

/-! Module addresses, 11 R319. -/

/-- HBM bytes populated in each stack window. -/
def hbmSize : Nat := 0xB2D05E000

/-- Slow-tier bytes populated in each update die's window. -/
def slowSize : Nat := 0xB2D05E0000

/-- First offset of the firmware area in each slow-tier window (11 R328). -/
def fwOffset : Nat := 0xB2C05E0000

/-- Bytes of a core store and of a cluster store (01 R16). -/
def coreStoreSize : Nat := 0x300000

/-- Bytes of a cluster store. -/
def clusterStoreSize : Nat := 0x1800000

/-- Module address of the core store of a slot (11 R319). -/
def coreStoreBase (x : SlotId) : Nat :=
  0x300000000000 + x.die.val * 0x40000000 + x.cl.val * 0x2000000 + x.slot.val * 0x400000

/-- Module address of a cluster store (11 R319). -/
def clusterStoreBase (k : ClusterId) : Nat := 0x200000000000 + k.die.val * 0x40000000 + k.cl.val * 0x2000000

/-- What an address lies in. -/
inductive Region where
  | hbm (stack off : Nat)
  | slow (die off : Nat)
  | clusterStore (k : ClusterId) (off : Nat)
  | coreStore (x : SlotId) (off : Nat)
  | unmapped
deriving DecidableEq, Repr

/-- The module address map (11 R319). -/
def regionOf (a : Nat) : Region :=
  if a < 0x10000000000 then
    if a % 0x1000000000 < hbmSize then .hbm (a / 0x1000000000) (a % 0x1000000000) else .unmapped
  else if 0x100000000000 ≤ a && a < 0x140000000000 then
    let r := a - 0x100000000000
    if r % 0x10000000000 < slowSize then .slow (r / 0x10000000000) (r % 0x10000000000) else .unmapped
  else if 0x200000000000 ≤ a && a < 0x220000000000 then
    let r := a - 0x200000000000
    let d := r / 0x40000000
    let k := r % 0x40000000 / 0x2000000
    if h : d < 8 ∧ k < 10 then
      if r % 0x2000000 < clusterStoreSize then .clusterStore ⟨⟨d, h.1⟩, ⟨k, h.2⟩⟩ (r % 0x2000000) else .unmapped
    else .unmapped
  else if 0x300000000000 ≤ a && a < 0x320000000000 then
    let r := a - 0x300000000000
    let d := r / 0x40000000
    let k := r % 0x40000000 / 0x2000000
    let j := r % 0x2000000 / 0x400000
    if h : d < 8 ∧ k < 10 ∧ j < 8 then
      if r % 0x400000 < coreStoreSize then .coreStore ⟨⟨d, h.1⟩, ⟨k, h.2.1⟩, ⟨j, h.2.2⟩⟩ (r % 0x400000) else .unmapped
    else .unmapped
  else .unmapped

/-- Is the address in populated memory? -/
def populated (a : Nat) : Bool :=
  match regionOf a with
  | .unmapped => false
  | _ => true

/-- Does a run of n bytes lie in one instance of populated memory? -/
def populatedRun (a n : Nat) : Bool :=
  n == 0 || (match regionOf a, regionOf (a + n - 1) with
    | .hbm i _, .hbm j _ => i == j
    | .slow i _, .slow j _ => i == j
    | .clusterStore i _, .clusterStore j _ => i == j
    | .coreStore i _, .coreStore j _ => i == j
    | _, _ => false)

/-- Does a run of n bytes reach a firmware area of the slow tier (11 R328)? -/
def reachesFirmware (a n : Nat) : Bool :=
  match regionOf a with
  | .slow _ off => decide (fwOffset < off + n)
  | _ => false

/-- The generation that is current (12 R369). -/
def genCur (s : State) : Nat := rd s (F.UD_GEN_CUR 0)

/-- The backing address of an HBM address in one of the two views (12 R369). -/
def viewRoute (s : State) (a : Nat) : Nat :=
  match s.pair with
  | none => a
  | some (pa, pb, len) =>
    if genCur s = 0 then a
    else if pa ≤ a && a < pa + len then pb + (a - pa)
    else if pb ≤ a && a < pb + len then pa + (a - pb)
    else a

/-- A run of addresses reaches the memory of a parked die, where an access waits until the die is in RUN again (20 R573). Log 127. -/
def parkedRun (s : State) (a n : Nat) : Bool :=
  let meets := fun (b base size : Nat) => decide (b < base + size ∧ base < b + n)
  [a, viewRoute s a].any (fun b =>
    (List.range 16).any (fun i => dieParked s (i / 2) && meets b (i * 0x1000000000) 0x1000000000)
      || (List.range 4).any (fun m => udParked s m && meets b (0x100000000000 + m * 0x10000000000) 0x10000000000))

/-- First key of the core stores: keys below it are module addresses. -/
def storeKeyBase : Nat := 2 ^ 48

/-- The key of a byte of a physical core's store. -/
def coreKey (c : CoreId) (off : Nat) : Nat := storeKeyBase + c.key * 2 ^ 22 + off

/-- The key a module address reaches in State.mem: HBM through the views, core stores through the remap table
(01 R19, 11 R320, 12 R369); none where nothing is there. -/
def physKey (s : State) (a : Nat) : Option Nat :=
  match regionOf a with
  | .hbm _ _ => some (viewRoute s a)
  | .slow _ _ => some a
  | .clusterStore _ _ => some a
  | .coreStore x off =>
    match slotCore s x with
    | some c => some (coreKey c off)
    | none => none
  | .unmapped => none

/-! Protected regions, 11 R343, R344. -/

/-- An enabled protected region: first and last address, and the key its lines are under, plus 1. -/
structure PrRegion where
  lo  : Nat
  hi  : Nat
  key : Nat
deriving DecidableEq, Repr

/-- The enabled protected regions. -/
def prRegions (s : State) : List PrRegion :=
  ((List.range 16).filter (fun n => rdb s (F.SEC_PR_CTL_EN n))).map (fun n =>
    ⟨rd s (F.SEC_PR_BASE_ADDR n) * 2 ^ 21, rd s (F.SEC_PR_LIMIT_ADDR n) * 2 ^ 21 + 2 ^ 21 - 1,
     mapGet 0 s.keySlots (rd s (F.SEC_PR_CTL_KEY_SLOT n)) + 1⟩)

/-- The key a module address is under, plus 1; 0 in the clear. -/
def keyAt (rs : List PrRegion) (a : Nat) : Nat :=
  match rs.find? (fun r => decide (r.lo ≤ a ∧ a ≤ r.hi)) with
  | some r => r.key
  | none => 0

/-- Does a run of n bytes lie wholly or partly in a protected region? -/
def protectedRun (s : State) (a n : Nat) : Bool :=
  (prRegions s).any (fun r => decide (r.lo < a + n ∧ a ≤ r.hi))

/-! Bytes. -/

/-- What a byte of memory that nothing has written reads as. Log 3 (DESIGN CHOICE). -/
def emptyByte : Byte := 0

/-- A byte of memory by key. -/
def memByte (m : List Host.Cell) (k : Nat) : Byte := mapGet emptyByte m k

/-- Memory with a byte written; the canonical form lists no byte equal to emptyByte. -/
def memPut (m : List Host.Cell) (k : Nat) (b : Byte) : List Host.Cell := mapSetD emptyByte m k b

/-- The canonical form of memory: addresses strictly rising, no byte that an unlisted address would read as. -/
def Memory.wf (m : List Host.Cell) : Bool := canonical emptyByte m

/-- The byte at a module address, decrypted under the region the address lies in (11 R343): a line written under another
key, or under none, reads as what the spec does not fix. -/
def ldByte (s : State) (rs : List PrRegion) (a : Nat) : Byte :=
  match physKey s a with
  | none => emptyByte
  | some k =>
    let b := memByte s.mem k
    let was := mapGet 0 s.lineKeys (k / 256)
    let now := keyAt rs a
    if was = now then b else Config.cipherByte was now a b

/-- n bytes from a module address. -/
def ldBytes (s : State) (a n : Nat) : List Byte :=
  let rs := prRegions s
  (List.range n).map (fun i => ldByte s rs (a + i))

/-- The little-endian number in n bytes at a module address (02 R41). -/
def ldN (s : State) (a n : Nat) : Nat := leNat (ldBytes s a n)

/-- A line whose key changes is read under the new key and written whole under it (11 R343: the data unit is the line). -/
def rekeyLine (s : State) (k a now : Nat) : State :=
  let was := mapGet 0 s.lineKeys (k / 256)
  let base := k / 256 * 256
  { s with
    mem := (List.range 256).foldl (fun m i =>
      memPut m (base + i) (Config.cipherByte was now (a - k % 256 + i) (memByte m (base + i)))) s.mem
    lineKeys := mapSetD 0 s.lineKeys (k / 256) now }

/-- The state with one byte stored at a module address; nothing happens where no memory is. -/
def stByte (rs : List PrRegion) (s : State) (a : Nat) (b : Byte) : State :=
  match physKey s a with
  | none => s
  | some k =>
    let now := keyAt rs a
    let s := if mapGet 0 s.lineKeys (k / 256) = now then s else rekeyLine s k a now
    { s with mem := memPut s.mem k b }

/-- Bytes stored from a module address on. -/
def stBytesFrom (rs : List PrRegion) : State → Nat → List Byte → State
  | s, _, [] => s
  | s, a, b :: bs => stBytesFrom rs (stByte rs s a b) (a + 1) bs

/-- The 256-byte lines that a run of n bytes covers whole, by module address. -/
def fullLines (a n : Nat) : List Nat :=
  let first := ceilDiv a 256
  (List.range ((a + n) / 256 - first)).map (fun i => (first + i) * 256)

/-- A full-line write clears the line's poison mark (11 R322). -/
def clearPoison (s : State) (a n : Nat) : State :=
  if s.poison = [] then s
  else
    let ls := (fullLines a n).filterMap (physKey s)
    { s with poison := s.poison.filter (fun p => !ls.contains (p * 256)) }

/-- Bytes stored from a module address on, with the poison marks of the lines they cover whole cleared. -/
def stPlain (s : State) (a : Nat) (bs : List Byte) : State :=
  clearPoison (stBytesFrom (prRegions s) s a bs) a bs.length

/-- Is a slow-tier address in the bound checkpoint window (15 R449)? -/
def inCheckpoint (s : State) (a : Nat) : Bool :=
  match regionOf a with
  | .slow m _ =>
    let base := rd s (F.HA_CKPT_BASE_ADDR m)
    decide (base ≤ a ∧ a < base + rd s F.HA_CKPT_SIZE_SIZE * 2 ^ 28)
  | _ => false

/-- The 64-byte lines of the window that n bytes at an address touch. -/
def windowLines (s : State) (a n : Nat) : List Nat :=
  if rd s F.HA_CKPT_SIZE_SIZE = 0 ∨ n = 0 then []
  else ((List.range ((a + n - 1) / 64 - a / 64 + 1)).map (fun i => (a / 64 + i) * 64)).filter (inCheckpoint s)

/-- The host link runs a CXL mode (15 R442). -/
def cxlMode (s : State) : Bool := rd s F.HA_STAT_WIDTH != 0 && rd s F.HA_STAT_FLIT != 0

/-- The line of an address is poisoned. -/
def poisonedAt (s : State) (a : Nat) : Bool :=
  match physKey s a with
  | some k => s.poison.contains (k / 256)
  | none => false

/-- The bytes of a 64-byte line that n bytes at an address cover, one bit each. -/
def lineMask (line a n : Nat) : Nat :=
  let lo := max line a - line
  let hi := min (line + 64) (a + n) - line
  2 ^ hi - 2 ^ lo

/-- BISnpInv for a window line (15 R451, R452) of which n bytes at an address are written: until the host's BIRsp the host reads what the line held
before. Without a CXL mode no window is mapped and the host holds no copy (15 R442). Log 77 (DEDUCED). -/
def snoopLine (a n : Nat) (s : State) (line : Nat) : State :=
  if !cxlMode s then s
  else if s.biWait.any (fun w => w.line == line) then
    { s with biWait := s.biWait.map (fun w => if w.line = line then { w with mine := w.mine ||| lineMask line a n } else w) }
  else
    bump { s with biWait := s.biWait ++ [⟨line, ldBytes s line 64, poisonedAt s line, lineMask line a n⟩]
                  replies := s.replies ++ [.biSnp line] } (F.HA_CNT_COUNT 3) 1

/-- Bytes that the module stores from a module address on: window lines are first taken back from the host. -/
def stBytes (s : State) (a : Nat) (bs : List Byte) : State :=
  stPlain ((windowLines s a bs.length).foldl (snoopLine a bs.length) s) a bs

/-- A little-endian number stored in n bytes at a module address. -/
def stN (s : State) (a n v : Nat) : State := stBytes s a (natLE n v)

/-- Some line of a run of n bytes is poisoned. -/
def poisonedRun (s : State) (a n : Nat) : Bool :=
  !s.poison.isEmpty && n != 0 &&
    (List.range ((a + n - 1) / 256 - a / 256 + 1)).any (fun i => poisonedAt s ((a / 256 + i) * 256))

/-! Device counters in memory records (17 R505). -/

/-- A 64-bit counter of a memory record advances by n. -/
def bumpMem (s : State) (a n : Nat) : State :=
  let v := ldN s a 8
  if n = 0 then s
  else if v + n < counterMax then stN s a 8 (v + n)
  else if v = counterMax then s
  else
    let src := match regionOf a with
      | .hbm i _ => dieSrc (i / 2) 9
      | _ => hubSrc 29
    raise (captureSat (stN s a 8 counterMax) true a) src

end Sys2Proof.Machine
end

