-- ==== Sys2Proof/Machine/Net.lean ====
section
/-!
DEFINITION. What leaves the module for other modules: route choice, classes, waiting flits, messages cut into flits, and
the fault log (13 R397 to R404, 18 R540).
-/

namespace Sys2Proof.Machine

open Sys2Proof

/-- One bit of the reflected CRC-32C division (10 R304). -/
def crcBit (c : Nat) : Nat := if c % 2 = 1 then (c / 2) ^^^ 0x82F63B78 else c / 2

/-- One byte of CRC-32C. -/
def crcByte (c : Nat) (b : Byte) : Nat :=
  crcBit (crcBit (crcBit (crcBit (crcBit (crcBit (crcBit (crcBit (c ^^^ b.toNat))))))))

/-- CRC-32C of a byte string (10 R304). -/
def crc32c (bs : List Byte) : Nat := (bs.foldl crcByte 0xFFFFFFFF) ^^^ 0xFFFFFFFF

/-- The timebase (17 R508). -/
def now (s : State) : Nat := rd s F.TB_NOW_TIME

/-- The time until READY that a NOT_READY completion and a HOLD carry (19 R544): 900 ms less what has passed since step 1 or since the start of
the warm reset, in units of 100 µs, rounded up, at least 1. -/
def readyIn (s : State) : Nat := max 1 (ceilDiv (900000000 - (now s - s.boot.start)) 100000)

/-- Number of the step that runs or awaits commit; 0 without one. -/
def stepNum (s : State) : Nat :=
  match s.run with
  | some r => r.step
  | none => 0

/-- The fields of entry n of the fault log. -/
def logFields (n : Nat) : List Fld :=
  [F.ID_FLT_LOG_W0_VALID n, F.ID_FLT_LOG_W0_CLASS n, F.ID_FLT_LOG_W0_CAUSE n, F.ID_FLT_LOG_W0_UNIT n, F.ID_FLT_LOG_W1_STEP n,
    F.ID_FLT_LOG_W2_TIME n, F.ID_FLT_LOG_W3_TIME n]

/-- Entry n holds a record of this moment of a unit with a higher address (18 R540). -/
def logsAbove (s : State) (n unit : Nat) : Bool :=
  rdb s (F.ID_FLT_LOG_W0_VALID n) && rd s (F.ID_FLT_LOG_W2_TIME n) == now s % 2 ^ 32 && rd s (F.ID_FLT_LOG_W3_TIME n) == now s / 2 ^ 32 % 2 ^ 32
    && decide (unit < rd s (F.ID_FLT_LOG_W0_UNIT n))

/-- The place of a record of this moment, with the entries it comes before moved on by one: records of equal times stand in order of unit
address (18 R540). k bounds how many are moved. -/
def logPlace (unit : Nat) : Nat → Nat → State → Nat × State
  | 0, n, s => (n, s)
  | k + 1, n, s =>
    let p := (n + 15) % 16
    if logsAbove s p unit then logPlace unit k p (wrAll s ((logFields n).zip ((logFields p).map (rd s)))) else (n, s)

/-- A record of the fault log (18 R539, R540): class, cause, unit. -/
def logFault (s : State) (cls cause unit : Nat) : State :=
  let n := rd s F.ID_FLT_NEXT_NEXT
  let s := if rdb s (F.ID_FLT_LOG_W0_VALID n) then wr s F.ID_FLT_NEXT_WRAPPED 1 else s
  let (p, s) := logPlace unit 15 n s
  wr (wrAll s ((logFields p).zip [1, cls, cause, unit, stepNum s, now s, now s / 2 ^ 32])) F.ID_FLT_NEXT_NEXT ((n + 1) % 16)

/-- A STEP-class fault (18 R514): logged, and left for REPLAY_START where a step runs or awaits commit; without a step there is
nothing to replay. Log 68 (DEDUCED). -/
def stepFault (s : State) (unit cause : Nat) : State :=
  let s := logFault s 1 cause unit
  if s.run.isSome then { s with faults := s.faults ++ [(unit, cause)] } else s

/-- Unit address of a physical core (01 R26). -/
def coreUnit (c : CoreId) : Nat := c.die.val * 256 + c.cl.val * 16 + c.co.val

/-- Unit address of a cluster. -/
def clusterUnit (k : ClusterId) : Nat := 0x1000 + k.die.val * 256 + k.cl.val * 16

/-- Unit address of a fabric port. -/
def portUnit (p : Nat) : Nat := 0x7000 + p

/-- Unit address of the hub. -/
def hubUnit : Nat := 0x3000

/-- What a fabric port holds beside its registers. -/
def port (s : State) (p : Nat) : PortSt := mapGet {} s.ports p

/-- The state with a port's holdings replaced. -/
def setPort (s : State) (p : Nat) (x : PortSt) : State := { s with ports := mapPut s.ports p x }

/-- This module's MODULE_ID. -/
def moduleId (s : State) : Nat := rd s F.ID_MODULE_MODULE_ID

/-- Flits of a receive pool are freed: their credits are owed to the partner (13 R387). -/
def returnCredit (s : State) (p q n : Nat) : State :=
  let x := port s p
  setPort s p { x with credOwed := mapPut x.credOwed q (mapGet 0 x.credOwed q + n) }

/-- The receive buffer that a message occupies is freed. -/
def freeMsg (s : State) (m : Msg) : State :=
  match m.cred with
  | some (p, q, n) => returnCredit s p q n
  | none => s

/-- The pool of VC_6 and of VC_7 (13 R387), by flit type. -/
def shortPool (typ : Nat) : Nat := if typ = 5 then 12 else 13

/-- A HURDLE or MGMT flit is taken out of those that have arrived, and its buffer freed. -/
def takeCtrl (s : State) (f : CtrlFlit) : State :=
  returnCredit { s with ctrlIn := s.ctrlIn.erase f } f.inPort (shortPool f.typ) 1

/-- A port set without its RETIRED ports (13 R402), and without a repaired port until the next step boundary (18 R536). -/
def usablePorts (s : State) (set : Nat) : List Nat :=
  (List.range 16).filter (fun p => bit set p && rd s (F.FP_STAT_STATE p) != 7 && !s.portsHeld.contains p)

/-- The port a routed flit for another module leaves by (13 R402); none where no route is usable. -/
def routePort (s : State) (dst tag : Nat) : Option Nat :=
  let a := usablePorts s (rd s (F.FAB_RT_PORTS dst))
  let u := if a = [] then usablePorts s (rd s (F.FAB_RT_ALT dst)) else a
  if u = [] then none else u[tag % u.length]?

/-- A switched system: DIM is 0xF on every port (13 R404). -/
def switchedSystem (s : State) : Bool := (List.range 16).all (fun p => rd s (F.FP_CFG_DIM p) == 0xF)

/-- The class a flit of VC_0 to VC_5 leaves in (13 R404); cls and inPort are how it came in, when it is passed on. DIM 0xF names no
dimension, so two such ports are not of the same one. -/
def leaveClass (s : State) (out : Nat) (inPort : Option Nat) (cls : Nat) : Nat :=
  let dim := rd s (F.FP_CFG_DIM out)
  if switchedSystem s then 0
  else if rdb s (F.FP_CFG_DATELINE out) then 1
  else
    match inPort with
    | some p => if dim != 0xF && rd s (F.FP_CFG_DIM p) == dim && cls == 1 then 1 else 0
    | none => 0

/-- Where a waiting flit comes from: 0 for this module, else the port and pool it came in by. The flits of one message have one source, and
the messages of a source come one after another (13 R398). -/
def OutFlit.source (o : OutFlit) : Nat := if o.origin then 0 else 1 + 16 * o.inPort + o.inPool

/-- A flit joins the flits that wait for a port. -/
def enqueue (s : State) (p : Nat) (o : OutFlit) : State :=
  let x := port s p
  setPort s p { x with q := x.q ++ [o] }

/-- A HURDLE or MGMT flit towards its module; without a usable route it is only counted (13 R403). -/
def sendShort (s : State) (o : OutFlit) : State :=
  match routePort s o.dst 0 with
  | some p => enqueue s p o
  | none => bump s (F.FAB_CNT_COUNT 0) 1

/-- Payload bytes padded with zero to a flit's 240. -/
def payload240 (bs : List Byte) : List Byte := sliceBytes bs 0 240

/-- Body of a HURDLE flit (13 R400). -/
def hurdlePayload (dst src kind hurdle epoch rank gvc step : Nat) : List Byte :=
  payload240 (natLE 2 dst ++ natLE 2 src ++ natLE 1 kind ++ natLE 1 hurdle ++ natLE 2 epoch ++ natLE 2 rank
    ++ natLE 1 gvc ++ natLE 1 0 ++ natLE 4 step)

/-- Body of a MGMT flit (13 R401). -/
def mgmtPayload (dst src op : Nat) (body : List Byte) : List Byte :=
  payload240 (natLE 2 dst ++ natLE 2 src ++ natLE 1 op ++ natLE 1 0 ++ natLE 2 body.length ++ body)

/-- Members of the group on a channel, in rank order. -/
def members (s : State) (v : Nat) : List Nat := s.groups.getD v []

/-- This module's rank in the group on a channel. -/
def myRank (s : State) (v : Nat) : Nat := rd s (F.FAB_BIND_W0_RANK v)

/-- The other members of a group, from the sender's rank + 1 on (13 R400, 16 R481). -/
def peersFrom (s : State) (v : Nat) : List Nat :=
  let l := members s v
  let r := myRank s v
  l.drop (r + 1) ++ l.take r

/-- One HURDLE flit to each other member of a group. -/
def sendHurdleAll (s : State) (v kind hurdle epoch step : Nat) : State :=
  (peersFrom s v).foldl (fun t d =>
    sendShort t { typ := 5, vc := 6, dst := d,
                  payload := hurdlePayload d (moduleId t) kind hurdle epoch (myRank t v) v step }) s

/-- One MGMT message to each other member of a group. -/
def sendMgmtAll (s : State) (v op : Nat) (body : List Byte) : State :=
  (peersFrom s v).foldl (fun t d =>
    sendShort t { typ := 6, vc := 7, dst := d, payload := mgmtPayload d (moduleId t) op body }) s

/-- The channels that are bound. -/
def boundChannels (s : State) : List Nat := (List.range 6).filter (fun v => rd s (F.FAB_BIND_W0_KIND v) != 0)

/-- A step abort to every other member of every bound group (04 R118, 13 R400). -/
def sendAborts (s : State) (step : Nat) : State :=
  (boundChannels s).foldl (fun t v => sendHurdleAll t v 2 0 0 step) s

/-- Header of a data message (13 R397). -/
def msgHeader (m : Msg) : List Byte :=
  natLE 2 m.dst ++ natLE 2 m.src ++ natLE 2 m.tag ++ natLE 2 m.data.length ++ natLE 1 (b2n m.last) ++ natLE 1 m.hops
    ++ natLE 2 (if m.last then m.tgt else 0) ++ natLE 1 (if m.last then m.npost else 0) ++ natLE 3 0
    ++ natLE 6 m.addr ++ natLE 10 0

/-- The data bytes of a message after its first flit, in pieces of 240 (13 R397). -/
def bodyPieces : Nat → List Byte → List (List Byte)
  | 0, _ => []
  | n + 1, bs => if bs = [] then [] else bs.take 240 :: bodyPieces n (bs.drop 240)

/-- The flits of a message: a SINGLE, or a HEAD and further flits of which the last is a TAIL (13 R397). -/
def msgFlits (m : Msg) : List (Nat × List Byte) :=
  let head := payload240 (msgHeader m ++ m.data.take 208)
  if m.data.length ≤ 208 then [(4, head)]
  else
    let rest := bodyPieces m.data.length (m.data.drop 208)
    (1, head) :: (rest.mapIdx (fun i p => (if i + 1 = rest.length then 3 else 2, payload240 p)))

/-- A message of this module leaves for another (13 R397, R402 to R404); without a usable route it is lost, a link fault. -/
def sendMsg (s : State) (m : Msg) : State :=
  match routePort s m.dst m.tag with
  | none => stepFault (bump s (F.FAB_CNT_COUNT 0) (msgFlits m).length) hubUnit 0x06
  | some p =>
    (msgFlits m).foldl (fun t f =>
      enqueue t p { typ := f.1, vc := m.vc, cls := leaveClass t p none 0, dst := m.dst, payload := f.2 }) s

end Sys2Proof.Machine
end

