-- ==== Sys2Proof/Machine/Journal.lean ====
section
/-!
DEFINITION. The marshal's journal: which accepted command may begin, how it ends, and the order of terminal statuses
(16 R464 to R471).
-/

namespace Sys2Proof.Machine

open Sys2Proof

/-- The opcode of a journalled command (16 R461). -/
def Cmd.opcode (c : Cmd) : Nat := leAt c.entry 0 1

/-- A little-endian parameter of a command by its byte in the entry (16 R461, R473). -/
def Cmd.param (c : Cmd) (off n : Nat) : Nat := leAt c.entry off n

/-- FLAGS OVERLAP; a command that a replay rolled back runs after those before it (16 R491). -/
def Cmd.overlap (c : Cmd) : Bool := bit (leAt c.entry 1 1) 0 && !c.rolled

/-- FLAGS FENCE. -/
def Cmd.fence (c : Cmd) : Bool := bit (leAt c.entry 1 1) 1

/-- The serial opcodes (16 R472). -/
def serialOp (op : Nat) : Bool := [0x10, 0x11, 0x12, 0x13, 0x20, 0x21, 0x22, 0x32, 0x61].contains op

/-- A command's place in the journal: the same ring and sequence number. -/
def Cmd.is (c : Cmd) (ring seq : Nat) : Bool := c.ring == ring && c.seq == seq

/-- A command of the journal. -/
def cmdOf (s : State) (ring seq : Nat) : Option Cmd := s.journal.find? (fun c => c.is ring seq)

/-- The journal with one command's record replaced. -/
def setCmd (s : State) (c : Cmd) : State :=
  { s with journal := s.journal.map (fun d => if d.is c.ring c.seq then c else d) }

/-- The command executes: begun, without a result yet. -/
def Cmd.executing (c : Cmd) : Bool := c.started && c.fin.isNone && c.status.isNone

/-- The command waits to begin. -/
def Cmd.waiting (c : Cmd) : Bool := !c.started && c.fin.isNone && c.status.isNone

/-- The commands accepted before a command. -/
def earlier (s : State) (c : Cmd) : List Cmd := s.journal.takeWhile (fun d => !d.is c.ring c.seq)

/-- Some earlier command of the ring has no terminal status (16 R468). -/
def ringBlocked (s : State) (c : Cmd) : Bool :=
  !c.overlap && (earlier s c).any (fun d => d.ring == c.ring && d.status.isNone)

/-- Base of a ring's registers is by its number; is the ring enabled? -/
def ringOn (s : State) (ring : Nat) : Bool := rdb s (F.CMD_RING_CFG_ENABLE ring)

/-- A fence on the command's own ring or on a disabled ring is invalid (16 R469). -/
def fenceInvalid (s : State) (c : Cmd) : Bool :=
  c.fence && (c.param 8 1 % 16 == c.ring || !ringOn s (c.param 8 1 % 16))

/-- The fenced command has its terminal status, or precedes the kept window (16 R469). -/
def fenceOpen (s : State) (c : Cmd) : Bool :=
  !c.fence || fenceInvalid s c ||
    (let r := c.param 8 1 % 16
     let q := c.param 0xC 4
     match cmdOf s r q with
     | some d => d.status.isSome
     | none => decide (serialDiff 32 q (rd s (F.CMD_SEQ_NEXT_SEQ r)) < 0))

/-- Ready in every respect but those of the serial class and the limit of 32 (16 R468, R469). -/
def readyOtherwise (s : State) (c : Cmd) : Bool := c.waiting && !ringBlocked s c && fenceOpen s c

/-- The serial class lets a command begin (16 R468): it is not serial, or no serial command executes and none accepted before it is ready. -/
def serialFree (s : State) (c : Cmd) : Bool :=
  !serialOp c.opcode ||
    (!s.journal.any (fun d => serialOp d.opcode && d.executing) &&
     !(earlier s c).any (fun d => serialOp d.opcode && readyOtherwise s d))

/-- May the command begin (16 R468)? At most one serial command executes, and at most 32 commands; those that wait
begin in acceptance order. -/
def mayBegin (s : State) (c : Cmd) : Bool :=
  rdb s F.CMD_STAT_READY && readyOtherwise s c && serialFree s c &&
  decide ((s.journal.filter Cmd.executing).length
    + ((earlier s c).filter (fun d => readyOtherwise s d && serialFree s d)).length < 32)

/-- The terminal statuses of a ring are given in sequence order: the executed commands at its head take theirs (16 R465, R468).
CMD_CNT_5 and CMD_CNT_6 count RECOVERED and FAULT_FATAL. mir tells which mirrors are in service: they hold a status with the journal. -/
def settleFrom (mir : Bool × Bool) : List Cmd → Nat → Nat → List Cmd
  | [], _, _ => []
  | c :: cs, ring, t =>
    if c.ring = ring ∧ c.status.isNone then
      match c.fin with
      | some st => { c with status := some st, time := t, statusIn := mir } :: settleFrom mir cs ring t
      | none => c :: cs
    else c :: settleFrom mir cs ring t

/-- The mirrors in service (16 R464). -/
def mirrors (s : State) : Bool × Bool := (mirrorOk s 0, mirrorOk s 2)

/-- What a mirror holds of the journal: entries, and the terminal statuses that reached it (16 R464, R465; 11 R331). -/
def mirrorBytes (s : State) (of : Bool × Bool → Bool) : List Byte :=
  s.journal.flatMap (fun c => if of c.entryIn then natLE 1 c.ring ++ natLE 4 c.seq ++ c.entry ++
    (match c.status with
     | some st => if of c.statusIn then natLE 1 st.1 ++ natLE 1 st.2 ++ natLE 8 c.time else []
     | none => []) else [])

/-- The commit records as bytes (11 R331; 16 R481): flags, logs, table slots with their measurements, histories, hurdles. -/
def commitBytes (s : State) : List Byte :=
  let n := fun (x : Nat) => natLE 8 x
  s.snapshot.regs.flatMap (fun e => n e.1 ++ n e.2) ++ s.snapshot.tabs.flatMap (fun e => n e.1 ++ e.2.flatten.flatMap (natLE 1))
    ++ s.snapshot.chains.flatMap (fun e => n e.1 ++ e.2.flatten) ++ s.snapshot.amax
    ++ s.snapshot.hurdles.flatMap (fun e => n e.1 ++ n e.2.1 ++ n e.2.2)

/-- What lies in the firmware area of an update die: the journal's mirror behind UD_0 and UD_2, the commit records behind UD_1 and UD_3, and the
running image behind UD_1 (11 R331; 19 R546). -/
def areaHolds (s : State) (m : Nat) : List Byte :=
  match m with
  | 0 => mirrorBytes s (fun p => p.1)
  | 2 => mirrorBytes s (fun p => p.2)
  | 1 => commitBytes s ++ s.running
  | _ => commitBytes s

/-- Bytes of module memory as READ_STATE reads them: those of a firmware area are what the marshal and firmware keep there, in a layout that the
spec does not give (Config.firmwareByte). Log 116. -/
def moduleBytes (s : State) (a n : Nat) : List Byte :=
  if (List.range n).any (fun i => reachesFirmware (a + i) 1) then
    (List.range n).map (fun i => match regionOf (a + i) with
      | .slow m off => if fwOffset ≤ off then Config.firmwareByte m (areaHolds s m) (off - fwOffset) else (ldBytes s (a + i) 1).getD 0 0
      | _ => (ldBytes s (a + i) 1).getD 0 0)
  else ldBytes s a n

/-- How many commands of a list have no terminal status on a ring. -/
def openCount (l : List Cmd) (ring : Nat) : Nat := (l.filter (fun c => c.ring == ring && c.status.isNone)).length

/-- The statuses that settling gave, by code. -/
def newStatuses (old new : List Cmd) (code : Nat) : Nat :=
  let f := fun l : List Cmd => (l.filter (fun c => match c.status with | some st => st.1 == code | none => false)).length
  f new - f old

/-- Drop the first n terminal records of a ring. -/
def dropTerminal : Nat → List Cmd → Nat → List Cmd
  | _, [], _ => []
  | n, c :: cs, ring =>
    if n = 0 then c :: cs
    else if c.ring = ring ∧ c.status.isSome then dropTerminal (n - 1) cs ring
    else c :: dropTerminal n cs ring

/-- Of a ring's terminal records the last 4,096 are kept (16 R467). -/
def trimRing (l : List Cmd) (ring : Nat) : List Cmd :=
  dropTerminal ((l.filter (fun c => c.ring == ring && c.status.isSome)).length - 4096) l ring

/-- Give a ring the terminal statuses that are due. -/
def settle (s : State) (ring : Nat) : State :=
  let j := settleFrom (mirrors s) s.journal ring (now s)
  let s' := wr { s with journal := trimRing j ring } (F.CMD_RING_STAT_INFLIGHT ring) (openCount j ring)
  bump (bump s' (F.CMD_CNT_COUNT 5) (newStatuses s.journal j 0x20)) (F.CMD_CNT_COUNT 6) (newStatuses s.journal j 0x21)

/-- A command has been executed: its status, detail and RESULT; one that ran again after a restart of the marshal ends RECOVERED
(18 R514). -/
def finish (s : State) (ring seq status detail : Nat) (result : List Byte) : State :=
  match cmdOf s ring seq with
  | none => s
  | some c =>
    if c.status.isSome then s
    else settle (setCmd s { c with started := true, fin := some (if status = 0 ∧ c.replayed then 0x20 else status, detail), result := sliceBytes result 0 16 }) ring

/-- A command ends OK. -/
def finishOk (s : State) (ring seq : Nat) (result : List Byte) : State := finish s ring seq 0 0 result

/-- A command ends BAD_PARAM with a detail. -/
def badParam (s : State) (ring seq detail : Nat) : State := finish s ring seq 0x11 detail []

/-- A command begins and stays under way. -/
def markStarted (s : State) (ring seq : Nat) : State :=
  match cmdOf s ring seq with
  | none => s
  | some c => setCmd s { c with started := true }

/-- A reserved field of the entry's head is not 0 (16 R461). -/
def headReserved (c : Cmd) : Bool :=
  leAt c.entry 1 1 / 8 != 0 || leAt c.entry 9 3 != 0 ||
    (if c.fence then leAt c.entry 8 1 / 16 != 0 else leAt c.entry 8 1 != 0 || leAt c.entry 0xC 4 != 0)

/-- The version of a ring, major and minor. -/
def ringVersion (s : State) (ring : Nat) : Nat × Nat :=
  (rd s (F.CMD_RING_STAT_VER_MAJ ring), rd s (F.CMD_RING_STAT_VER_MIN ring))

/-- QUERY_VERSION has agreed on a version (16 R474): it holds for the ring's entries from the next one on, up to those behind a later
QUERY_VERSION that has agreed already. -/
def reversion (ring seq : Nat) (v : Nat × Nat) : Bool → List Cmd → List Cmd
  | _, [] => []
  | on, c :: cs =>
    if c.ring ≠ ring then c :: reversion ring seq v on cs
    else if c.seq = seq then c :: reversion ring seq v true cs
    else if on ∧ c.opcode = 1 ∧ ((c.fin <|> c.status).map (fun st => st.1 % 0x20)) = some 0 then c :: cs
    else (if on then { c with ver := v } else c) :: reversion ring seq v on cs

/-- A later QUERY_VERSION of the ring has agreed on a version before this one. -/
def agreedLater (s : State) (ring seq : Nat) : Bool :=
  ((s.journal.dropWhile (fun c => !c.is ring seq)).drop 1).any (fun c => c.ring == ring && c.opcode == 1
    && ((c.fin <|> c.status).map (fun st => st.1 % 0x20)) == some 0)

/-- The ring takes a version. -/
def setVersion (s : State) (ring seq : Nat) (v : Nat × Nat) : State :=
  let t := { s with journal := reversion ring seq v false s.journal }
  if agreedLater s ring seq then t else wrAll t [(F.CMD_RING_STAT_VER_MAJ ring, v.1), (F.CMD_RING_STAT_VER_MIN ring, v.2)]

/-- Run a command of a ring: nothing happens unless it is journalled with this opcode and may begin; then the version, the
entry's head and the fence are judged, and the rest is the opcode's own (16 R468 to R473). Log 64 (DEDUCED). -/
def beginCmd (s : State) (ring seq op : Nat) (body : Cmd → State) : State :=
  match cmdOf s ring seq with
  | none => s
  | some c =>
    if c.opcode ≠ op ∨ mayBegin s c = false then s
    else if op ≠ 0 ∧ op ≠ 1 ∧ (c.param 3 1, c.param 2 1) ≠ c.ver then finish s ring seq 0x12 0 []
    else if headReserved c then badParam s ring seq 0x20
    else if fenceInvalid s c then badParam s ring seq 0x2B
    else body c

/-- Are n bytes of an entry from a place on all 0? -/
def zeroBytes (c : Cmd) (off n : Nat) : Bool := leAt c.entry off n == 0

end Sys2Proof.Machine
end

