-- ==== Sys2Proof/Machine/Slices.lean ====
section
/-!
DEFINITION. Event sources (17 R494 to R497, R503, R511): the inputs of level sources, firing and completing a source, slices that
sleep and wake, the power states of clusters (20 R572).
-/

namespace Sys2Proof.Machine

open Sys2Proof

/-! Inputs. -/

/-- A source that no table of 17 R495 lists. -/
def reservedSource (n : Nat) : Bool :=
  if 3584 ≤ n then decide (3584 + 31 ≤ n)
  else if 400 ≤ n % 448 then decide (410 ≤ n % 448)
  else decide (17 ≤ n % 448 % 40)

/-- The cluster of a record key. -/
def clusterOfKey (n : Nat) : ClusterId := (coreOfKey (n * 9)).cluster

/-- The slice that owns a source: 0 to 79 clusters, 80 to 87 compute dies; none for the hub (17 R494, R503). -/
def sliceOf (n : Nat) : Option Nat :=
  if 3584 ≤ n then none
  else if 400 ≤ n % 448 then some (80 + n / 448)
  else some (n / 448 * 10 + n % 448 / 40)

/-- The sources of a slice. -/
def sliceSources (i : Nat) : List Nat :=
  if i < 80 then (List.range 17).map (fun l => i / 10 * 448 + i % 10 * 40 + l)
  else (List.range 10).map (fun l => (i - 80) * 448 + 400 + l)

/-- ALERT_N is low (20 R581, R584): PWR_ALERT AND PWR_ALERT_EN is nonzero. -/
def alertLow (s : State) : Bool :=
  (rdb s F.PWR_ALERT_LIMIT && rdb s F.PWR_ALERT_EN_LIMIT) || (rdb s F.PWR_ALERT_INLET && rdb s F.PWR_ALERT_EN_INLET)
    || (rdb s F.PWR_ALERT_TJ && rdb s F.PWR_ALERT_EN_TJ) || (rdb s F.PWR_ALERT_OV && rdb s F.PWR_ALERT_EN_OV)
    || (rdb s F.PWR_ALERT_UV && rdb s F.PWR_ALERT_EN_UV)

/-- The input of a cluster source with a level condition (17 R495). -/
def clusterLevel (s : State) (k : ClusterId) (l : Nat) : Bool :=
  if l < 9 then
    let c := coreOfKey (k.key * 9 + l)
    rd s (F.CO_SEQ_STAT_STATE c) == 3 || rd s (F.CO_FAULT_CODE c) != 0
  else if l = 10 then rdb s (F.RC_ERR_VALID k)
  else if l = 11 then rdb s (F.CX_ERR_VALID k)
  else if l = 12 then (List.range 9).any (fun j => rdb s (F.DMA_ERR_VALID (coreOfKey (k.key * 9 + j))))
  else if l = 15 then rdb s (F.CL_CORE_STAT_PEND_VALID k)
  else false

/-- The input of a compute-die source with a level condition (17 R495). -/
def dieLevel (s : State) (d l : Nat) : Bool :=
  if l < 2 then
    let n := 2 * d + l
    rdb s (F.HBM_POISON_VALID n) || rdb s (F.HBM_STAT_RET_PENDING n) || rdb s (F.HBM_STAT_FAILING n)
  else if l = 7 then decide (s.power.dies.getD d 8 < 8)
  else false

/-- The input of a hub source with a level condition (17 R495). -/
def hubLevel (s : State) (l : Nat) : Bool :=
  if l = 17 then !(mirrorOk s 0 && mirrorOk s 2)
  else if 18 ≤ l ∧ l ≤ 21 then s.udFault.contains (l - 18)
  else if l = 22 then rd s F.HA_STAT_WIDTH != 0 && rd s F.HA_STAT_FLIT == 0
  else if l = 25 then !rdb s F.PWR_STAT_BRAKE
  else if l = 26 then alertLow s
  else false

/-- The level of a source's input; a source whose condition is an occurrence is low but for the pulse that `raise` notes. -/
def inputLevel (s : State) (n : Nat) : Bool :=
  if 3584 ≤ n then hubLevel s (n - 3584)
  else if 400 ≤ n % 448 then dieLevel s (n / 448) (n % 448 - 400)
  else clusterLevel s (clusterOfKey (n / 448 * 10 + n % 448 / 40)) (n % 448 % 40)

/-- The level last seen of a source's input. -/
def seenLevel (s : State) (n : Nat) : Bool := mapGet (b2n (inputLevel State.reset n)) s.events.levels n == 1

/-- The level of a source's input is noted. -/
def noteLevel (s : State) (n : Nat) : State :=
  { s with events := { s.events with levels := mapSetD (b2n (inputLevel State.reset n)) s.events.levels n (b2n (inputLevel s n)) } }

/-! Transitions, R497. -/

/-- STATE of a source: 0 inactive, 1 pending, 2 active, 3 active-and-pending. -/
def srcState (s : State) (n : Nat) : Nat := rd s (F.EVC_SRC_STAT_STATE n)

/-- A source becomes pending: the splits that name it capture the timebase (R511). -/
def becomePending (s : State) (n : Nat) : State :=
  (List.range 16).foldl (fun t i =>
    if rdb t (F.TB_SPLIT_CFG_EN i) && rd t (F.TB_SPLIT_CFG_SRC i) == n then wr t (F.TB_SPLIT_TIME i) (rd t F.TB_NOW_TIME) else t)
    (wr s (F.EVC_SRC_STAT_STATE n) 1)

/-- One firing of a source (R497). -/
def fire (s : State) (n : Nat) : State :=
  match srcState s n with
  | 0 => becomePending s n
  | 2 => wr s (F.EVC_SRC_STAT_STATE n) 3
  | _ => bump s (F.EVC_CNT_COUNT 3) 1

/-- A level sense whose input is at the named level (R496). -/
def levelAsserted (s : State) (n : Nat) : Bool :=
  (rd s (F.EVC_SRC_CFG_SENSE n) == 0 && inputLevel s n) || (rd s (F.EVC_SRC_CFG_SENSE n) == 1 && !inputLevel s n)

/-- Is SENSE a level sense? -/
def levelSense (s : State) (n : Nat) : Bool := decide (rd s (F.EVC_SRC_CFG_SENSE n) ≤ 1)

/-- Is a transition of the input a firing under SENSE (R496)? -/
def edgeNamed (sense : Nat) (old new : Bool) : Bool :=
  (!old && new && (sense == 2 || sense == 4)) || (old && !new && (sense == 3 || sense == 4))

/-- The slice of a source sleeps. -/
def asleep (s : State) (n : Nat) : Bool :=
  match sliceOf n with
  | some i => s.events.slept.contains i
  | none => false

/-- A firing reaches a source: of a sleeping slice it is latched (R503). Log 80 (DEDUCED). -/
def fireOrLatch (s : State) (n : Nat) : State := if asleep s n then wr s (F.EVC_SRC_STAT_LATCH n) 1 else fire s n

/-- A pulse of a source's input: a rising and a falling transition. -/
def pulse (s : State) (n : Nat) : State :=
  let q := rd s (F.EVC_SRC_CFG_SENSE n)
  let s := if edgeNamed q false true then fireOrLatch s n else s
  if edgeNamed q true false then fireOrLatch s n else s

/-- The present level of a source's input is sampled: a transition is a firing under an edge sense; under a level sense an inactive source
becomes pending. -/
def sample (s : State) (n : Nat) : State :=
  let old := seenLevel s n
  let new := inputLevel s n
  let s := noteLevel s n
  let s := if edgeNamed (rd s (F.EVC_SRC_CFG_SENSE n)) old new then fireOrLatch s n else s
  if levelAsserted s n && srcState s n == 0 && !asleep s n then becomePending s n else s

/-- A pending level source whose input has left its level returns to inactive (R497). -/
def dropLevel (s : State) (n : Nat) : State :=
  if levelSense s n && !levelAsserted s n && srcState s n == 1 then wr s (F.EVC_SRC_STAT_STATE n) 0 else s

/-- A completion of a source (R497). -/
def complete (s : State) (n : Nat) : State :=
  let st := srcState s n
  if st < 2 then bump s (F.EVC_CNT_COUNT 1) 1
  else
    let s := { s with events := { s.events with active := mapErase s.events.active n } }
    if st = 3 ∨ levelAsserted s n then becomePending s n else wr s (F.EVC_SRC_STAT_STATE n) 0

/-! Sleep and wake, R503. -/

/-- A slice enters sleep: what its sources show is kept, LEVEL as it was. -/
def sleepSlice (s : State) (i : Nat) : State :=
  let s := (sliceSources i).foldl sample s
  let s := (sliceSources i).foldl (fun t n => wr t (F.EVC_SRC_STAT_LEVEL n) (b2n (inputLevel s n))) s
  { s with events := { s.events with slept := s.events.slept ++ [i] } }

/-- A slice wakes: its sources are restored; completions that came in sleep apply first, then the latched edges, then every level
input is sampled afresh. -/
def wakeSlice (s : State) (i : Nat) : State :=
  if !s.events.slept.contains i then s
  else
    let due := s.events.deferred.filter (fun n => sliceOf n == some i)
    let s := { s with events := { s.events with slept := s.events.slept.erase i, deferred := s.events.deferred.filter (fun n => sliceOf n != some i) } }
    let s := due.foldl complete s
    let s := (sliceSources i).foldl (fun t n =>
      let t := wr t (F.EVC_SRC_STAT_LEVEL n) 0
      if rdb t (F.EVC_SRC_STAT_LATCH n) then fire (wr t (F.EVC_SRC_STAT_LATCH n) 0) n else t) s
    (sliceSources i).foldl (fun t n => dropLevel (sample t n) n) s

/-- A latched firing of an enabled source waits in a sleeping slice. -/
def latchedWake (s : State) (i : Nat) : Bool :=
  s.events.slept.contains i && (sliceSources i).any (fun n => rdb s (F.EVC_SRC_STAT_LATCH n) && rdb s (F.EVC_SRC_CFG_ENABLE n))

/-! Cluster power states, 20 R572. -/

/-- The field of PWR_CL_STATE that shows a cluster (20 R584). -/
def clStateFld (k : ClusterId) : Fld := ⟨0x40200 * 8 + 32 * k.die.val + 2 * k.cl.val, 2, 0⟩

/-- The DENORM_FLUSH of a core comes into force (02 R67): at once while no step runs in the core, and when its cluster is in RUN (01 R34). -/
def showFlush (s : State) (c : CoreId) : State :=
  if (s.run.isSome && (core s c).occupied) || rd s (clStateFld c.cluster) != 0 then s
  else wr s (F.CO_FMT_CTL_FLUSH_ACTIVE c) (rd s (F.CO_FMT_CTL_DENORM_FLUSH c))

/-- The cores of a cluster. -/
def coresOf (k : ClusterId) : List CoreId := (List.finRange 9).map (fun j => ⟨k.die, k.cl, j⟩)

/-- A cluster returns to RUN; leaving SLEEP fires source 8 of its die and restores its event slice. What was written to its cores meanwhile
takes effect (01 R34). -/
def wakeCluster (s : State) (k : ClusterId) : State :=
  match rd s (clStateFld k) with
  | 0 => s
  | 2 => (coresOf k).foldl showFlush (raise (wakeSlice (wr s (clStateFld k) 0) k.key) (dieSrc k.die.val 8))
  | _ => (coresOf k).foldl showFlush (wr s (clStateFld k) 0)

/-- A register write or an event reaches a cluster: it leaves CLOCK_GATED (20 R572). SLEEP it leaves by CLUSTER_WAKE, or for a post
(04 R105). -/
def reachCluster (s : State) (k : ClusterId) : State := if rd s (clStateFld k) = 1 then wakeCluster s k else s

/-- A cluster enters SLEEP (20 R572). -/
def sleepCluster (s : State) (k : ClusterId) : State :=
  if rd s (clStateFld k) = 2 then s else raise (wr s (clStateFld k) 2) (dieSrc k.die.val 8)

/-- Every sleeping or gated cluster returns to RUN. -/
def wakeAll (s : State) : State := allClusters.foldl wakeCluster s

end Sys2Proof.Machine
end

