-- ==== Sys2Proof/Machine/Pages.lean ====
section
/-!
DEFINITION. The rollout cache's records: configuration, page records, page slots, the module epoch, reclaiming (08 R235, R236, R244, R245).
-/

namespace Sys2Proof.Machine

open Sys2Proof

/-! Configuration, 08 R235. -/

/-- Bytes of a page slot. -/
def pageSize : Nat := 266240

/-- The fields of the adopted configuration record. -/
structure CConf where
  prec    : Nat
  precs   : Nat
  seqs    : Nat
  seqBase : Nat
  pool    : Nat
  slots   : Nat
  stSlots : Nat
  stPool  : Nat
  pset    : Nat
  psets   : Nat
  layers  : Nat
  hgroups : Nat
  tok     : Nat
  epoch   : Nat
  low     : Nat
deriving DecidableEq, Repr

/-- The fields of a configuration record. -/
def confOf (b : List Byte) : CConf :=
  { prec := leAt b 0 8, precs := leAt b 8 4, seqs := leAt b 0xC 4, seqBase := leAt b 0x10 8, pool := leAt b 0x18 8, slots := leAt b 0x20 4,
    stSlots := leAt b 0x24 4, stPool := leAt b 0x28 8, pset := leAt b 0x30 8, psets := leAt b 0x38 4, layers := leAt b 0x3C 2,
    hgroups := leAt b 0x3E 1, tok := leAt b 0x40 8, epoch := leAt b 0x48 8, low := leAt b 0x50 4 }

/-- The configuration in force. -/
def conf (s : State) : CConf := confOf s.rollout.conf

/-- Tables of a sequence. -/
def CConf.tables (k : CConf) : Nat := k.layers * k.hgroups

/-! Page records, 08 R236. -/

/-- Address of a page record. -/
def precAddr (s : State) (p : Nat) : Nat := (conf s).prec + 16 * p

/-- REFCNT of a page. -/
def pageRef (s : State) (p : Nat) : Nat := ldN s (precAddr s p) 4

/-- STAMP of a page. -/
def pageStamp (s : State) (p : Nat) : Nat := ldN s (precAddr s p + 4) 4

/-- STATE of a page. -/
def pageState (s : State) (p : Nat) : Nat := ldN s (precAddr s p + 8) 1

/-- HOME of a page. -/
def pageHome (s : State) (p : Nat) : Nat := ldN s (precAddr s p + 0xA) 2

/-- SLOT of a page. -/
def pageSlot (s : State) (p : Nat) : Nat := ldN s (precAddr s p + 0xC) 4

/-- REFCNT written. -/
def setRef (s : State) (p v : Nat) : State := stN s (precAddr s p) 4 v

/-- STAMP written. -/
def setStamp (s : State) (p v : Nat) : State := stN s (precAddr s p + 4) 4 v

/-- STATE written. -/
def setPageState (s : State) (p v : Nat) : State := stN s (precAddr s p + 8) 1 v

/-- SLOT written. -/
def setSlot (s : State) (p v : Nat) : State := stN s (precAddr s p + 0xC) 4 v

/-- The HOME field of a cluster. -/
def homeOf (k : ClusterId) : Nat := k.die.val * 256 + k.cl.val * 16

/-- Address of an HBM page slot. -/
def hbmSlot (s : State) (n : Nat) : Nat := (conf s).pool + pageSize * n

/-- Address of a slow-tier page slot. -/
def stSlot (s : State) (n : Nat) : Nat := (conf s).stPool + pageSize * n

/-- The page records in one of some states. -/
def pagesIn (s : State) (l : List Nat) : List Nat := (List.range (conf s).precs).filter (fun p => l.contains (pageState s p))


/-- The free slow-tier slots, lowest first. -/
def freeSt (s : State) : List Nat :=
  let u := (pagesIn s [4, 5]).map (pageSlot s) ++ s.rollout.outPages.map (pageSlot s) ++ s.rollout.evicts.map (fun e => e.2.1)
  (List.range (conf s).stSlots).filter (fun n => !u.contains n)

/-! The module epoch, 08 R244, R245. -/

/-- The epoch word. -/
def epochWord (s : State) : Nat := ldN s (conf s).epoch 4

/-- Epochs of unretired descriptors. -/
def openEpochs (s : State) : List Nat :=
  s.cores.flatMap (fun (e : Nat × CoreSt) =>
    (e.2.sq.filter (fun q => q.kind != 4)).map (fun q => q.epoch) ++ (e.2.dxs.filter (fun d => d.kind != 4)).map (fun d => d.epoch))

/-- No cluster has an unretired descriptor whose epoch is at or before a stamp. -/
def quietAt (s : State) (stamp : Nat) : Bool := (openEpochs s).all (fun e => decide (0 < serialDiff 32 e stamp))

/-- HBM slots in use: of pages there, of fetches under way, and of evicted pages until quiet holds (08 R254). -/
def usedHbm (s : State) : List Nat :=
  ((pagesIn s [1, 2, 3]).filter (fun p => !s.rollout.outPages.contains p)).map (pageSlot s) ++ s.rollout.fetches.map (fun f => f.2)
    ++ (s.rollout.quiets.filter (fun q => !quietAt s q.2.1)).map (fun q => q.1)

/-- The free HBM slots, lowest first. Which one is taken is not fixed, and no result depends on it (08 R234; DESIGN CHOICE, log 18). -/
def freeHbm (s : State) : List Nat := let u := usedHbm s; (List.range (conf s).slots).filter (fun n => !u.contains n)

/-- May the epoch advance (08 R245)? Log 56 (DEDUCED). -/
def mayAdvance (s : State) : Bool := !(openEpochs s).contains (unsignedOf 32 ((epochWord s : Int) + 1 - 16))

/-- The epoch advances; answers its old value. -/
def advanceEpoch (s : State) : Nat × State := let e := epochWord s; (e, stN s (conf s).epoch 4 (e + 1))

/-- RC_STAT.RECLAIM of a cluster: DEFERRED pages of its HOME await quiet (08 R256). -/
def showReclaim (s : State) (k : ClusterId) : State :=
  wr s (F.RC_STAT_RECLAIM k) (b2n ((pagesIn s [2]).any (fun p => pageHome s p == homeOf k)))

/-- The cluster of a HOME field. -/
def homeCluster (h : Nat) : ClusterId := (coreOfKey ((h / 256 % 8 * 10 + h / 16 % 16 % 10) * 9)).cluster

/-- The control core of a HOME cluster reclaims up to 256 quiet pages, and the slots of evicted pages that are quiet (08 R245, R254). -/
def reclaim (s : State) (k : ClusterId) : State :=
  if s.rollout.conf = [] then s
  else
    let ps := ((pagesIn s [2]).filter (fun p => pageHome s p == homeOf k && quietAt s (pageStamp s p))).take 256
    let s := ps.foldl (fun t p => setPageState t p 0) s
    let s := { s with rollout := { s.rollout with
      outPages := s.rollout.outPages.filter (fun p => !ps.contains p)
      quiets := s.rollout.quiets.filter (fun q => !(q.2.2 == homeOf k && quietAt s q.2.1))
      walked := s.rollout.walked.filter (fun e => !ps.contains e.1) } }
    showReclaim (bump s (F.RC_CNT_COUNT k 7) ps.length) k

end Sys2Proof.Machine
end

