-- ==== Sys2Proof/Machine/Boundary.lean ====
section
/-!
DEFINITION. The step boundary: tables that take effect, retirements and remaps, the state of cores at step start, and what a
commit records and a replay restores (01 R21 to R25, 04 R129, 06 R192, 12 R347, 18 R516 to R519, R529).
-/

namespace Sys2Proof.Machine

open Sys2Proof

/-! Tables. -/

/-- Update tables come into force, with their generation pair (12 R347, R369). -/
def adoptUpdate (s : State) (u : UpdTables) : State :=
  let s := { s with upd := some u, updPend := none,
                    pair := some (leAt u.job 0x18 8, leAt u.job 0x20 8, leAt u.job 0x28 8) }
  (List.range 4).foldl (fun t m => wrAll t [(F.UD_GEN_TABLES_VALID m, 1), (F.UD_GEN_PAIR_VALID m, 1)]) s

/-- The tables that wait for the step boundary take effect (06 R192, 12 R347). -/
def applyTables (s : State) : State :=
  let s := { s with ftabs := s.ftPend.foldl (fun (m : NMap FtPair) (e : Nat × FtPair) => mapPut m e.1 e.2) s.ftabs, ftPend := [] }
  match s.updPend with
  | some u => adoptUpdate s u
  | none => s

/-! Retirement and remaps. -/

/-- CL_CORE_STAT shows the remap of the lowest pending slot (01 R25). -/
def showPending (s : State) (k : ClusterId) : State :=
  let mine := (s.remaps.filter (fun r => r.1 == k.key)).map (fun r => r.2)
  match (List.range 8).find? (fun j => mine.any (fun r => r.1 == j)) with
  | none => wrAll s [(F.CL_CORE_STAT_PEND_VALID k, 0), (F.CL_CORE_STAT_PEND_SLOT k, 0), (F.CL_CORE_STAT_PEND_TARGET k, 0),
      (F.CL_CORE_STAT_PEND_MORE k, 0)]
  | some j =>
    let target := ((mine.filter (fun r => r.1 == j)).getLastD (0, 0)).2
    wrAll s [(F.CL_CORE_STAT_PEND_VALID k, 1), (F.CL_CORE_STAT_PEND_SLOT k, j), (F.CL_CORE_STAT_PEND_TARGET k, target),
      (F.CL_CORE_STAT_PEND_MORE k, b2n (mine.any (fun r => r.1 != j)))]

/-- A remap of a slot is pending for the next step boundary; it replaces an earlier one of the slot. -/
def pendRemap (s : State) (k : ClusterId) (slot target : Nat) : State :=
  showPending { s with remaps := s.remaps.filter (fun r => !(r.1 == k.key && r.2.1 == slot)) ++ [(k.key, slot, target)] } k

/-- Is a cluster retired? -/
def clusterRetired (s : State) (k : ClusterId) : Bool := s.retired.contains (clusterUnit k)

/-- Is a core retired? -/
def coreRetired (s : State) (c : CoreId) : Bool := bit (rd s (F.CL_CORE_STAT_RETIRED c.cluster)) c.co.val

/-- The offset of a register within a cluster window, with the cluster's key; none outside the cluster windows. -/
def inCluster (off : Nat) : Option (Nat × Nat) :=
  if off < 0x1000000 then none
  else
    let d := (off - 0x1000000) / 0x200000
    let r := (off - 0x1000000) % 0x200000
    if r < 0x140000 then some (d * 10 + r / 0x20000, r % 0x20000) else none

/-- A retired core that serves no slot any more. -/
def coreClosed (s : State) (c : CoreId) : Bool := coreRetired s c && (coreSlot s c).isNone

/-- A retired cluster whose retirement has taken effect: every SLOTn reads 0xF (01 R25). -/
def clusterClosed (s : State) (k : ClusterId) : Bool :=
  clusterRetired s k && (List.range 8).all (fun j => rd s (remapFld k j) == 15)

/-- Does an offset lie in the window of a retired part (01 R36)? A core's or cluster's is closed from the step boundary at which its
retirement takes effect (01 R25), a port's at once. Log 10 (DEDUCED). -/
def inRetired (s : State) (off : Nat) : Bool :=
  let port : Bool := decide (0x100000 ≤ off ∧ off < 0x200000) && off % 0x10000 < 0x8000
    && rd s (F.FP_STAT_STATE ((off - 0x100000) / 0x10000)) == 7
  let cl := match inCluster off with
    | none => false
    | some (k, t) =>
      let kid := (coreOfKey (k * 9)).cluster
      clusterClosed s kid || (decide (0x8000 ≤ t ∧ t < 0x11000) && coreClosed s (coreOfKey (k * 9 + (t - 0x8000) / 0x1000)))
  port || cl

/-- A window is kept as it stands now. -/
def freezeWindow (s : State) (unit base size : Nat) : State :=
  if s.frozen.any (fun z => z.unit == unit) then s
  else
    { s with frozen := s.frozen ++ [{ unit := unit, base := base, size := size, cores := s.cores, ports := s.ports, ftabs := s.ftabs,
                                      regs := s.regs.filter (fun e => decide (base * 8 ≤ e.1 ∧ e.1 < (base + size) * 8)) }] }

/-- A part is in service again: its window shows what it does. -/
def thaw (s : State) (unit : Nat) : State := { s with frozen := s.frozen.filter (fun z => z.unit != unit) }

/-- The windows of a cluster and its cores follow R36 from when each is closed. -/
def freezeClosed (s : State) (k : ClusterId) : State :=
  let s := (coresOf k).foldl (fun t c =>
    if coreClosed t c then freezeWindow t (coreUnit c) (coreBase c) 0x1000 else thaw t (coreUnit c)) s
  if clusterClosed s k then freezeWindow s (clusterUnit k) (clusterBase k) 0x20000 else thaw s (clusterUnit k)

/-- The window of a retired port is kept. -/
def freezePort (s : State) (p : Nat) : State := freezeWindow s (portUnit p) (0x100000 + p * 0x10000) 0x8000

/-- A part that RESET_PART has reset shows its reset state, and goes on showing it where it is retired. -/
def refreeze (s : State) (unit : Nat) : State :=
  freezeClosed (thaw s unit) (coreOfKey ((unit / 256 % 8 * 10 + unit / 16 % 16 % 10) * 9)).cluster

/-- The state from which the registers at an offset are read: of a retired part, as it stood at retirement (01 R36). -/
def seenAt (s : State) (off : Nat) : State :=
  match s.frozen.find? (fun z => decide (z.base ≤ off ∧ off < z.base + z.size)) with
  | none => s
  | some z => { s with regs := z.regs, cores := z.cores, ports := z.ports, ftabs := z.ftabs }

/-- CO_8 is free to take a slot: not retired, serving none, and the target of no pending remap (01 R24). -/
def spareFree (s : State) (k : ClusterId) : Bool :=
  !rdb s (F.CL_CORE_STAT_SPARE_USED k) && !bit (rd s (F.CL_CORE_STAT_RETIRED k)) 8
    && !s.remaps.any (fun r => r.1 == k.key && r.2.2 == 8)

/-- ID_CORES counts the mapped slots and the spares left (01 R37). -/
def showCores (s : State) : State :=
  let active := (allClusters.map (fun k => ((List.range 8).filter (fun j => decide (rd s (remapFld k j) < 9))).length)).foldl (· + ·) 0
  let spares := (allClusters.filter (fun k => !clusterRetired s k && !rdb s (F.CL_CORE_STAT_SPARE_USED k)
    && !bit (rd s (F.CL_CORE_STAT_RETIRED k)) 8)).length
  wrAll s [(F.ID_CORES_ACTIVE, active), (F.ID_CORES_SPARES_FREE, spares)]

/-- A part is retired, reduced or marked: the record of class 3, the marshal's record and DEGRADED (18 R519, R540). -/
def markPart (s : State) (unit cause : Nat) : State :=
  let s := logFault s 3 cause unit
  let s := wr s F.ID_HEALTH_DEGRADED 1
  if s.retired.contains unit then s else { s with retired := s.retired ++ [unit] }

/-- CORES_RET counts the cores retired one by one, without those of a retired cluster (18 R539). -/
def showCoresRet (s : State) : State :=
  wr s F.ID_HEALTH_CORES_RET ((allCores.filter (fun c => coreRetired s c && !clusterRetired s c.cluster)).length)

/-- A core is retired (01 R25, 18 R516, R517): its slot passes to CO_8 or is unmapped at the next step boundary. -/
def retireCore (s : State) (c : CoreId) (cause : Nat) : State :=
  if coreRetired s c then s
  else
    let k := c.cluster
    let s := markPart s (coreUnit c) cause
    let s := showCoresRet (wr s (F.CL_CORE_STAT_RETIRED k) (rd s (F.CL_CORE_STAT_RETIRED k) + 2 ^ c.co.val))
    let s := { s with remaps := s.remaps.map (fun r => if r.1 = k.key ∧ r.2.2 = c.co.val then (r.1, r.2.1, 15) else r) }
    let s := match coreSlot s c with
      | some x => pendRemap s k x.slot.val (if spareFree s k then 8 else 15)
      | none => showPending s k
    freezeClosed (showCores s) k

/-- A cluster is retired: every slot is unmapped at the next step boundary (18 R516). -/
def retireCluster (s : State) (k : ClusterId) (cause : Nat) : State :=
  if clusterRetired s k then s
  else
    let s := markPart s (clusterUnit k) cause
    let s := showCoresRet (wr s F.ID_HEALTH_CL_RET (rd s F.ID_HEALTH_CL_RET + 1))
    showCores ((List.range 8).foldl (fun t j => pendRemap t k j 15) s)

/-- Register fields from one BAR0 offset up to another take their reset values. -/
def clearRegs (s : State) (lo hi : Nat) : State :=
  { s with regs := s.regs.filter (fun e => decide (e.1 < lo * 8 ∨ hi * 8 ≤ e.1)) }

/-- Register entries whose keys satisfy a test, moved by a distance onto another core; what the target held there is dropped. -/
def copyRegRange (s : State) (src dst len : Nat) : State :=
  let moved := s.regs.filter (fun e => decide (src * 8 ≤ e.1 ∧ e.1 < (src + len) * 8))
  let s := clearRegs s dst (dst + len)
  { s with regs := moved.foldl (fun m e => mapPut m (e.1 - src * 8 + dst * 8) e.2) s.regs }

/-- A core's store moves: the bytes of one physical store to another (01 R22). -/
def copyStore (s : State) (a b : CoreId) : State :=
  let lo := coreKey a 0
  let dst := coreKey b 0
  let moved := s.mem.filter (fun e => decide (lo ≤ e.1 ∧ e.1 < lo + coreStoreSize))
  let rest := s.mem.filter (fun e => decide (e.1 < dst ∨ dst + coreStoreSize ≤ e.1))
  { s with mem := moved.foldl (fun m e => memPut m (e.1 - lo + dst) e.2) rest }

/-- What a core's stream is, without what its engines hold. -/
def streamOnly (x : CoreSt) : CoreSt :=
  { occupied := x.occupied, instrs := x.instrs, abInit := x.abInit, limits := x.limits, cleared := x.cleared, ring := x.ring, splits := x.splits,
    packLens := x.packLens }

/-- The stream of a core that was reset. -/
def resetStream (x : CoreSt) : CoreSt :=
  { occupied := x.occupied, instrs := x.instrs, abInit := x.abInit, limits := x.limits, cleared := true, packLens := x.packLens }

/-- One copy of a slot's store and sequencer state, the format registers with it and what the last commit recorded of them
(01 R22, 02 R73, 18 R529). -/
def copyCore (s : State) (k : ClusterId) (e : Nat × Nat) : State :=
  let a := coreOfKey (k.key * 9 + e.1)
  let b := coreOfKey (k.key * 9 + e.2)
  let s := copyStore s a b
  let s := copyRegRange s (coreBase a) (coreBase b) 0x500
  let s := copyRegRange s (coreBase a + 0x800) (coreBase b + 0x800) 0x400
  let kept := (copyRegRange { s with regs := s.snapshot.regs } (coreBase a) (coreBase b) 0x500).regs
  let s := { s with snapshot := { s.snapshot with regs := kept } }
  let x := core s a
  setCore (setCore s b (streamOnly x)) a { x with occupied := false }

/-- One pending remap takes place; a slot that moves between cores is copied, and its cluster waits for the copy
(01 R21, R22, 18 R537). Log 70 (DEDUCED). -/
def applyRemap (s : State) (r : Nat × Nat × Nat) : State :=
  let c0 := coreOfKey (r.1 * 9)
  let k := c0.cluster
  let old := rd s (remapFld k r.2.1)
  let s := wr s (remapFld k r.2.1) r.2.2
  let s := wr s (F.CL_CORE_STAT_SPARE_USED k) (b2n ((List.range 8).any (fun j => rd s (remapFld k j) == 8)))
  if old < 9 ∧ r.2.2 < 9 ∧ old ≠ r.2.2 then
    let s := copyCore s k (old, r.2.2)
    let x := cluster s k
    setCluster s k { x with copying := true, copies := x.copies ++ [(old, r.2.2)] }
  else s

/-- Every pending remap takes place, at a step boundary (01 R21); the windows of parts whose retirement takes effect close. -/
def applyRemaps (s : State) : State :=
  if s.remaps = [] then s
  else
    let l := s.remaps
    let ks := l.map (fun r => (coreOfKey (r.1 * 9)).cluster)
    let s := l.foldl applyRemap { s with remaps := [] }
    ks.foldl freezeClosed (showCores (ks.foldl showPending s))

/-- Does a pending or applied unmapping leave a stream of the loaded program without a core (18 R517)? -/
def lostSlot (s : State) : Bool :=
  (occupiedCores s).any (fun c =>
    match coreSlot s c with
    | none => true
    | some x => s.remaps.any (fun r => r.1 == c.cluster.key && r.2.1 == x.slot.val && r.2.2 == 15))

/-- The DENORM_FLUSH of every core comes into force (02 R67). -/
def applyFlush (s : State) : State := (occupiedCores s).foldl showFlush s

/-! Cores at step start. -/

/-- What LOAD_PROGRAM set in a core is set again where a reset has taken it since: pacer limits, STALL_LIMIT, the denormal mode (log 15). -/
def setAgain (s : State) (c : CoreId) : State :=
  let x := core s c
  if !x.cleared then s
  else
    let p := s.prog.getD {}
    let s := (List.range 16).foldl (fun t n => wr t (F.CO_PA_LIMIT c n) (x.limits.getD n 0)) s
    setCore (wrAll s [(F.CO_STALL_LIMIT_LIMIT c, p.stall), (F.CO_FMT_CTL_DENORM_FLUSH c, b2n p.flush),
      (F.CO_FMT_CTL_FLUSH_ACTIVE c, b2n p.flush)]) c { x with cleared := false }

/-- A core at the start of a step or of a replay (04 R129, 05 R144, 06 R179). -/
def startCore (s : State) (c : CoreId) : State :=
  let b := coreBase c
  let s := setAgain s c
  let x := core s c
  let s := clearRegs s (b + 0x200) (b + 0x300)
  let s := clearRegs s (b + 0x340) (b + 0x360)
  let s := clearRegs s (b + 0x580) (b + 0x700)
  let s := clearRegs s (b + 0x740) (b + 0x780)
  let s := clearRegs s (b + 0xC00) (b + 0xE00)
  let s := clearRegs s (b + 0xF00) (b + 0xF04)
  let s := (List.range 16).foldl (fun t n =>
    let v := x.abInit.getD n (0, 0)
    wrAll t [(F.CO_PA_COUNT c n, rd t (F.CO_PA_LIMIT c n)), (F.CO_AB_CUR_VALUE c n, v.1), (F.CO_AB_BASE_VALUE c n, v.2)]) s
  let s := wrAll s [(F.CO_SEQ_STAT_INDEX c, 0), (F.CO_SEQ_STAT_STALL c, 0), (F.CO_SEQ_STAT_STATE c, 1)]
  setCore s c { streamOnly x with since := List.replicate 6 s.stallClock }

/-- An occupied core starts in a cluster that is in RUN; where a copy into the cluster's CO_8 is under way, its first instruction waits for
it, and what other clusters post meanwhile counts (01 R22). A core without a slot starts nothing. -/
def startOne (s : State) (c : CoreId) : State :=
  if (coreSlot s c).isNone then s
  else
    let s := startCore (wakeCluster s c.cluster) c
    if (cluster s c.cluster).copying then setCore (wr s (F.CO_SEQ_STAT_STATE c) 0) c { core s c with held := true } else s

/-- Every occupied core starts (04 R129). CX_ERR of their clusters is cleared (10 R316). -/
def startCores (s : State) : State :=
  let s := { s with posts := [], clusters := s.clusters.map (fun e => (e.1, { e.2 with ccq := [] })) }
  let s := (occupiedCores s).foldl (fun t c => clearRegs t (clusterBase c.cluster + 0x2900) (clusterBase c.cluster + 0x2904)) s
  (occupiedCores s).foldl startOne s

/-! What a commit records. -/

/-- Does a commit record the register at a bit address, and a replay restore it: flags and counts of the cores (02 R72),
exception logs (05 R170), codec slots (10 R302), hurdle epochs and counts (04 R129), update-die flags and counters (12 R371),
relay flags and counters (14 R439)? -/
def recorded (a : Nat) : Bool :=
  let off := a / 8
  if 0x1000000 ≤ off then
    let r := (off - 0x1000000) % 0x200000
    if r < 0x140000 then
      let t := r % 0x20000
      if 0x8000 ≤ t then (let q := t % 0x1000; decide (0x104 ≤ q ∧ q < 0x110))
      else decide ((0x1000 ≤ t ∧ t < 0x1060) ∨ (0x2800 ≤ t ∧ t < 0x2904))
    else decide (0x150000 ≤ r ∧ r < 0x151000 ∧ 8 ≤ r % 16)
  else if 0x200000 ≤ off && off < 0x300000 then
    (let q := off % 0x40000; decide ((8 ≤ q ∧ q < 0xC) ∨ (0x100 ≤ q ∧ q < 0x138)))
  else decide ((0x10B080 ≤ off ∧ off < 0x10B084) ∨ (0x10B100 ≤ off ∧ off < 0x10B140))

/-- Bytes of the amax history table (03 R90). -/
def amaxBytes (s : State) : List Byte :=
  match s.prog with
  | some p => ldBytes s p.amaxBase (p.amaxLen * 128)
  | none => []

/-- The commit records (16 R481). -/
def takeSnapshot (s : State) : State :=
  { s with snapshot :=
      { regs := s.regs.filter (fun e => recorded e.1)
        tabs := s.clusters.map (fun e => (e.1, e.2.tabs))
        chains := s.clusters.map (fun e => (e.1, e.2.chains))
        amax := amaxBytes s
        hurdles := s.hurdleBits } }

/-- The state of the last commit is put back (18 R529); every QREF is then 0 (10 R302). -/
def restoreSnapshot (s : State) : State :=
  let kept := s.regs.filter (fun e => !recorded e.1)
  let s := { s with
    hurdleBits := s.snapshot.hurdles
    regs := s.snapshot.regs.foldl (fun (m : NMap Nat) (e : Nat × Nat) => mapPut m e.1 e.2) kept
    clusters := s.clusters.map (fun (e : Nat × ClusterSt) => (e.1, { e.2 with
      tabs := mapGet (List.replicate 16 []) s.snapshot.tabs e.1
      chains := mapGet (List.replicate 16 (List.replicate 64 0)) s.snapshot.chains e.1 })) }
  match s.prog with
  | some p => stBytes s p.amaxBase s.snapshot.amax
  | none => s

/-! The end of a step. -/

/-- STEP_STATE (16 R493); its change is an event (17 R495). -/
def setStepState (s : State) (v : Nat) : State :=
  if rd s F.CMD_STAT_STEP_STATE = v then s else raise (wr s F.CMD_STAT_STEP_STATE v) (hubSrc 23)

/-- Relay registers that every step start and replay start clears (14 R439). -/
def clearRelayRegs (s : State) : State :=
  clearRegs (clearRegs s 0x10B000 0x10B080) 0x10B088 0x10B090

/-- The rollout cache holds nothing, at a step boundary and at the start of a replay (08 R234). RC_ERR tells of a routine that failed in the
step until the next begins (R256). -/
def clearRollout (s : State) : State :=
  let s := { s with rollout := {}, pageDone := [],
                    clusters := s.clusters.map (fun (e : Nat × ClusterSt) =>
                      (e.1, { e.2 with rtBegun := false, rtPos := 0, rtSub := 0, rtCount := 0, rtEpoch := 0, rtNode := 0xFFFFFFFF })) }
  { s with regs := s.regs.filter (fun e => match inCluster (e.1 / 8) with
      | some (_, t) => !(decide (0x2000 ≤ t ∧ t < 0x2004) || decide (0x2040 ≤ t ∧ t < 0x2080))
      | none => true) }

/-- No routine has failed in a step that begins (08 R256). -/
def clearRcErr (s : State) : State :=
  { s with regs := s.regs.filter (fun e => match inCluster (e.1 / 8) with
      | some (_, t) => !decide (0x2008 ≤ t ∧ t < 0x200C)
      | none => true) }

/-- The step is over: committed, skipped or ended. A step boundary: waiting tables, remaps and denormal modes take effect, repaired ports enter the
route sets, quiet pages are reclaimed (08 R245) and the rollout cache is empty; the marshal is idle. -/
def endRun (s : State) : State :=
  let s := { s with run := none, portsHeld := [], replay := { rounds := s.replay.rounds, roundVc := s.replay.roundVc } }
  let s := setStepState (applyFlush (applyRemaps (clearRollout (allClusters.foldl reclaim (applyTables s))))) (if s.prog.isSome then 1 else 0)
  wr s F.ID_REPLAY_PHASE 0

end Sys2Proof.Machine
end

