-- ==== Sys2Proof/Machine/Faults.lean ====
section
/-!
DEFINITION. Faults: program faults and the abort of a step (04 R117, R118), faults fatal to the job (18 R514), thresholds of
errors that retire a part (18 R516).
-/

namespace Sys2Proof.Machine

open Sys2Proof

/-- A core is stopped with a fault code (04 R117). -/
def stopCore (s : State) (c : CoreId) (code idx index eng : Nat) : State :=
  wrAll s [(F.CO_SEQ_STAT_STATE c, 3), (F.CO_FAULT_CODE c, code), (F.CO_FAULT_IDX c, idx), (F.CO_FAULT_INDEX c, index),
    (F.CO_FAULT_ENG c, eng)]

/-- A core is stopped by another's fault: REMOTE_ABORT, unless it has a fault of its own; the spec names no instruction for
it, so INDEX and ENG are free values (DESIGN CHOICE, log 6). -/
def remoteAbort (s : State) (c : CoreId) : State :=
  if rd s (F.CO_SEQ_STAT_STATE c) = 3 ∧ rd s (F.CO_FAULT_CODE c) ≠ 0 then s
  else
    let (i, s) := drawFree s 12
    let (e, s) := drawFree s 4
    stopCore s c 0x06 0 i e

/-- RESULT of a step's command: STEP, replays, timebase (16 R479). -/
def stepResult (s : State) (step replays : Nat) : List Byte := natLE 4 step ++ natLE 4 replays ++ natLE 8 (now s)

/-- The command that the run owes a terminal status ends FAULT_FATAL (16 R479); the step's number may run again (16 R480). -/
def failRun (s : State) (detail : Nat) : State :=
  match s.run with
  | none => s
  | some r =>
    let res := stepResult s r.step r.replays
    let s := finish s r.ring r.seq 0x21 detail res
    let s := if r.program then s else { s with failedStep := some r.step }
    if r.committing then finish s r.cRing r.cSeq 0x21 detail res else s

/-- The step is aborted (04 R118): every occupied core stops, the members of every bound group hear of it, the step's
command ends FAULT_FATAL, nothing is committed. Log 65 (DEDUCED). -/
def abortStep (s : State) (detail : Nat) : State :=
  let step := stepNum s
  let s := (occupiedCores s).foldl remoteAbort s
  let s := sendAborts s step
  endRun (failRun { s with faults := [] } detail)

/-- A program fault of a core (04 R117, R118). -/
def programFault (s : State) (c : CoreId) (code idx index eng : Nat) : State :=
  let s := stopCore s c code idx index eng
  if s.run.isSome then abortStep s 0x30 else s

/-- Every accepted command without a terminal status ends FAULT_FATAL, detail 0x31, in order (16 R491). -/
def failAll (s : State) : State :=
  (s.journal.filter (fun c => c.status.isNone)).foldl (fun t c => finish t c.ring c.seq 0x21 0x31
    (match t.run with
      | some r => if r.ring = c.ring ∧ r.seq = c.seq then stepResult t r.step r.replays else []
      | none => [])) s

/-- A fault fatal to the job (18 R514, 16 R491): logged, every command ended, the abort sent; the module holds no program. -/
def fatalFault (s : State) (unit cause : Nat) : State :=
  let s := logFault s 2 cause unit
  let s := bump (wr s F.ID_HEALTH_FATAL 1) (F.ID_FLT_CNT_COUNT 6) 1
  let s := if s.run.isSome then sendAborts ((occupiedCores s).foldl (fun t c =>
    if rd t (F.CO_SEQ_STAT_STATE c) = 3 then t else wr t (F.CO_SEQ_STAT_STATE c) 3) s) (stepNum s) else s
  let s := failAll s
  let s := { s with prog := none, cores := s.cores.map (fun (e : Nat × CoreSt) => (e.1, { e.2 with occupied := false })) }
  endRun { s with faults := [] }

/-! Error thresholds, 18 R516. -/

/-- Nanoseconds of 24 hours and of a second. -/
def dayNs : Nat := 86400000000000

/-- Nanoseconds of a second. -/
def secNs : Nat := 1000000000

/-- The times of a part's events within a window that ends now. -/
def recent (l : List (Nat × Nat)) (part t window : Nat) : Nat :=
  (l.filter (fun e => decide (e.1 = part ∧ t - e.2 ≤ window))).length

/-- An uncorrectable error of a part is noted; answers whether it is the second within 24 hours. -/
def noteUe (s : State) (part : Nat) : Bool × State :=
  let s := { s with ueTimes := s.ueTimes ++ [(part, now s)] }
  (decide (2 ≤ recent s.ueTimes part (now s) dayNs), s)

/-- A corrected error of a DRAM part is noted; answers whether it is the 65th within a second. -/
def noteCe (s : State) (part : Nat) : Bool × State :=
  let s := { s with ceTimes := s.ceTimes ++ [(part, now s)] }
  (decide (65 ≤ recent s.ceTimes part (now s) secNs), s)

/-- What the check bits of a core store report (01 R18): a corrected error is counted; an uncorrectable one is a STEP-class
fault of the core, and the second within 24 hours retires it (18 R515, R516). -/
def storeError (s : State) (c : CoreId) (e : StoreErr) : State :=
  match e with
  | .clean => s
  | .corrected => raise { s with storeErrs := mapSetD 0 s.storeErrs (coreUnit c) (mapGet 0 s.storeErrs (coreUnit c) + 1) } (clSrc c.cluster 13)
  | .uncorrectable =>
    let s := raise (stepFault s (coreUnit c) 0x04) (clSrc c.cluster 14)
    let (again, s) := noteUe s (coreUnit c)
    if again then retireCore s c 0x07 else s

/-- What the check bits of a cluster store report (01 R18, 18 R515, R516): as for a core store; the second uncorrectable error within 24
hours retires the cluster. -/
def clusterStoreError (s : State) (k : ClusterId) (e : StoreErr) : State :=
  match e with
  | .clean => s
  | .corrected => raise { s with storeErrs := mapSetD 0 s.storeErrs (clusterUnit k) (mapGet 0 s.storeErrs (clusterUnit k) + 1) } (clSrc k 13)
  | .uncorrectable =>
    let s := raise (stepFault s (clusterUnit k) 0x04) (clSrc k 14)
    let (again, s) := noteUe s (clusterUnit k)
    if again then retireCluster s k 0x07 else s

end Sys2Proof.Machine
end

