-- ==== Sys2Proof/Machine/Flags.lean ====
section
/-!
DEFINITION. Sticky flags, overflow counts and the cluster exception log (02 R68 to R71, 05 R162, R167 to R169).
-/

namespace Sys2Proof.Machine

open Sys2Proof

/-- The log entry numbers of the flags that are set: 0 INV, 1 OVF, 2 FLUSHED, 3 NAN_IN (05 R172). -/
def flagKinds (f : Flags) : List Nat :=
  (if f.inv then [0] else []) ++ (if f.ovf then [1] else []) ++ (if f.flushed then [2] else []) ++ (if f.nanIn then [3] else [])

/-- Of two occurrences of one kind of one tile the one that R168 orders first: by instruction index, then row, then column of the element, so
that it does not matter in what order they became known. Log 45 (DEDUCED). -/
def occBefore (a b : Occ) : Bool :=
  decide (a.index < b.index ∨ (a.index = b.index ∧ (a.row < b.row ∨ (a.row = b.row ∧ a.col < b.col))))

/-- The occurrences with one more: each kind keeps its first. Log 45 (DEDUCED). -/
def occAdd (l : List Occ) (o : Occ) : List Occ :=
  match l.find? (fun e => e.kind == o.kind) with
  | none => l ++ [o]
  | some e => if occBefore o e then l.map (fun x => if x.kind = o.kind then o else x) else l

/-- Any flag set? -/
def Flags.any (f : Flags) : Bool := f.ovf || f.inv || f.flushed || f.nanIn

/-- An element's flags join the sum: n elements are counted where it overflowed (02 R70). -/
def FlagSum.addAt (s : FlagSum) (src index row col n : Nat) (f : Flags) : FlagSum :=
  if f.any then
    { flags := s.flags.or f
      ovfs := s.ovfs + (if f.ovf then n else 0)
      occs := (flagKinds f).foldl (fun l k => occAdd l ⟨k, src, index, row, col⟩) s.occs }
  else s

/-- Two sums together. -/
def FlagSum.join (a b : FlagSum) : FlagSum :=
  { flags := a.flags.or b.flags, ovfs := a.ovfs + b.ovfs, occs := b.occs.foldl occAdd a.occs }

/-- Flags and counts reach CO_FMT_FLAGS and CO_OVF_CNT (02 R68, R70). -/
def coreFlags (s : State) (c : CoreId) (f : FlagSum) : State :=
  let s := if f.flags.ovf then wr s (F.CO_FMT_FLAGS_OVF c) 1 else s
  let s := if f.flags.inv then wr s (F.CO_FMT_FLAGS_INV c) 1 else s
  let s := if f.flags.flushed then wr s (F.CO_FMT_FLAGS_FLUSHED c) 1 else s
  let s := if f.flags.nanIn then wr s (F.CO_FMT_FLAGS_NAN_IN c) 1 else s
  if f.ovfs = 0 then s else bumpOvf s (F.CO_OVF_CNT_COUNT c) f.ovfs (some (F.CO_FMT_FLAGS_CNT_OVF c))

/-- Lexicographic order of two lists of numbers. -/
def lexBefore : List Nat → List Nat → Bool
  | [], _ => false
  | _, [] => false
  | a :: as, b :: bs => decide (a < b) || (a == b && lexBefore as bs)

/-- What the exception log entry n of a cluster orders by (05 R168). -/
def excKey (s : State) (k : ClusterId) (n : Nat) : List Nat :=
  [rd s (F.CL_EXC_W3_STEP k n), rd s (F.CL_EXC_W0_SLOT k n), rd s (F.CL_EXC_W0_INDEX k n), rd s (F.CL_EXC_W1_TROW k n),
   rd s (F.CL_EXC_W1_TCOL k n), rd s (F.CL_EXC_W2_ELEM_ROW k n), rd s (F.CL_EXC_W2_ELEM_COL k n)]

/-- An occurrence reaches the cluster exception log: it replaces the entry only when it orders before it (05 R167, R168). -/
def logOcc (c : CoreId) (trow tcol : Nat) (s : State) (o : Occ) : State :=
  let k := c.cluster
  let key := [stepNum s, slotNum s c, o.index, trow, tcol, o.row, o.col]
  if rdb s (F.CL_EXC_W0_VALID k o.kind) && !lexBefore key (excKey s k o.kind) then s
  else
    raise (wrAll s [(F.CL_EXC_W0_VALID k o.kind, 1), (F.CL_EXC_W0_SRC k o.kind, o.src), (F.CL_EXC_W0_SLOT k o.kind, slotNum s c),
      (F.CL_EXC_W0_INDEX k o.kind, o.index), (F.CL_EXC_W1_TROW k o.kind, trow), (F.CL_EXC_W1_TCOL k o.kind, tcol),
      (F.CL_EXC_W2_ELEM_ROW k o.kind, o.row), (F.CL_EXC_W2_ELEM_COL k o.kind, o.col), (F.CL_EXC_W3_STEP k o.kind, stepNum s)])
      (clSrc k 9)

/-- Occurrences reach the log. -/
def logOccs (s : State) (c : CoreId) (trow tcol : Nat) (l : List Occ) : State := l.foldl (logOcc c trow tcol) s

/-- Is DENORM_FLUSH in force in a core (02 R66, R67)? -/
def flushOn (s : State) (c : CoreId) : Bool := rdb s (F.CO_FMT_CTL_FLUSH_ACTIVE c)

end Sys2Proof.Machine
end

