-- ==== Sys2Proof/Machine/Operands.lean ====
section
/-!
DEFINITION. The fields of instruction words and the checks of operand addresses at dispatch (04 R100, R586; 05 R140 to R143;
06 R175 to R182; 10 R315; 11 R333; 09 R257, R274).
-/

namespace Sys2Proof.Machine

open Sys2Proof

/-! The instruction word, 04 R100. Operand bits count from bit 64. -/

/-- OPC. -/
def opc (w : Nat) : Nat := bits w 0 8
/-- ENG. -/
def engOf (w : Nat) : Nat := bits w 8 4
/-- WAIT_IDX. -/
def waitIdx (w : Nat) : Nat := bits w 16 6
/-- WAIT_PACER. -/
def waitPacer (w : Nat) : Bool := bit w 22
/-- WAIT_CNT. -/
def waitCnt (w : Nat) : Nat := bits w 23 8
/-- POST_IDX. -/
def postIdx (w : Nat) : Nat := bits w 32 6
/-- POST_PACER. -/
def postPacer (w : Nat) : Bool := bit w 38
/-- POST_CNT. -/
def postCnt (w : Nat) : Nat := bits w 39 8
/-- POST_REMOTE. -/
def postRemote (w : Nat) : Bool := bit w 47
/-- POST_SLOT. -/
def postSlot (w : Nat) : Nat := bits w 48 10

/-- A slot by its ten bits [9:7] die, [6:3] cluster, [2:0] slot (04 R100, R124); none where the cluster is none of ten. -/
def slotOfBits (b : Nat) : Option SlotId :=
  if h : bits b 3 4 < 10 then
    some ⟨⟨bits b 7 3, Nat.mod_lt _ (by decide)⟩, ⟨bits b 3 4, h⟩, ⟨bits b 0 3, Nat.mod_lt _ (by decide)⟩⟩
  else none

/-- The baton or pacer that a wait names holds what the wait takes (04 R102, R107). -/
def waitMet (s : State) (c : CoreId) (w : Nat) : Bool :=
  waitCnt w == 0 ||
    (if waitPacer w then decide (waitCnt w ≤ rd s (F.CO_PA_COUNT c (waitIdx w % 16)))
     else decide (waitCnt w ≤ rd s (F.CO_BT_COUNT c (waitIdx w))))

/-- The wait takes its count (04 R102). -/
def takeWait (s : State) (c : CoreId) (w : Nat) : State :=
  if waitCnt w = 0 then s
  else if waitPacer w then
    wr s (F.CO_PA_COUNT c (waitIdx w % 16)) (rd s (F.CO_PA_COUNT c (waitIdx w % 16)) - waitCnt w)
  else wr s (F.CO_BT_COUNT c (waitIdx w)) (rd s (F.CO_BT_COUNT c (waitIdx w)) - waitCnt w)

/-- The post of an instruction leaves for its counter (04 R105). -/
def makePost (s : State) (c : CoreId) (w : Nat) : State :=
  if postCnt w = 0 then s
  else
    let target := if postRemote w then slotOfBits (postSlot w) else coreSlot s c
    match target with
    | some x => { s with posts := s.posts ++ [⟨x, postPacer w, postIdx w, postCnt w⟩] }
    | none => s

/-! Configuration in force at dispatch. -/

/-- The operand bits of the TB_CFG in force for a slot when an instruction is dispatched: the last one dispatched (05 R144). -/
def tbCfgAt (s : State) (c : CoreId) (slot : Nat) : Nat :=
  match ((core s c).tq.filter (fun e => bits e.word 64 5 == slot)).getLast? with
  | some e => e.word / 2 ^ 64
  | none => rd s (F.TB_CFG_CFG c slot)

/-- A word of a chain configuration slot in force at dispatch: that of the last CH_CFG dispatched (06 R176, R178). -/
def chCfgAt (s : State) (c : CoreId) (slot word : Nat) : Nat :=
  match ((core s c).vq.filter (fun e => opc e.word == 2 && bits e.word 64 4 == slot && bits e.word 68 2 == word)).getLast? with
  | some e => bits e.word 80 48
  | none => rd s (F.CH_CFG_WORD c slot word)

/-! TB_CFG fields of its 64 operand bits, 05 R143. -/

/-- SFMT. -/
def tbSfmt (v : Nat) : Nat := bits v 5 4
/-- FFMT. -/
def tbFfmt (v : Nat) : Nat := bits v 9 4
/-- SHIFT. -/
def tbShift (v : Nat) : Int := signed 5 (bits v 13 5)
/-- TRANSPOSE. -/
def tbTrans (v : Nat) : Bool := bit v 18
/-- SMODE. -/
def tbSmode (v : Nat) : Nat := bits v 19 3
/-- GAXIS. -/
def tbGaxis (v : Nat) : Bool := bit v 22
/-- FIXED_CODE. -/
def tbFixed (v : Nat) : Nat := bits v 23 8

/-- Group size of a scale mode (03 R76); 0 where it has no groups. -/
def groupSize (smode : Nat) : Nat :=
  match smode with
  | 3 => 32
  | 4 => 64
  | 5 => 128
  | _ => 0

/-- Width in bits of a format code; 0 for a reserved code. -/
def fmtWidth (code : Nat) : Nat :=
  match Fmt.ofCode code with
  | some f => f.width
  | none => 0

/-- Bytes of n elements of a format (02 R41). -/
def fmtBytes (code n : Nat) : Nat := ceilDiv (n * fmtWidth code) 8

/-- Bytes of the scale tensor of a stored tile (03 R79, 05 R141): rows × cols, groups along the inner dimension, or, with
outer, along the outer one. -/
def scaleBytes (smode rows cols : Nat) (outer : Bool) : Nat :=
  if smode = 2 then 1
  else
    let g := groupSize smode
    if g = 0 then 0
    else if outer then ceilDiv rows g * cols
    else rows * ceilDiv cols g

/-! Window records, 09 R257. -/

/-- One axis of a window record. -/
structure WAxis where
  size : Nat
  out  : Nat
  lo   : Nat
  hi   : Nat
  ker  : Nat
  str  : Nat
  dil  : Nat
deriving DecidableEq, Repr

/-- A window record. -/
structure WRec where
  dims   : Nat
  mode   : Nat
  groups : Nat
  cin    : Nat
  cout   : Nat
  fmt    : Nat
  ax     : List WAxis
deriving DecidableEq, Repr

/-- An axis block (09 R257). -/
def axisOf (b : List Byte) (off : Nat) : WAxis :=
  ⟨leAt b off 4, leAt b (off + 4) 4, leAt b (off + 8) 2, leAt b (off + 10) 2, leAt b (off + 12) 1, leAt b (off + 13) 1,
   leAt b (off + 14) 1⟩

/-- The window record that 64 bytes spell (09 R257). -/
def windowOf (b : List Byte) : WRec :=
  ⟨leAt b 0 1, leAt b 1 1, leAt b 2 2, leAt b 4 4, leAt b 8 4, leAt b 12 1, [axisOf b 0x10, axisOf b 0x20, axisOf b 0x30]⟩

/-- An axis of a record. -/
def WRec.axis (r : WRec) (i : Nat) : WAxis := r.ax.getD i ⟨1, 1, 0, 0, 1, 1, 1⟩

/-- Taps of the window: the product of KER over the axes (09 R261, R274). -/
def WRec.taps (r : WRec) : Nat := (r.axis 0).ker * (r.axis 1).ker * (r.axis 2).ker

/-! A depth-wise record, 09 R274. -/

/-- The fields of a depth-wise record. -/
structure DwRec where
  wrec  : Nat
  first : Nat
  start : Nat
  count : Nat
  reset : Bool
deriving DecidableEq, Repr

/-- The depth-wise record that 32 bytes spell. -/
def dwOf (b : List Byte) : DwRec :=
  ⟨leAt b 0 6, leAt b 8 4, leAt b 12 4, leAt b 16 2, bit (leAt b 18 1) 0⟩

/-! Dispatch checks, 04 R586. -/

/-- Where an operand must lie. -/
inductive Place where
  | ownStore
  | storeOrCluster
  | direct
deriving DecidableEq, Repr

/-- An operand's address to check: the address base concerned, where it lies, how long and how aligned it is. -/
structure Operand where
  ab    : Nat
  addr  : Nat
  len   : Nat
  align : Nat
  place : Place
deriving DecidableEq, Repr

/-- Does a run of bytes lie within one range of the loaded program's range table (04 R125)? -/
def inOneRange (s : State) (a n : Nat) : Bool :=
  match s.prog with
  | some p => p.ranges.any (fun r => decide (r.1 ≤ a ∧ a + n ≤ r.1 + r.2.1))
  | none => false

/-- Is an operand's address good (04 R586)? An engine of a core reaches HBM, cluster stores and core stores (11 R320). -/
def operandOk (s : State) (c : CoreId) (o : Operand) : Bool :=
  o.len == 0 ||
  (o.addr % o.align == 0 && inOneRange s o.addr o.len && populatedRun o.addr o.len &&
    (match o.place, regionOf o.addr with
     | .ownStore, .coreStore x _ => decide (coreSlot s c = some x)
     | .storeOrCluster, .coreStore x _ => decide (coreSlot s c = some x)
     | .storeOrCluster, .clusterStore k _ => decide (k = c.cluster)
     | .direct, .hbm _ _ => true
     | .direct, .clusterStore k _ => decide (k = c.cluster)
     | .direct, .coreStore x _ => decide (x.cluster = c.cluster)
     | _, _ => false))

/-- The operands of a MAC (05 R140, R141, R151; 09 R274). -/
def macOperands (s : State) (c : CoreId) (w : Nat) (ab : List Nat) : List Operand :=
  let a := bits w 67 4
  let base := ab.getD a 0
  let ca := tbCfgAt s c (bits w 71 5)
  let cb := tbCfgAt s c (bits w 76 5)
  let mab := bits w 117 4
  let maddr := ab.getD mab 0
  let dw := bit w 121
  let k := 32 * bits w 81 4
  let rec_ := dwOf (ldBytes s maddr 32)
  let taps := (windowOf (ldBytes s rec_.wrec 64)).taps
  let shape := fun (v : Nat) (plain : Nat × Nat) => if dw then plain else if tbTrans v then (k, 128) else (128, k)
  let (ra, cola) := shape ca (rec_.count, 128)
  let (rb, colb) := shape cb (taps, 128)
  let opnd := fun (off len : Nat) => (⟨a, base + off * 64, len, 64, .ownStore⟩ : Operand)
  (if dw then [⟨mab, maddr, 32, 64, .ownStore⟩] else []) ++
  [opnd 0 (fmtBytes (tbSfmt ca) (ra * cola)), opnd (bits w 85 10) (fmtBytes (tbSfmt cb) (rb * colb)),
   opnd (bits w 95 10) (scaleBytes (tbSmode ca) ra cola (tbGaxis ca)),
   opnd (bits w 105 10) (scaleBytes (tbSmode cb) rb colb (tbGaxis cb))] ++
  (match bits w 115 2 with
   | 1 => [⟨mab, maddr, 16, 64, .ownStore⟩]
   | 2 => [⟨mab, maddr, 1, 64, .ownStore⟩]
   | _ => [])

/-- Where the scale tile of a core-store operand of the chain begins: the first multiple of 64 at or after the end of its data
(06 R182). -/
def vxScaleAt (base fmt vectors : Nat) : Nat := ceilDiv (base + fmtBytes fmt (256 * vectors)) 64 * 64

/-- The operands of a VX (06 R175, R182); with round/convert disabled the destination takes 4-byte elements (06 R197). -/
def vxOperands (s : State) (c : CoreId) (w : Nat) (ab : List Nat) : List Operand :=
  let cfg := bits w 64 4
  let w0 := chCfgAt s c cfg 0
  let w3 := chCfgAt s c cfg 3
  let n := bits w 72 6 + 1
  let tile := fun (a fmt smode : Nat) (outer : Bool) =>
    let base := ab.getD a 0
    [(⟨a, base, fmtBytes fmt (256 * n), 64, .ownStore⟩ : Operand),
     ⟨a, vxScaleAt base fmt n, scaleBytes smode (2 * n) 128 outer, 64, .ownStore⟩]
  (if bits w 68 2 = 1 then tile (bits w 79 4) (bits w0 12 4) (bits w0 16 3) (bit w0 19) else []) ++
  (if bits w 70 2 = 2 then
    (if bit w0 8 then tile (bits w 85 4) (bits w3 0 4) (bits w3 7 3) false else tile (bits w 85 4) Fmt.k32.code 0 false)
   else [])

/-- Bytes that a CX_BUILD reads (10 R294). -/
def buildLen (w : Nat) : Nat := if bit w 72 then min (bits w 96 32) 65536 else bits w 96 32

/-- Plain bytes of the next CX_PACK of a core, as LOAD_PROGRAM derived them (10 R315). -/
def nextPack (s : State) (c : CoreId) : Nat := (core s c).packLens.getD (core s c).packed 0

/-- The operands of a packer and expander instruction (10 R315): of a CX_PACK the headers and the payload area of its blocks, len plain
bytes in all. -/
def cxOperands (len w : Nat) (ab : List Nat) : List Operand :=
  match opc w with
  | 1 => [⟨bits w 73 4, ab.getD (bits w 73 4) 0, buildLen w, 1, .direct⟩, ⟨bits w 77 4, ab.getD (bits w 77 4) 0, 144, 64, .direct⟩]
  | 2 => [⟨bits w 73 4, ab.getD (bits w 73 4) 0, 144, 64, .direct⟩]
  | 4 =>
    let h := ab.getD (bits w 72 4) 0
    let p := ab.getD (bits w 76 4) 0
    let f := bits w 80 24
    if h % 64 ≠ 0 then [⟨bits w 72 4, h, 16, 64, .direct⟩]
    else if p % 64 ≠ 0 then [⟨bits w 76 4, p, 64, 64, .direct⟩]
    else
      let n := ceilDiv len 4096
      [⟨bits w 72 4, h + 16 * f, 16 * n, 1, .direct⟩, ⟨bits w 76 4, p + 4096 * f, 4096 * n, 64, .direct⟩]
  | _ => []

/-- The operand addresses of an engine instruction. -/
def operandsOf (s : State) (c : CoreId) (w : Nat) (ab : List Nat) : List Operand :=
  match engOf w, opc w with
  | 1, 1 => macOperands s c w ab
  | 3, 1 => vxOperands s c w ab
  | 4, 1 => [⟨bits w 64 4, ab.getD (bits w 64 4) 0, 128, 128, .storeOrCluster⟩]
  | 5, _ => cxOperands (nextPack s c) w ab
  | _, _ => []

/-- The address base of the first operand that fails its check at dispatch. -/
def badOperand (s : State) (c : CoreId) (w : Nat) (ab : List Nat) : Option Nat :=
  ((operandsOf s c w ab).find? (fun o => !operandOk s c o)).map (fun o => o.ab)

/-! Engine queues. -/

/-- Entries of a queue. -/
def queueCap : Nat := 16

/-- The queue of an engine code (04 R100). -/
def queueOf (x : CoreSt) (eng : Nat) : List QEntry :=
  match eng with
  | 1 => x.mq
  | 2 => x.tq
  | 3 => x.vq
  | 4 => x.dq
  | 5 => x.cq
  | _ => []

/-- A core's holdings with an entry at the end of an engine's queue. -/
def pushQueue (x : CoreSt) (eng : Nat) (e : QEntry) : CoreSt :=
  match eng with
  | 1 => { x with mq := x.mq ++ [e] }
  | 2 => { x with tq := x.tq ++ [e] }
  | 3 => { x with vq := x.vq ++ [e] }
  | 4 => { x with dq := x.dq ++ [e] }
  | 5 => { x with cq := x.cq ++ [e] }
  | _ => x

/-- A core's holdings without the head of an engine's queue. -/
def popQueue (x : CoreSt) (eng : Nat) : CoreSt :=
  match eng with
  | 1 => { x with mq := x.mq.drop 1 }
  | 2 => { x with tq := x.tq.drop 1 }
  | 3 => { x with vq := x.vq.drop 1 }
  | 4 => { x with dq := x.dq.drop 1 }
  | 5 => { x with cq := x.cq.drop 1 }
  | _ => x

/-- Does a core run its stream? -/
def running (s : State) (c : CoreId) : Bool := rd s (F.CO_SEQ_STAT_STATE c) == 1

/-- The head of an engine's queue, when the core runs and the head is one of the given opcodes and its wait is met (04 R98). -/
def readyHead (s : State) (c : CoreId) (eng : Nat) (ok : Nat → Bool) : Option QEntry :=
  match queueOf (core s c) eng with
  | [] => none
  | e :: _ => if running s c && ok e.word && waitMet s c e.word then some e else none

/-- An engine takes the head of its queue: the wait takes its count, the entry leaves the queue. -/
def takeHead (s : State) (c : CoreId) (eng : Nat) (e : QEntry) : State :=
  let s := takeWait s c e.word
  let x := popQueue (core s c) eng
  setCore s c { x with since := setAt x.since eng s.stallClock }

/-! What is outstanding in a core, 04 R101, R112, R120. -/

/-- Places in the order of the instructions of a core that were dispatched and have not retired. -/
def outstanding (s : State) (c : CoreId) : List Nat :=
  let x := core s c
  let q := fun l : List QEntry => l.map (fun e => e.seq)
  q x.mq ++ q x.tq ++ q x.vq ++ q x.dq ++ q x.cq
    ++ (match x.mx.cur with | some p => [p.entry.seq] | none => []) ++ q x.mx.emits
    ++ x.ch.vxs.map (fun v => v.entry.seq)
    ++ (x.packs.filter (fun j => !j.dma)).map (fun j => j.entry.seq)
    ++ (x.dxs.filter (fun d => !d.stream)).map (fun d => d.entry.seq)
    ++ ((cluster s c.cluster).ccq.filter (fun r => decide (r.core = c))).map (fun r => r.entry.seq)
    ++ x.pend.map (fun p => p.entry.seq)

/-- Every instruction dispatched before a place in the order has retired. -/
def retiredBefore (s : State) (c : CoreId) (seq : Nat) : Bool := (outstanding s c).all (fun n => decide (seq ≤ n))

/-! Hurdles, 04 R111 to R114. -/

/-- Epoch of a hurdle; the eight copies are equal (04 R133). -/
def hdEpoch (s : State) (h : Nat) : Nat := rd s (F.HD_STAT_EPOCH 0 h)

/-- A field of all eight copies of a hurdle is written. -/
def hdSet (s : State) (f : Nat → Fld) (v : Nat) : State := (List.range 8).foldl (fun t d => wr t (f d) v) s

/-- A core's arrival at a hurdle (04 R111): counted in every copy; the last local one of a group hurdle is sent to every other
member and counted as this module's own. -/
def localArrival (s : State) (c : CoreId) (h : Nat) : State :=
  let e := hdEpoch s h
  let n := rd s (F.HD_STAT_LOCAL_ARR 0 h) + 1
  let s := hdSet s (fun d => F.HD_STAT_LOCAL_ARR d h) n
  let x := core s c
  let s := setCore s c { x with arrivals := mapPut x.arrivals h e }
  if rd s (F.HD_CFG_SCOPE 0 h) = 1 ∧ n = rd s (F.HD_CFG_LOCAL_EXPECT 0 h) then
    let v := rd s (F.HD_CFG_VC 0 h)
    let s := hdSet s (fun d => F.HD_ARR_MEMBER_ARR d h) (rd s (F.HD_ARR_MEMBER_ARR 0 h) + 1)
    sendHurdleAll s v 1 h e (stepNum s)
  else s

/-- The dispatched arrivals whose earlier instructions have all retired are made, with their posts (04 R112). -/
def flushArrivals : Nat → State → CoreId → State
  | 0, s, _ => s
  | n + 1, s, c =>
    match (core s c).pend with
    | [] => s
    | p :: ps =>
      if retiredBefore s c p.entry.seq then
        let x := core s c
        let s := setCore s c { x with pend := ps }
        flushArrivals n (makePost (localArrival s c p.hurdle) c p.entry.word) c
      else s

/-- An instruction has retired: its post leaves, and arrivals that waited for it are made (04 R105, R112). -/
def retired (s : State) (c : CoreId) (e : QEntry) : State :=
  let s := makePost s c e.word
  flushArrivals ((core s c).pend.length) s c

end Sys2Proof.Machine
end

