-- ==== Sys2Proof/Machine/Pending.lean ====
section
/-!
DEFINITION. Array flags that wait for their event (05 R162), and the tile status word (05 R161).
-/

namespace Sys2Proof.Machine

open Sys2Proof

/-- The flags that wait for a bank and status generation. -/
def pendFor (l : List PendFlags) (b e : Nat) : PendFlags :=
  match l.find? (fun p => p.bank == b && p.epoch == e) with
  | some p => p
  | none => ⟨b, e, {}, []⟩

/-- The flags that wait, with those of one bank and generation replaced. -/
def setPend (l : List PendFlags) (p : PendFlags) : List PendFlags :=
  l.filter (fun q => !(q.bank == p.bank && q.epoch == p.epoch)) ++ [p]

/-- The status bits of a set of flags (05 R161). -/
def statusBits (f : Flags) : Nat := b2n f.inv + 2 * b2n f.ovf + 4 * b2n f.flushed + 8 * b2n f.nanIn

/-- Bitwise OR into the low flag bits of a status word. -/
def orBits (st v : Nat) : Nat := st ||| v

/-- The tile status word of a bank (05 R161): its own bits with the arithmetic flags of its verified passes. -/
def bankStatus (x : MxSt) (b : Nat) : Nat :=
  orBits (x.status.getD b 0) (statusBits (pendFor x.flags b (x.epoch.getD b 0)).sum.flags)

/-- The flags of one bank and generation take effect: CO_FMT_FLAGS, CO_OVF_CNT and the exception log (05 R162, R167). -/
def flushFlags (s : State) (c : CoreId) (b e trow tcol : Nat) : State :=
  let x := core s c
  let p := pendFor x.mx.flags b e
  let s := setCore s c { x with mx := { x.mx with flags := x.mx.flags.filter (fun q => !(q.bank == b && q.epoch == e)) } }
  logOccs (coreFlags s c p.sum) c trow tcol (p.occs.foldl occAdd p.sum.occs)

/-- Every status that was never emitted (05 R162: END_STEP). -/
def flushAllFlags (s : State) (c : CoreId) : State :=
  (core s c).mx.flags.foldl (fun t p => flushFlags t c p.bank p.epoch 0xFFFF 0xFFFF) s

end Sys2Proof.Machine
end

