-- ==== Sys2Proof/Machine/Tile.lean ====
section
/-!
DEFINITION. Stored tiles: packed codes, scale tiles, widening and storing of scaled elements, group scales, amax records
(02 R41; 03 R74, R75, R79, R87, R89, R94; 05 R141).
-/

namespace Sys2Proof.Machine

open Sys2Proof

/-! Codes. -/

/-- Codes of bytes holding 8-bit elements. -/
def codes8 (bs : List Byte) : List Nat := bs.map (fun b => b.toNat)

/-- Codes of bytes holding 4-bit elements, low half first (02 R41). -/
def codes4 (bs : List Byte) : List Nat := bs.flatMap (fun b => [b.toNat % 16, b.toNat / 16])

/-- Codes of bytes holding 16-bit elements. -/
def codes16 : List Byte → List Nat
  | a :: b :: rest => (a.toNat + 256 * b.toNat) :: codes16 rest
  | _ => []

/-- Codes of bytes holding 32-bit elements. -/
def codes32 : List Byte → List Nat
  | a :: b :: c :: d :: rest => (a.toNat + 256 * b.toNat + 65536 * c.toNat + 16777216 * d.toNat) :: codes32 rest
  | _ => []

/-- The codes that bytes hold in a format (02 R41). -/
def codesOf (f : Fmt) (bs : List Byte) : List Nat :=
  match f.width with
  | 4 => codes4 bs
  | 8 => codes8 bs
  | 16 => codes16 bs
  | _ => codes32 bs

/-- Pairs of 4-bit codes as bytes. -/
def pack4 : List Nat → List Byte
  | a :: b :: rest => BitVec.ofNat 8 (a % 16 + 16 * (b % 16)) :: pack4 rest
  | [a] => [BitVec.ofNat 8 (a % 16)]
  | [] => []

/-- The bytes that hold codes of a format (02 R41). -/
def bytesOf (f : Fmt) (cs : List Nat) : List Byte :=
  if f.width = 4 then pack4 cs else cs.flatMap (fun c => natLE (f.width / 8) c)

/-- A list cut into n rows of a length. -/
def rowsOf {α : Type} : Nat → Nat → List α → List (List α)
  | 0, _, _ => []
  | n + 1, len, l => l.take len :: rowsOf n len (l.drop len)

/-- Rows and columns exchanged; n is the row length. -/
def turned {α : Type} (d : α) (n : Nat) (rows : List (List α)) : List (List α) :=
  (List.range n).map (fun i => rows.map (fun r => r.getD i d))

/-! Scales. -/

/-- The scale codes of one stored row of a tile with cols columns (03 R79). -/
def scaleRow (smode fixed : Nat) (outer : Bool) (scales : List Nat) (cols r : Nat) : List Nat :=
  let g := groupSize smode
  if smode = 0 then List.replicate cols 0x7C
  else if smode = 1 then List.replicate cols fixed
  else if g = 0 then List.replicate cols (scales.getD 0 0x7C)
  else if outer then (scales.drop (r / g * cols)).take cols
  else
    let n := ceilDiv cols g
    (((scales.drop (r * n)).take n).flatMap (fun x => List.replicate g x)).take cols

/-- The value of a KS8 code that is not 0xFF. -/
def scaleVal (code : Nat) : XVal := decodeFloat .ks8 code

/-- A scaled element widened to K32 (03 R75, 02 R48, R56): no flag but INV for scale 0xFF and the flush of R66. -/
def widen (flush : Bool) (f : Fmt) (code scale : Nat) : Nat × Flags :=
  if scale = 0xFF then (Fmt.k32.nanCode, { inv := true })
  else
    let (x, f1) := readCode flush f code
    let (q, _) := xdiv x (scaleVal scale)
    let (r, f2) := roundK32 flush q
    (r, f1.or { flushed := f2.flushed })

/-- A value stored under a scale: the exact product converted once (03 R74). -/
def storeScaled (flush : Bool) (f : Fmt) (cvt scale : Nat) (x : XVal) : Nat × Flags :=
  if scale = 0xFF then (if f.isInt then 0 else f.nanCode, { inv := true })
  else convert flush f (cvtRnd cvt 0) (cvtSat cvt) (if scale = 0x7C then x else (xmul x (scaleVal scale)).1)

/-- fmt_max of a format (03 R87). -/
def fmtMax (f : Fmt) : XVal := decodeFloat f f.maxCode

/-- The scale of a group whose largest finite magnitude is a; none where the group holds no finite value (03 R87). -/
def groupScale (f : Fmt) (a : Option XVal) : Nat × Flags :=
  match a with
  | some (.fin _ n d) => if n = 0 then (0x7C, {}) else convKs8 true (xdiv (fmtMax f) (.fin false n d)).1
  | _ => (0x7C, {})

/-- The larger of two magnitudes. -/
def xmaxMag (a : Option XVal) (x : XVal) : Option XVal :=
  match x with
  | .fin _ n d =>
    (match a with
     | some y => if xless y (.fin false n d) then some (.fin false n d) else some y
     | none => some (.fin false n d))
  | _ => a

/-! Amax records, 03 R89, R94. -/

/-- Module address of an amax record. -/
def amaxAddr (s : State) (h : Nat) : Nat :=
  match s.prog with
  | some p => p.amaxBase + 128 * h
  | none => 0

/-- A converting write's amax, saturations and NaN sources join its record (03 R89, R94). Log 62 (DEDUCED). -/
def mergeAmax (s : State) (m : AmaxAdd) : State :=
  let a := amaxAddr s m.hist
  let s := if ldN s (a + 0x40) 4 < m.amax then stN s (a + 0x40) 4 m.amax else s
  bumpMem (bumpMem (bumpMem s (a + 0x60) m.sat) (a + 0x48) m.sat) (a + 0x50) m.nan

/-- CUR_SCALE of a record (03 R90). -/
def curScale (s : State) (h : Nat) : Nat := ldN s (amaxAddr s h + 0x44) 1

end Sys2Proof.Machine
end

