-- ==== Sys2Proof/Machine/Matrix.lean ====
section
/-!
DEFINITION. The matrix engine and the turn buffer: passes, their verification and re-feed, EMIT and tokens, depth-wise passes
(05; 09 R262 to R274).
-/

namespace Sys2Proof.Machine

open Sys2Proof

/-! Banks. -/

/-- The state of a bank (05 R165): 0 WORK, 1 EMITTING, 2 QUEUED, 3 READING. -/
def bankState (x : CoreSt) (b : Nat) : Nat :=
  if x.ch.held.any (fun h => h.bank == b) then 3
  else if x.mx.zone.any (fun t => t.bank == b) then 2
  else if x.mx.emits.any (fun e => bits e.word 64 2 == b) then 1
  else 0

/-- An element of a bank, +0 where nothing is listed. -/
def bankAt (m : NMap Nat) (i j : Nat) : Nat := mapGet 0 m (i * 128 + j)

/-- The core's matrix holdings replaced. -/
def setMx (s : State) (c : CoreId) (m : MxSt) : State :=
  let x := core s c
  setCore s c { x with mx := m }

/-- A bank's status, row mask and status generation reset (05 R162). -/
def resetStatus (m : MxSt) (b : Nat) : MxSt :=
  { m with status := setAt m.status b 0, rowmask := setAt m.rowmask b 0, epoch := setAt m.epoch b (m.epoch.getD b 0 + 1) }

/-- The status word after a pass is taken (05 R161): PASSES, FFMT, MASKED. -/
def statusPass (st ffmt : Nat) (masked : Bool) : Nat :=
  let n := bits st 12 8
  let f := if n = 0 then ffmt else if bits st 8 4 = ffmt then ffmt else 0xF
  let st := setBits (setBits st 12 8 (min (n + 1) 255)) 8 4 f
  if masked then setBits st 6 1 1 else st

/-- The row mask after a pass is taken (05 R152): rows frozen in every pass since the status reset. -/
def rowmaskPass (st rm frozen : Nat) : Nat := if bits st 12 8 = 0 then frozen else rm &&& frozen

/-! Feeding. -/

/-- An element as the array is fed with it (05 R146, R147): its value, its effective scale, the flags of its conversion. -/
structure Elem where
  v  : XVal
  s  : XVal
  fl : Flags
deriving DecidableEq, Repr

/-- What a missing element is fed as: code 0 under scale 0x7C. -/
def Elem.zero : Elem := ⟨.fin false 0 1, .fin false 1 1, {}⟩

/-- The value times a power of two, exactly. -/
def xshift (x : XVal) (k : Int) : XVal :=
  match x with
  | .fin s n d => if 0 ≤ k then .fin s (n * 2 ^ k.toNat) d else .fin s n (d * 2 ^ (-k).toNat)
  | y => y

/-- The code that the turn buffer makes of a stored code (05 R146, R150). -/
def feedCode (flush : Bool) (sf ff : Fmt) (shift : Int) (code : Nat) : Nat × Flags :=
  let (x, f1) := readCode flush sf code
  if sf = ff then ((if f1.flushed then flushCode sf code else code), f1)
  else
    let (r, f2) := convFloat ff .rne false (xshift x shift)
    (r, f1.or f2)

/-- The element of a fed code under a stored scale code (05 R147, R150; 02 R48). DESIGN CHOICE, log 97: INV of scale 0xFF is reported at the
port that feeds the element. -/
def elemOf (ff : Fmt) (shift : Int) (code scale : Nat) (fl : Flags) : Elem :=
  if scale = 0xFF then ⟨.nan, .fin false 1 1, { inv := true }⟩
  else ⟨decodeFloat ff code, xshift (scaleVal scale) shift, fl⟩

/-- The stored tile of a port, row by row, as fed elements. -/
def tileElems (s : State) (flush : Bool) (cfg base scaleBase rows cols : Nat) : List (List Elem) :=
  match Fmt.ofCode (tbSfmt cfg), Fmt.ofCode (tbFfmt cfg) with
  | some sf, some ff =>
    let data := rowsOf rows cols (codesOf sf (ldBytes s base (fmtBytes (tbSfmt cfg) (rows * cols))))
    let scales := codes8 (ldBytes s scaleBase (scaleBytes (tbSmode cfg) rows cols (tbGaxis cfg)))
    data.mapIdx (fun r cs =>
      (cs.zip (scaleRow (tbSmode cfg) (tbFixed cfg) (tbGaxis cfg) scales cols r)).map (fun e =>
        let (q, fl) := feedCode flush sf ff (tbShift cfg) e.1
        elemOf ff (tbShift cfg) q e.2 fl))
  | _, _ => []

/-- The operand rows of a port: row i holds the elements of reduction index 0 to k − 1 (05 R135, R141). -/
def operandRows (s : State) (flush : Bool) (cfg base scaleBase k : Nat) : List (List Elem) :=
  if tbTrans cfg then turned Elem.zero 128 (tileElems s flush cfg base scaleBase k 128)
  else tileElems s flush cfg base scaleBase 128 k

/-- Is an operand aligned (05 R148)? -/
def alignedOp (cfg : Nat) : Bool := groupSize (tbSmode cfg) == 0 || tbGaxis cfg == tbTrans cfg

/-- The conversion flags of an operand, against its rows; frozen rows raise none (05 R152, R169). -/
def convFlags (src index frozen : Nat) (rows : List (List Elem)) : FlagSum :=
  (rows.mapIdx (fun i r => (i, r))).foldl (fun f e =>
    if bit frozen e.1 then f
    else e.2.foldl (fun g x => g.addAt src index e.1 0xFF 1 x.fl) f) {}

/-! Cells, 05 R149, R150. -/

/-- What a cell holds during a pass: its bank element, its run partial, its flags. -/
structure Cell where
  acc  : Nat
  part : Nat
  fl   : Flags
deriving DecidableEq, Repr

/-- The product of two fed elements in K32 (02 R62). -/
def product (flush : Bool) (a b : XVal) : Nat × Flags :=
  let (p, f1) := xmul a b
  let (r, f2) := roundK32 flush p
  (r, f1.or f2)

/-- A K32 value divided by the exact product of two effective scales, rounded to K32 (05 R149). -/
def unscale (flush : Bool) (p : Nat) (sa sb : XVal) : Nat × Flags :=
  match decodeFloat .k32 p with
  | .nan => (Fmt.k32.nanCode, {})
  | x => roundK32 flush (xdiv x (xmul sa sb).1).1

/-- A term is added to the bank element. -/
def addTerm (flush : Bool) (cl : Cell) (p : Nat) (sa sb : XVal) : Cell :=
  let (q, f1) := unscale flush p sa sb
  let (r, f2) := k32Add flush cl.acc q
  { cl with acc := r, fl := (cl.fl.or f1).or f2 }

/-- One reduction index of a cell where an operand is crossed: the product is unscaled and added by itself. -/
def crossedStep (flush : Bool) (cl : Cell) (a b : Elem) : Cell :=
  let (p, f) := product flush a.v b.v
  addTerm flush { cl with fl := cl.fl.or f } p a.s b.s

/-- One reduction index of a cell with both operands aligned: the product joins the run partial, and at the run's end the
partial is unscaled and added. -/
def alignedStep (flush : Bool) (runEnd : Nat → Bool) (cl : Cell) (k : Nat) (a b : Elem) : Cell :=
  let (p, f1) := product flush a.v b.v
  let (r, f2) := k32Add flush cl.part p
  let cl := { cl with part := r, fl := (cl.fl.or f1).or f2 }
  if runEnd (k + 1) then addTerm flush { cl with part := 0 } r a.s b.s else cl

/-- The bank element of a cell after a pass, with the flags of its arithmetic. -/
def cellPass (flush crossed : Bool) (runEnd : Nat → Bool) (acc : Nat) (a b : List Elem) : Nat × Flags :=
  let z := (a.zip b).mapIdx (fun k e => (k, e))
  let r := z.foldl (fun cl e =>
    if crossed then crossedStep flush cl e.2.1 e.2.2 else alignedStep flush runEnd cl e.1 e.2.1 e.2.2) ⟨acc, 0, {}⟩
  (r.acc, r.fl)

/-- Ends of runs (05 R149): every multiple of G of each aligned group-scaled operand, and the end of the pass. -/
def runEnds (ca cb k : Nat) (n : Nat) : Bool :=
  n == k || (groupSize (tbSmode ca) != 0 && n % groupSize (tbSmode ca) == 0)
    || (groupSize (tbSmode cb) != 0 && n % groupSize (tbSmode cb) == 0)

/-- The bank after a pass and the array's flags. cellsOf gives the operand elements of cell (i, j). -/
def arrayPass (flush crossed clear : Bool) (runEnd : Nat → Bool) (index frozen : Nat) (old : NMap Nat)
    (cellsOf : Nat → Nat → List Elem × List Elem) : NMap Nat × FlagSum :=
  (List.range 128).foldl (fun (acc : NMap Nat × FlagSum) i =>
    if bit frozen i then
      (acc.1 ++ (if clear then [] else old.filter (fun e => e.1 / 128 == i)), acc.2)
    else
      let row := (List.range 128).map (fun j =>
        let ab := cellsOf i j
        (j, cellPass flush crossed runEnd (if clear then 0 else bankAt old i j) ab.1 ab.2))
      (acc.1 ++ (row.filter (fun e => e.2.1 != 0)).map (fun e => (i * 128 + e.1, e.2.1)),
       row.foldl (fun f e => f.addAt 0 index i e.1 1 e.2.2) acc.2)) ([], {})

/-! Checks on every pass, 05 R153 to R156. -/

/-- The modulus of the exact check (05 R154). -/
def checkModulus : Nat := 2 ^ 31 - 1

/-- The unit of a fed element, whose square is the product quantum, as a power of two (05 R154). -/
def unitBits : Fmt → Nat
  | .k4 => 1
  | .k8m => 9
  | _ => 16

/-- An element in units; a NaN code counts as 0 (05 R154). -/
def unitsOf (ff : Fmt) (x : XVal) : Int :=
  match x with
  | .fin s n d => (if s then -1 else 1) * ((n * 2 ^ unitBits ff / d : Nat) : Int)
  | _ => 0

/-- A magnitude rounded upward to K32 (05 R155). -/
def roundUpK32 (x : XVal) : Nat :=
  let c := (convFloat .k32 .rtz false x).1
  match x, decodeFloat .k32 c with
  | .fin _ n d, .fin _ m e => if n * e = m * d then c else c + 1
  | _, _ => c

/-- An operation on K32 magnitudes, rounded upward. -/
def upOp (op : XVal → XVal → XVal × Flags) (a b : Nat) : Nat := roundUpK32 (op (decodeFloat .k32 a) (decodeFloat .k32 b)).1

/-- How a lane calculates. -/
structure LaneArith (α : Type) where
  zero : α
  add  : α → α → α
  mul  : α → α → α
  val  : XVal → α

/-- The exact lanes of K4, K8M and K8E. -/
def exactLane (ff : Fmt) : LaneArith Int := ⟨0, (· + ·), (· * ·), unitsOf ff⟩

/-- The lanes of K16 in K32, RNE. -/
def k32Lane : LaneArith Nat := ⟨0, fun a b => (k32Add false a b).1, fun a b => (k32Mul false a b).1, fun x => (roundK32 false x).1⟩

/-- The magnitude sums of K16, rounded upward. -/
def magLane : LaneArith Nat := ⟨0, upOp xadd, upOp xmul, fun x => roundUpK32 (xabs x)⟩

/-- The sum of a list, in order, from +0. -/
def LaneArith.sum {α : Type} (r : LaneArith α) (l : List α) : α := l.foldl r.add r.zero

/-- Lists added place by place, in order. -/
def LaneArith.sums {α : Type} (r : LaneArith α) (n : Nat) (ls : List (List α)) : List α :=
  ls.foldl (List.zipWith r.add) (List.replicate n r.zero)

/-- The products of two lists, added in increasing index. -/
def LaneArith.dot {α : Type} (r : LaneArith α) (a b : List α) : α := r.sum (List.zipWith r.mul a b)

/-- Side registers, row lane and column lane of a pass: a i j and b i j are the operand elements of cell (i, j), rows the unfrozen rows. A
depth-wise pass forms its column lane from each column's own operands (05 R154, R155; 09 R274). -/
def lanesOf {α : Type} (r : LaneArith α) (dw : Bool) (rows : List Nat) (a b : Nat → Nat → List XVal) :
    List (Nat × α) × List α × List α :=
  let va := fun (i j : Nat) => (a i j).map r.val
  let vb := fun (i j : Nat) => (b i j).map r.val
  let i0 := rows.headD 0
  let n := (vb i0 0).length
  (rows.flatMap (fun i => (List.range 128).map (fun j => (i * 128 + j, r.dot (va i j) (vb i j)))),
   (List.range 128).map (fun j => r.dot (r.sums n (rows.map (fun i => va i j))) (vb i0 j)),
   (List.range 128).map (fun i =>
     if !rows.contains i then r.zero
     else if dw then r.sum (r.sums n ((List.range 128).map (fun j => List.zipWith r.mul (va i j) (vb i j))))
     else r.dot (va i 0) (r.sums n ((List.range 128).map (fun j => vb i j)))))

/-- Rows that a pass does not freeze. -/
def unfrozen (frozen : Nat) : List Nat := (List.range 128).filter (fun i => !bit frozen i)

/-- What a pass's comparison compares (05 R154, R155). -/
def checkOf (ffmt frozen klen : Nat) (dw : Bool) (cellsOf : Nat → Nat → List Elem × List Elem) : PassCheck :=
  let a := fun (i j : Nat) => (cellsOf i j).1.map (fun e => e.v)
  let b := fun (i j : Nat) => (cellsOf i j).2.map (fun e => e.v)
  let rows := unfrozen frozen
  if ffmt = 3 then
    let l := lanesOf k32Lane dw rows a b
    let m := lanesOf magLane dw rows a b
    { side := l.1, rowLane := l.2.1, colLane := l.2.2, rowMag := m.2.1, colMag := m.2.2, klen := klen }
  else
    let l := lanesOf (exactLane ((Fmt.ofCode ffmt).getD .k8m)) dw rows a b
    let res := fun (x : Int) => (x.emod checkModulus).toNat
    { side := l.1.map (fun e => (e.1, res e.2)), rowLane := l.2.1.map res, colLane := l.2.2.map res, klen := klen }

/-- The tolerance of a K16 comparison: every operation rounds upward (05 R155). -/
def tolerance (klen mag : Nat) : Nat :=
  let k := fun (x : XVal) => roundUpK32 x
  upOp xmul (k (.fin false (klen + 132) 1)) (upOp xadd (upOp xmul (k (.fin false 1 (2 ^ 22))) mag) (k (.fin false 1 (2 ^ 275))))

/-- Does a K16 comparison fail? It is not made where a compared value or the magnitude sum is infinite or NaN (05 R155). DEDUCED, log 94: the
difference is exact. -/
def k16Fails (klen side lane mag : Nat) : Bool :=
  match decodeFloat .k32 mag, (xadd (decodeFloat .k32 side) (xneg (decodeFloat .k32 lane))).1 with
  | .fin _ _ _, .fin s n d => xless (decodeFloat .k32 (tolerance klen mag)) (xabs (.fin s n d))
  | _, _ => false

/-- Does one comparison of a pass fail: its side registers, in increasing order, against a lane value (05 R154, R155)? -/
def laneFails (ffmt klen : Nat) (sides : List Nat) (lane mag : Nat) : Bool :=
  if ffmt = 3 then k16Fails klen (k32Lane.sum sides) lane mag
  else sides.foldl (· + ·) 0 % checkModulus != lane % checkModulus

/-- The lowest row comparison and the lowest column comparison of a pass that fail; frozen rows take no part (05 R152, R154, R155). -/
def compareFails (ffmt frozen : Nat) (k : PassCheck) : Option Nat × Option Nat :=
  let rows := unfrozen frozen
  let at_ := fun (i j : Nat) => mapGet 0 k.side (i * 128 + j)
  (rows.find? (fun i => laneFails ffmt k.klen ((List.range 128).map (at_ i)) (k.colLane.getD i 0) (k.colMag.getD i 0)),
   (List.range 128).find? (fun j => laneFails ffmt k.klen (rows.map (fun i => at_ i j)) (k.rowLane.getD j 0) (k.rowMag.getD j 0)))

/-- Check values as an upset leaves them. -/
def upset (k : PassCheck) (cells : List (Fin 128 × Fin 128 × BitVec 32)) (rowLane colLane : List (Fin 128 × BitVec 32)) : PassCheck :=
  { k with side := cells.foldl (fun m e => mapPut m (e.1.val * 128 + e.2.1.val) e.2.2.toNat) k.side,
           rowLane := rowLane.foldl (fun l e => setAt l e.1.val e.2.toNat) k.rowLane,
           colLane := colLane.foldl (fun l e => setAt l e.1.val e.2.toNat) k.colLane }

/-- Does the residue check modulo 3 of a significand operation fail (05 R156)? -/
def residueFails (op : CellOp) (a b result rest : Nat) : Bool :=
  match op with
  | .multiply => a % 3 * (b % 3) % 3 != result % 3
  | .add => (a % 3 + b % 3) % 3 != result % 3
  | .divide => (result % 3 * (b % 3) + rest % 3) % 3 != a % 3

/-! Taking a pass. -/

/-- Rows that a MAC's mask freezes (05 R151). -/
def frozenRows (s : State) (w : Nat) (ab : List Nat) : Nat :=
  let a := ab.getD (bits w 117 4) 0
  match bits w 115 2 with
  | 1 => leNat (ldBytes s a 16)
  | 2 => if ldN s a 1 % 2 = 1 then 2 ^ 128 - 1 else 0
  | _ => 0

/-- Is a bank in WORK, the array free, no re-feed under way, fewer than four passes unverified, and every TB_CFG dispatched
ahead executed (05 R136, R144, R157, R158, R166)? -/
def arrayFree (s : State) (c : CoreId) (e : QEntry) : Bool :=
  let x := core s c
  x.mx.cur.isNone && x.mx.refeed.isEmpty && decide (x.mx.unver.length < 4) && bankState x (bits e.word 64 2) == 0
    && x.tq.all (fun t => decide (e.seq ≤ t.seq))

/-- The outcome of a pass as the array forms it: fed format, frozen rows, the bank after it, flags of its conversions and of its arithmetic,
the window-ring places it reads, whether it reads only padding (09 R265), and its check values. -/
structure PassWork where
  ffmt   : Nat
  frozen : Nat
  after  : NMap Nat
  conv   : FlagSum := {}
  arith  : FlagSum := {}
  places : List Nat := []
  padding : Bool := false
  check  : PassCheck := {}

/-- A pass is taken with its result (05 R140, R152, R157, R162): CLEAR sets the flags of the status it resets. A pass that reads only padding
counts nowhere (09 R265). Log 43 (DESIGN CHOICE). -/
def takePass (s : State) (c : CoreId) (e : QEntry) (p : PassWork) : State :=
  let b := bits e.word 64 2
  let clear := bit e.word 66
  let all := p.frozen == 2 ^ 128 - 1
  let x := core s c
  let prior := x.mx.banks.getD b []
  let priorSt := x.mx.status.getD b 0
  let priorRm := x.mx.rowmask.getD b 0
  let priorEp := x.mx.epoch.getD b 0
  let s := if clear then
      let s := flushFlags s c b priorEp 0xFFFF 0xFFFF
      let y := core s c
      setMx s c { resetStatus y.mx b with
        unver := y.mx.unver.map (fun p => if p.bank = b ∧ p.epoch = priorEp then { p with flagsDue := true } else p) }
    else s
  let m := (core s c).mx
  let st := m.status.getD b 0
  let q : Pass := { entry := e, bank := b, clear := clear, epoch := m.epoch.getD b 0, ffmt := p.ffmt, frozen := p.frozen,
                    prior := prior, priorSt := priorSt, priorRm := priorRm, priorEp := priorEp, after := p.after,
                    conv := p.conv, arith := p.arith, products := !all && !p.padding, places := p.places, omitted := p.padding, check := p.check }
  let s := setMx s c { m with
    cur := some q
    banks := setAt m.banks b p.after
    status := if p.padding then m.status else setAt m.status b (statusPass st p.ffmt (p.frozen != 0))
    rowmask := if p.padding then m.rowmask else setAt m.rowmask b (rowmaskPass st (m.rowmask.getD b 0) p.frozen) }
  if all && !p.padding then bump s (F.MX_BLK_SKIP_COUNT c) 1 else s

/-- The result of a MAC fed by its two ports. -/
def macResult (s : State) (c : CoreId) (e : QEntry) : PassWork :=
  let w := e.word
  let ca := rd s (F.TB_CFG_CFG c (bits w 71 5))
  let cb := rd s (F.TB_CFG_CFG c (bits w 76 5))
  let frozen := frozenRows s w e.ab
  let old := (core s c).mx.banks.getD (bits w 64 2) []
  let flush := flushOn s c
  if frozen = 2 ^ 128 - 1 then { ffmt := tbFfmt ca, frozen := frozen, after := if bit w 66 then [] else old }
  else
    let base := e.ab.getD (bits w 67 4) 0
    let k := 32 * bits w 81 4
    let ra := operandRows s flush ca base (base + 64 * bits w 95 10) k
    let rb := operandRows s flush cb (base + 64 * bits w 85 10) (base + 64 * bits w 105 10) k
    let cells := fun (i j : Nat) => (ra.getD i [], rb.getD j [])
    let z := arrayPass flush (!(alignedOp ca && alignedOp cb)) (bit w 66) (runEnds ca cb k) e.idx frozen old cells
    { ffmt := tbFfmt ca, frozen := frozen, after := z.1, conv := (convFlags 1 e.idx frozen ra).join (convFlags 2 e.idx 0 rb), arith := z.2,
      check := checkOf (tbFfmt ca) frozen k false cells }

/-- MAC (05 R135 to R152): one pass into a bank. Err is what the core store's check bits report of its reads (01 R18); an
uncorrectable error leaves the MAC untaken, a fault of the core. -/
def execMac (c : CoreId) (err : StoreErr) (s : State) : Host.Outcome State Fault Refusal :=
  .next (match readyHead s c 1 (fun w => opc w == 1 && !bit w 121) with
    | none => s
    | some e =>
      if !arrayFree s c e then s
      else if err = .uncorrectable then storeError s c err
      else
        let s := takeHead (storeError s c err) c 1 e
        takePass s c e (macResult s c e))

/-! Depth-wise passes, 09 R274. -/

/-- Places of the window ring in a fed format. -/
def ringSize (ffmt : Nat) : Nat := if ffmt = 3 then 1024 else 2048

/-- A coordinate of an axis, or none in padding: below 0, or at or beyond SIZE (09 R262). -/
def coordOf (a : WAxis) (x : Int) : Option Nat := if 0 ≤ x ∧ x < a.size then some x.toNat else none

/-- The input position of axis coordinates, flattened as 09 R274 does, or none in padding. -/
def posOf (r : WRec) (x y z : Int) : Option Nat :=
  match coordOf (r.axis 0) x, coordOf (r.axis 1) y, coordOf (r.axis 2) z with
  | some x, some y, some z => some ((z * (r.axis 1).size + y) * (r.axis 0).size + x)
  | _, _, _ => none

/-- The index that output p reads at tap t along an axis (09 R262). -/
def tapIndex (a : WAxis) (p t : Nat) : Int := (p * a.str + t * a.dil : Nat) - (a.lo : Int)

/-- The input position that an output reads at a tap, or none in padding (09 R262, R274). -/
def inputPos (r : WRec) (o : Nat × Nat × Nat) (t : Nat × Nat × Nat) : Option Nat :=
  posOf r (tapIndex (r.axis 0) o.1 t.1) (tapIndex (r.axis 1) o.2.1 t.2.1) (tapIndex (r.axis 2) o.2.2 t.2.2)

/-- Output position n by its axis coordinates, axis 2 outermost (09 R262). -/
def outCoord (r : WRec) (n : Nat) : Nat × Nat × Nat :=
  (n % (r.axis 0).out, n / (r.axis 0).out % (r.axis 1).out, n / ((r.axis 0).out * (r.axis 1).out))

/-- Outputs of the whole tensor: a depth-wise tile wholly beyond them delivers nothing (DEDUCED, log 108). -/
def outCount (r : WRec) : Nat := (r.axis 0).out * (r.axis 1).out * (r.axis 2).out

/-- Tap n by its axis coordinates, axis 2 outermost (09 R262, R263). -/
def tapCoord (r : WRec) (n : Nat) : Nat × Nat × Nat :=
  (n % (r.axis 0).ker, n / (r.axis 0).ker % (r.axis 1).ker, n / ((r.axis 0).ker * (r.axis 1).ker))

/-- The window ring after a delivery of stored rows (09 R274), and the flags of their conversion. -/
def deliver (s : State) (c : CoreId) (e : QEntry) (d : DwRec) : NMap RingRow × FlagSum :=
  let w := e.word
  let cfg := rd s (F.TB_CFG_CFG c (bits w 71 5))
  let base := e.ab.getD (bits w 67 4) 0
  let ring := if d.reset then [] else (core s c).ring
  let flush := flushOn s c
  match Fmt.ofCode (tbSfmt cfg), Fmt.ofCode (tbFfmt cfg) with
  | some sf, some ff =>
    let data := rowsOf d.count 128 (codesOf sf (ldBytes s base (fmtBytes (tbSfmt cfg) (d.count * 128))))
    let scales := codes8 (ldBytes s (base + 64 * bits w 95 10) (scaleBytes (tbSmode cfg) d.count 128 (tbGaxis cfg)))
    (data.mapIdx (fun r cs => (r, cs))).foldl (fun acc x =>
      let sc := scaleRow (tbSmode cfg) (tbFixed cfg) (tbGaxis cfg) scales 128 x.1
      let fed := x.2.map (feedCode flush sf ff (tbShift cfg))
      let fl := (fed.zip sc).foldl (fun (g : FlagSum) q =>
        g.addAt 1 e.idx x.1 0xFF 1 (if q.2 = 0xFF then { inv := true } else q.1.2)) acc.2
      let n := d.start + x.1
      (mapPut acc.1 (n % ringSize (tbFfmt cfg)) ⟨n, fed.map (fun q => q.1), sc, tbShift cfg⟩, fl)) (ring, {})
  | _, _ => (ring, {})

/-- The ring places a delivery replaces. -/
def deliverPlaces (ffmt : Nat) (d : DwRec) : List Nat := (List.range d.count).map (fun i => (d.start + i) % ringSize ffmt)

/-- The input positions that each output row of a depth-wise pass reads, tap by tap; a row beyond the last output is frozen. -/
def dwReads (r : WRec) (d : DwRec) : List (List (Option Nat)) :=
  (List.range 128).map (fun i =>
    if outCount r ≤ d.first + i then []
    else (List.range r.taps).map (fun t => inputPos r (outCoord r (d.first + i)) (tapCoord r t)))

/-- MAC_DEPTHWISE (09 R274): a MAC with DW set. A tap whose position the ring does not hold is ADDR_RANGE when it is taken; a
delivery waits for the verification of a pass that has read a place it replaces. A tile beyond the last output is frozen whole: it
reads no operands and delivers nothing (05 R152). A pass whose every tap lies in padding is omitted (R265): its positions enter the ring,
and it forms no product, is not checked and counts nowhere (DEDUCED, log 108). -/
def execMacDepthwise (c : CoreId) (err : StoreErr) (s : State) : Host.Outcome State Fault Refusal :=
  .next (match readyHead s c 1 (fun w => opc w == 1 && bit w 121) with
    | none => s
    | some e =>
      let w := e.word
      let d := dwOf (ldBytes s (e.ab.getD (bits w 117 4) 0) 32)
      let r := windowOf (ldBytes s d.wrec 64)
      let ca := rd s (F.TB_CFG_CFG c (bits w 71 5))
      let cb := rd s (F.TB_CFG_CFG c (bits w 76 5))
      let ffmt := tbFfmt ca
      let none_ := decide (outCount r ≤ d.first)
      let busy := !none_ && (core s c).mx.unver.any (fun p => p.places.any (fun q => (deliverPlaces ffmt d).contains q))
      if !arrayFree s c e ∨ busy then s
      else if err = .uncorrectable then storeError s c err
      else
        let s := takeHead (storeError s c err) c 1 e
        let (ring, fl) := if none_ then ((core s c).ring, ({} : FlagSum)) else deliver s c e d
        let x := core s c
        let s := setCore s c { x with ring := ring }
        let reads := dwReads r d
        let held := fun n => (mapFind ring (n % ringSize ffmt)).any (fun q => q.tag == n)
        if !reads.all (fun l => l.all (fun p => match p with | some n => held n | none => true)) then
          programFault s c 0x05 (bits w 67 4) e.idx 1
        else
          let frozen := leNat (((List.range 128).map (fun i => decide (outCount r ≤ d.first + i))).mapIdx (fun i f =>
            (i, f)) |>.foldl (fun (l : List Byte) p => if p.2 then l.set (p.1 / 8) (l.getD (p.1 / 8) 0 ||| BitVec.ofNat 8 (2 ^ (p.1 % 8))) else l)
              (List.replicate 16 0))
          let old := (core s c).mx.banks.getD (bits w 64 2) []
          let flush := flushOn s c
          let base := e.ab.getD (bits w 67 4) 0
          let filt := tileElems s flush cb (base + 64 * bits w 85 10) (base + 64 * bits w 105 10) r.taps 128
          let ff := (Fmt.ofCode ffmt).getD .k8m
          let chan := fun (p : Option Nat) (j : Nat) =>
            match p with
            | none => Elem.zero
            | some n =>
              let q := mapGet ⟨0, [], [], 0⟩ ring (n % ringSize ffmt)
              elemOf ff q.shift (q.codes.getD j 0) (q.scales.getD j 0x7C) {}
          let pad : Bool := !none_ && reads.all (fun l => l.all Option.isNone)
          if none_ ∨ pad then takePass s c e { ffmt := ffmt, frozen := frozen, after := if bit w 66 then [] else old, conv := fl, padding := pad }
          else
            let cells := fun (i j : Nat) => ((reads.getD i []).map (fun p => chan p j), filt.map (fun row => row.getD j Elem.zero))
            let z := arrayPass flush true (bit w 66) (fun _ => false) e.idx frozen old cells
            takePass s c e
              { ffmt := ffmt, frozen := frozen, after := z.1, conv := fl.join (convFlags 2 e.idx 0 (turned Elem.zero 128 filt)), arith := z.2,
                places := reads.flatMap (fun l => l.filterMap (fun p => p.map (fun n => n % ringSize ffmt))),
                check := checkOf ffmt frozen (32 * bits w 81 4) true cells })

/-! Retirement and verification. -/

/-- MAC_RETIRE (05 R138, R162): the pass in the array retires; its conversion flags are set, its post leaves. -/
def execMacRetire (c : CoreId) (s : State) : Host.Outcome State Fault Refusal :=
  .next (match running s c, (core s c).mx.cur with
    | true, some p =>
      if !(core s c).mx.refeed.isEmpty then s
      else
        let s := coreFlags s c p.conv
        let m := (core s c).mx
        let st := m.status.getD p.bank 0
        let st := if m.epoch.getD p.bank 0 = p.epoch then orBits st (statusBits p.conv.flags) else st
        let q := pendFor m.flags p.bank p.epoch
        let m := { m with
          cur := none
          status := setAt m.status p.bank st
          unver := if p.products then m.unver ++ [p] else m.unver
          skipped := if !p.products && m.unver.any (fun q => q.bank == p.bank) then m.skipped ++ [p] else m.skipped
          flags := if p.conv.occs = [] then m.flags else setPend m.flags { q with occs := p.conv.occs.foldl occAdd q.occs } }
        retired (setMx s c m) c p.entry
    | _, _ => s)

/-- The passes without products that still stand behind an unverified pass of their bank. -/
def stillBehind (unver skipped : List Pass) : List Pass :=
  skipped.filter (fun q => unver.any (fun p => p.bank == q.bank && decide (p.entry.seq < q.entry.seq)))

/-- The comparison of the oldest unverified pass has passed (05 R157, R160, R162). -/
def passOk (s : State) (c : CoreId) (p : Pass) (rest : List Pass) : State :=
  let s := bump s (F.MX_CHK_PASSES_COUNT c) 1
  let m := (core s c).mx
  let s := setMx s c { m with unver := rest, skipped := stillBehind rest m.skipped }
  if p.flagsDue then logOccs (coreFlags s c p.arith) c 0xFFFF 0xFFFF p.arith.occs
  else
    let m := (core s c).mx
    let q := pendFor m.flags p.bank p.epoch
    setMx s c { m with flags := setPend m.flags { q with sum := q.sum.join p.arith } }

/-- A mismatch is counted (05 R160, 18 R516): the last three stand in MX_CHK_AT, and three within 10^6 comparisons retire the core. -/
def countMismatch (s : State) (c : CoreId) : State :=
  let s := bump s (F.MX_CHK_MISS_COUNT c) 1
  let s := wrAll s [(F.MX_CHK_AT_COUNT c 2, rd s (F.MX_CHK_AT_COUNT c 1)), (F.MX_CHK_AT_COUNT c 1, rd s (F.MX_CHK_AT_COUNT c 0)),
    (F.MX_CHK_AT_COUNT c 0, rd s (F.MX_CHK_PASSES_COUNT c))]
  if 3 ≤ rd s (F.MX_CHK_MISS_COUNT c) ∧ rd s (F.MX_CHK_AT_COUNT c 0) - rd s (F.MX_CHK_AT_COUNT c 2) < 1000000 then
    retireCore s c 0x07
  else s

/-- The banks that a pass or a later one touched take their values before it (05 R158). Log 44 (DEDUCED). -/
def restoreBanks (m : MxSt) (ps : List Pass) : MxSt :=
  ps.reverse.foldl (fun m p =>
    { m with banks := setAt m.banks p.bank p.prior, status := setAt m.status p.bank p.priorSt,
             rowmask := setAt m.rowmask p.bank p.priorRm, epoch := setAt m.epoch p.bank p.priorEp }) m

/-- A pass put into a list by its place in the order of instructions. -/
def insertPass (p : Pass) : List Pass → List Pass
  | [] => [p]
  | q :: l => if q.entry.seq ≤ p.entry.seq then q :: insertPass p l else p :: q :: l

/-- Checked passes and those without products in their original order (05 R158). -/
def inOrder (checked skipped : List Pass) : List Pass := skipped.foldl (fun l p => insertPass p l) checked

/-- A comparison of the oldest unverified pass fails, in its lowest row and column comparison as named (05 R158, R159, R169): the re-feed
begins, or, at the third, the core stops. -/
def passFails (s : State) (c : CoreId) (p : Pass) (rest : List Pass) (row col : Option Nat) : State :=
  let s := countMismatch (bump s (F.MX_CHK_PASSES_COUNT c) 1) c
  if 3 ≤ p.compared + 1 then
    stepFault (wr s (F.CO_SEQ_STAT_STATE c) 3) (coreUnit c) 0x01
  else
    let m := (core s c).mx
    let p' := { p with compared := p.compared + 1, retries := p.retries + 1 }
    let m' := restoreBanks m (inOrder (p :: rest) m.skipped ++ m.cur.toList)
    let q := pendFor m.flags p.bank p.epoch
    let o : Occ := ⟨5, 0, p.entry.idx, row.getD 0xFF, col.getD 0xFF⟩
    setMx s c { m' with unver := p' :: rest, refeed := p' :: rest, waits := m.emits.map (fun e => e.seq),
                        flags := setPend m.flags { q with occs := occAdd q.occs o } }

/-- The oldest unverified pass, where the array compares it: the core runs and no re-feed is in progress. -/
def comparedHead (s : State) (c : CoreId) : Option (Pass × List Pass) :=
  match running s c && (core s c).mx.refeed.isEmpty, (core s c).mx.unver with
  | true, p :: rest => some (p, rest)
  | _, _ => none

/-- The oldest unverified pass is compared, with its check values as given (05 R153 to R155). -/
def comparePass (s : State) (c : CoreId) (p : Pass) (rest : List Pass) (k : PassCheck) : State :=
  match compareFails p.ffmt p.frozen k with
  | (none, none) => passOk s c p rest
  | (row, col) => passFails s c p rest row col

/-- PASS_VERIFIED (05 R157, R160, R162): the oldest unverified pass is compared, and nothing has upset it. A fault-free pass passes (R154,
R155). -/
def execPassVerified (c : CoreId) (s : State) : Host.Outcome State Fault Refusal :=
  .next (match comparedHead s c with
    | some (p, rest) => comparePass s c p rest p.check
    | none => s)

/-- PASS_MISMATCH (05 R154 to R159): the oldest unverified pass is compared with what an upset left of its check values, and passes where the
comparison does not see it; or a residue check of an unfrozen cell fails; or the turn buffer's two paths disagree on the pass in the array. -/
def execPassMismatch (c : CoreId) (kind : Mismatch) (s : State) : Host.Outcome State Fault Refusal :=
  .next (match kind with
    | .turnPath a b => if running s c ∧ (core s c).mx.cur.any (fun p => p.products) ∧ a ≠ b then countMismatch s c else s
    | .compare cells rowLane colLane =>
      (match comparedHead s c with
       | some (p, rest) => comparePass s c p rest (upset p.check cells rowLane colLane)
       | none => s)
    | .residue op row a b r rem =>
      (match comparedHead s c with
       | some (p, rest) => if residueFails op a b r rem && !bit p.frozen row.val then passFails s c p rest none none else s
       | none => s))

/-- A pass is applied again (05 R158): its bank, status and row mask as after it, CHK_RETRY and RETRIES where it led a re-feed. -/
def applyAgain (done : Bool) (m : MxSt) (p : Pass) : MxSt :=
  let m := if p.clear then
      { m with status := setAt m.status p.bank 0, rowmask := setAt m.rowmask p.bank 0 }
    else m
  let st0 := m.status.getD p.bank 0
  let st := if p.omitted then st0 else statusPass st0 p.ffmt (p.frozen != 0)
  let st := if done then orBits st (statusBits p.conv.flags) else st
  let st := if p.retries = 0 then st else setBits (setBits st 5 1 1) 20 4 (min (bits st 20 4 + p.retries) 15)
  let rm := m.rowmask.getD p.bank 0
  { m with banks := setAt m.banks p.bank p.after, status := setAt m.status p.bank st,
           rowmask := setAt m.rowmask p.bank (if p.omitted then rm else rowmaskPass st0 rm p.frozen),
           epoch := setAt m.epoch p.bank p.epoch }

/-- A pass with the status and row mask that its bank holds now as those before it. -/
def Pass.onto (p : Pass) (m : MxSt) : Pass := { p with priorSt := m.status.getD p.bank 0, priorRm := m.rowmask.getD p.bank 0 }

/-- Passes fed again in order, each with what it then found before it (05 R158). -/
def feedAgain (m : MxSt) (ps : List Pass) : MxSt × List Pass :=
  ps.foldl (fun (acc : MxSt × List Pass) p => (applyAgain true acc.1 p, acc.2 ++ [p.onto acc.1])) (m, [])

/-- REFEED_DONE (05 R158): the retained passes have been fed again in order, and the array resumes. Err is what the check bits of the turn
buffer's storage report of the retained copies (R156; 01 R18): a corrected error counts; an uncorrectable one is a fault of the core. -/
def execRefeedDone (r : Refeed) (s : State) : Host.Outcome State Fault Refusal :=
  let c := r.core
  .next (match running s c, (core s c).mx.refeed with
    | true, p :: ps =>
      let s := storeError s c r.err
      if r.err = .uncorrectable then s
      else
        let m := (core s c).mx
        let (m, l) := feedAgain { m with refeed := [] } (inOrder (p :: ps) m.skipped)
        let m := { m with unver := (l.filter (fun (q : Pass) => q.products)).map (fun (q : Pass) => { q with refed := true }),
                          skipped := l.filter (fun q => !q.products) }
        setMx s c (match m.cur with
          | some q => applyAgain false { m with cur := some (q.onto m) } q
          | none => m)
    | _, _ => s)

/-! EMIT and TB_CFG. -/

/-- EMIT (05 R142, R164): taken in program order; its bank is EMITTING until its token enters the zone. -/
def execEmit (c : CoreId) (s : State) : Host.Outcome State Fault Refusal :=
  .next (match readyHead s c 1 (fun w => opc w == 2) with
    | none => s
    | some e =>
      if bankState (core s c) (bits e.word 64 2) ≠ 0 then s
      else
        let s := takeHead s c 1 e
        let m := (core s c).mx
        setMx s c { m with emits := m.emits ++ [e] })

/-- The first unmasked element of a bank that is +∞ (05 R142, R161). -/
def infAt (m : NMap Nat) (rowmask : Nat) : Option (Nat × Nat) :=
  (m.find? (fun e => e.2 == infCode .k32 false && !bit rowmask (e.1 / 128))).map (fun e => (e.1 / 128, e.1 % 128))

/-- May the token of the oldest EMIT enter the zone (05 R164, R166)? Every pass of its bank is verified, no re-feed is in progress, and, where it
was EMITTING as one began, every re-fed pass is verified again. -/
def tokenReady (m : MxSt) (e : QEntry) : Bool :=
  let b := bits e.word 64 2
  m.refeed.isEmpty && !m.unver.any (fun p => p.bank == b) && !m.cur.any (fun p => p.bank == b)
    && !(m.waits.contains e.seq && m.unver.any (fun p => p.refed))

/-- EMIT_TOKEN_ENTER (05 R162 to R164, R167): once every pass of its bank is verified, the oldest EMIT's token enters the zone,
the flags of its status are set and logged, and EMIT retires. -/
def execEmitTokenEnter (c : CoreId) (s : State) : Host.Outcome State Fault Refusal :=
  .next (match running s c, (core s c).mx.emits with
    | true, e :: rest =>
      let m := (core s c).mx
      let b := bits e.word 64 2
      if !tokenReady m e then s
      else
        let rm := if bits (m.status.getD b 0) 12 8 = 0 then 0 else m.rowmask.getD b 0
        let inf := if bit e.word 66 then infAt (m.banks.getD b []) rm else none
        let st := bankStatus m b
        let st := if inf.isSome then setBits st 4 1 1 else st
        let q := pendFor m.flags b (m.epoch.getD b 0)
        let fl := match inf with
          | some (i, j) => setPend m.flags { q with occs := occAdd q.occs ⟨4, 0, e.idx, i, j⟩ }
          | none => m.flags
        let tok : Token := ⟨st, bits e.word 80 16, bits e.word 96 16, e.idx, b, rm⟩
        let s := setMx s c { m with emits := rest, zone := m.zone ++ [tok], flags := fl }
        retired (flushFlags s c b (m.epoch.getD b 0) tok.trow tok.tcol) c e
    | _, _ => s)

/-- TB_CFG (05 R143, R144): writes its slot, once every MAC dispatched ahead of it that names the slot has been taken. -/
def execTbCfg (c : CoreId) (s : State) : Host.Outcome State Fault Refusal :=
  .next (match readyHead s c 2 (fun w => opc w == 1) with
    | none => s
    | some e =>
      let slot := bits e.word 64 5
      if (core s c).mq.any (fun q => decide (q.seq < e.seq) && opc q.word == 1
          && (bits q.word 71 5 == slot || bits q.word 76 5 == slot)) then s
      else retired (wr (takeHead s c 2 e) (F.TB_CFG_CFG c slot) (e.word / 2 ^ 64)) c e)

end Sys2Proof.Machine
end

