-- ==== Sys2Proof/Machine/Chain.lean ====
section
/-!
DEFINITION. The decathlon chain: VX through its ten stages, its issue and its retirement, CH_CFG and CH_CONST (06).
-/

namespace Sys2Proof.Machine

open Sys2Proof

/-! The instruction and its configuration. -/

/-- A VX with the configuration and constants it copies when it is taken (06 R175, R177, R178). -/
structure VxIns where
  w  : Nat
  w0 : Nat
  w1 : Nat
  w2 : Nat
  w3 : Nat
  ck : List Nat
  ab : List Nat
deriving DecidableEq, Repr

/-- The VX of a queue entry, with configuration words as a function gives them. -/
def vxIns (s : State) (c : CoreId) (e : QEntry) : VxIns :=
  let g := bits e.word 64 4
  { w := e.word, w0 := rd s (F.CH_CFG_WORD c g 0), w1 := rd s (F.CH_CFG_WORD c g 1), w2 := rd s (F.CH_CFG_WORD c g 2),
    w3 := rd s (F.CH_CFG_WORD c g 3), ck := (List.range 16).map (fun i => rd s (F.CH_CK_VALUE c i)), ab := e.ab }

/-- Is stage k + 1 enabled? -/
def VxIns.en (v : VxIns) (k : Nat) : Bool := bit v.w0 k
/-- ITYPE. -/
def VxIns.itype (v : VxIns) : Nat := bits v.w0 10 2
/-- SRC. -/
def VxIns.src (v : VxIns) : Nat := bits v.w 68 2
/-- DST. -/
def VxIns.dst (v : VxIns) : Nat := bits v.w 70 2
/-- Vectors in the stream. -/
def VxIns.vlen (v : VxIns) : Nat := bits v.w 72 6 + 1
/-- Column orientation. -/
def VxIns.cols (v : VxIns) : Bool := bit v.w 78
/-- SRC_IDX. -/
def VxIns.srcIdx (v : VxIns) : Nat := bits v.w 79 6
/-- DST_IDX. -/
def VxIns.dstIdx (v : VxIns) : Nat := bits v.w 85 6
/-- U_VR. -/
def VxIns.uVr (v : VxIns) : Nat := bits v.w 91 6
/-- W_VR. -/
def VxIns.wVr (v : VxIns) : Nat := bits v.w 97 6
/-- RED_VR. -/
def VxIns.redVr (v : VxIns) : Nat := bits v.w 103 6
/-- MK. -/
def VxIns.mk_ (v : VxIns) : Nat := bits v.w 109 3
/-- TAKE. -/
def VxIns.take (v : VxIns) : Bool := bit v.w 112
/-- REL. -/
def VxIns.rel (v : VxIns) : Nat := bits v.w 113 2
/-- VSTART. -/
def VxIns.vstart (v : VxIns) : Nat := bits v.w 115 6
/-- HANDOFF, where the pack stage is enabled. -/
def VxIns.handoff (v : VxIns) : Bool := bit v.w3 35 && v.en 9
/-- First line of the stream (06 R180). -/
def VxIns.line0 (v : VxIns) : Nat := 2 * v.vstart
/-- Format the destination receives (06 R197). -/
def VxIns.dfmt (v : VxIns) : Fmt :=
  if v.en 8 then (Fmt.ofCode (bits v.w3 0 4)).getD .k32
  else match v.itype with
    | 1 => .i32
    | 2 => .u32
    | _ => .k32
/-- Destination scale mode in force. -/
def VxIns.dsmode (v : VxIns) : Nat := if v.en 8 then bits v.w3 7 3 else 0

/-- Some enabled stage uses the operand of a selector code (06 R184). -/
def VxIns.uses (v : VxIns) (code : Nat) : Bool :=
  (v.en 2 && (bits v.w1 0 3 == code || bits v.w1 3 3 == code || bits v.w1 6 3 == code)) ||
  (v.en 3 && (bits v.w1 9 3 == code || bits v.w1 12 3 == code || bits v.w1 15 3 == code)) ||
  (v.en 4 && bits v.w2 5 3 == code) ||
  (v.en 6 && bits v.w2 20 3 == code) ||
  (v.en 5 && bit v.w2 15 && code == 2)

/-! Elements and lines. -/

/-- An element of the stream: its place in the tile, whether it is frozen (06 R200), its value in the stage, as it left the align
stage, its operands U and W, and its flags. -/
structure VElem where
  row    : Nat
  col    : Nat
  frozen : Bool
  x      : Nat
  s0     : Nat
  u      : Nat
  w      : Nat
  fl     : Flags
deriving DecidableEq, Repr

/-- A line of the stream (06 R179): its index and its 128 elements. -/
structure VLine where
  ix    : Nat
  elems : List VElem
deriving DecidableEq, Repr

/-- An element with a stage's result. -/
def VElem.put (e : VElem) (r : Nat × Flags) : VElem := { e with x := r.1, fl := e.fl.or r.2 }

/-- Apply a stage to every element that is not frozen. -/
def VLine.each (l : VLine) (f : VElem → Nat × Flags) : VLine :=
  { l with elems := l.elems.map (fun e => if e.frozen then e else e.put (f e)) }

/-- Tile row and column of a position of a line (06 R180). -/
def VxIns.place (v : VxIns) (line p : Nat) : Nat × Nat := if v.cols then (p, line) else (line, p)

/-- An element of a vector register. -/
def vrAt (x : CoreSt) (k e : Nat) : Nat := mapGet 0 x.ch.vr (k * 256 + e)

/-- The vector register and element of a stream element, for a range that starts at a register (06 R180): n counts lines from the
stream's first. -/
def VxIns.vrPlace (v : VxIns) (base n line p : Nat) : Nat × Nat :=
  if v.cols then (p / 2, p % 2 * 128 + line) else (base + n / 2, n % 2 * 128 + p)

/-! Unpack and align, 06 R180 to R186. -/

/-- A core-store element as it enters the chain (06 R186). -/
def unpackElem (flush : Bool) (itype : Nat) (f : Fmt) (code scale : Nat) : Nat × Flags :=
  if f.isInt then
    let i : Int := if f = .u32 then (code : Int) else signed f.width code
    if itype = 0 then convert flush .k32 .rne false (.fin (decide (i < 0)) i.natAbs 1)
    else (unsignedOf 32 i, {})
  else widen flush f code scale

/-- The stream's source codes, line by line (06 R180, R182, R186). -/
def sourceLines (s : State) (c : CoreId) (v : VxIns) (held : List Held) : List (List (Nat × Flags)) :=
  let x := core s c
  let n := 2 * v.vlen
  match v.src with
  | 0 => (List.range n).map (fun i => (List.range 128).map (fun p =>
      let q := v.vrPlace v.srcIdx i (v.line0 + i) p
      (vrAt x q.1 q.2, ({} : Flags))))
  | 1 =>
    let base := v.ab.getD (bits v.w 79 4) 0
    let sf := bits v.w0 12 4
    match Fmt.ofCode sf with
    | none => []
    | some f =>
      let smode := bits v.w0 16 3
      let scales := codes8 (ldBytes s (vxScaleAt base sf v.vlen) (scaleBytes smode n 128 (bit v.w0 19)))
      (rowsOf n 128 (codesOf f (ldBytes s base (fmtBytes sf (256 * v.vlen))))).mapIdx (fun r cs =>
        (cs.zip (scaleRow smode 0 (bit v.w0 19) scales 128 r)).map (fun q => unpackElem (flushOn s c) v.itype f q.1 q.2))
  | k =>
    let b := (held.getD (k - 2) ⟨0, 0, 0, 0⟩).bank
    let m := x.mx.banks.getD b []
    (List.range n).map (fun i => (List.range 128).map (fun p =>
      let q := v.place (v.line0 + i) p
      (bankAt m q.1 q.2, ({} : Flags))))

/-- The operand of a UMODE or WMODE for one element (06 R183). -/
def operandAt (s : State) (c : CoreId) (v : VxIns) (held : List Held) (mode vr ck n line p : Nat) : Nat :=
  let x := core s c
  let q := v.place line p
  match mode with
  | 0 => (let t := v.vrPlace vr n line p
          vrAt x t.1 t.2)
  | 1 => vrAt x vr q.1
  | 2 => vrAt x vr q.2
  | 3 => v.ck.getD ck 0
  | _ => bankAt (x.mx.banks.getD ((held.getD (if v.src = 2 then 1 else 0) ⟨0, 0, 0, 0⟩).bank) []) q.1 q.2

/-- An input of the chain under the flush (02 R66): K32 only under ITYPE 0. -/
def chainInput (flush : Bool) (itype code : Nat) : Nat × Flags :=
  if flush && itype == 0 && isSubnormalCode .k32 code then (flushCode .k32 code, { flushed := true }) else (code, {})

/-- The lines of the stream as they leave the align stage. -/
def alignLines (s : State) (c : CoreId) (v : VxIns) (held : List Held) : List VLine :=
  let flush := flushOn s c
  let rm := if 2 ≤ v.src then (held.getD (v.src - 2) ⟨0, 0, 0, 0⟩).rowmask else 0
  let useU := v.uses 1
  let useW := v.uses 2
  (sourceLines s c v held).mapIdx (fun n cells =>
    let line := v.line0 + n
    { ix := line
      elems := cells.mapIdx (fun p e =>
        let q := v.place line p
        if bit rm q.1 then ⟨q.1, q.2, true, 0, 0, 0, 0, {}⟩
        else
          let x := chainInput flush v.itype e.1
          let u := if useU then chainInput flush v.itype (operandAt s c v held (bits v.w0 20 3) v.uVr (bits v.w0 26 4) n line p)
            else (0, {})
          let w := if useW then chainInput flush v.itype (operandAt s c v held (bits v.w0 23 3) v.wVr (bits v.w0 30 4) n line p)
            else (0, {})
          ⟨q.1, q.2, false, x.1, x.1, u.1, w.1, ((e.2.or x.2).or u.2).or w.2⟩) })

/-! Arithmetic of the element type, 06 R185. -/

/-- The K32 codes of 1 and −1. -/
def k32One : Nat := 0x3FC00000

/-- The constants of selector codes 4, 5 and 6 by ITYPE (06 R184, R185). -/
def selConst (itype code : Nat) : Nat :=
  match code with
  | 4 => if itype = 0 then k32One else 1
  | 5 => if itype = 0 then k32One + 0x80000000 else 2 ^ 32 - 1
  | _ => 0

/-- The operand a selector chooses (06 R184). -/
def VElem.sel (e : VElem) (itype code : Nat) : Nat :=
  match code with
  | 0 => e.x
  | 1 => e.u
  | 2 => e.w
  | 3 => e.s0
  | k => selConst itype k

/-- Sum in the element type (06 R185). -/
def eAdd (flush : Bool) (itype a b : Nat) : Nat × Flags :=
  if itype = 0 then k32Add flush a b else ((a + b) % 2 ^ 32, {})

/-- Product in the element type. -/
def eMul (flush : Bool) (itype a b : Nat) : Nat × Flags :=
  if itype = 0 then k32Mul flush a b else (a * b % 2 ^ 32, {})

/-- An integer element as a number: signed under I32, unsigned under U32 (06 R185). -/
def eInt (itype a : Nat) : Int := if itype = 1 then signed 32 a else (a : Int)

/-- Maximum in the element type (02 R65; 06 R185). -/
def eMax (flush : Bool) (itype a b : Nat) : Nat × Flags :=
  if itype = 0 then floatMax .k32 flush a b else (if eInt itype a < eInt itype b then b else a, {})

/-- Minimum in the element type. -/
def eMin (flush : Bool) (itype a b : Nat) : Nat × Flags :=
  if itype = 0 then floatMin .k32 flush a b else (if eInt itype b < eInt itype a then b else a, {})

/-- The value of an element of the stream. -/
def eVal (itype x : Nat) : XVal :=
  if itype = 0 then decodeFloat .k32 x else (let i := eInt itype x; .fin (decide (i < 0)) i.natAbs 1)

/-- One arith stage (06 R187). -/
def arithStage (flush : Bool) (itype sa sb sc : Nat) (e : VElem) : Nat × Flags :=
  let p := eMul flush itype (e.sel itype sa) (e.sel itype sb)
  if sc = 4 then p
  else
    let q := eAdd flush itype p.1 (e.sel itype sc)
    (q.1, p.2.or q.2)

/-- The function stage (06 R188). -/
def functionStage (flush : Bool) (t : FTable) (fsel comb : Nat) (e : VElem) : Nat × Flags :=
  let f := evalTable flush t (e.sel 0 fsel)
  match comb with
  | 0 => f
  | 1 => (let q := k32Mul flush e.x f.1
          (q.1, f.2.or q.2))
  | _ => (let q := k32Add flush e.x f.1
          (q.1, f.2.or q.2))

/-- The function table that a VX names (06 R188, R189); an empty one where none is in force. -/
def VxIns.table (s : State) (v : VxIns) : FTable :=
  let p := mapGet ⟨0, []⟩ s.ftabs (bits v.w2 0 4)
  ftableOf ((p.data.drop (if bit v.w2 4 then ftBytes else 0)).take ftBytes)

/-! Scan, compare, reduce: 06 R193 to R196. -/

/-- Identity of a reduction or scan (06 R193, R195): 0 SUM, 1 MAX, 2 MIN, 3 SUMSQ, 4 ABSMAX. -/
def identity (itype op : Nat) : Nat :=
  match op, itype with
  | 1, 0 => infCode .k32 true
  | 2, 0 => infCode .k32 false
  | 1, 1 => 2 ^ 31
  | 2, 1 => 2 ^ 31 - 1
  | 2, 2 => 2 ^ 32 - 1
  | _, _ => 0

/-- One accumulation of the scan or the reduction. DESIGN CHOICE, log 98: ABSMAX under ACCUM compares the start element that RED_VR holds as a
signed value with the magnitudes, and leaves a NaN start as it is. -/
def accStep (flush : Bool) (itype op acc x : Nat) : Nat × Flags :=
  match op with
  | 0 => eAdd flush itype acc x
  | 1 => eMax flush itype acc x
  | 2 => eMin flush itype acc x
  | 3 =>
    let p := eMul flush itype x x
    let q := eAdd flush itype acc p.1
    (q.1, p.2.or q.2)
  | _ =>
    let (a, f) := readCode flush .k32 acc
    let acc := if f.flushed then flushCode .k32 acc else acc
    match decodeFloat .k32 x with
    | .fin _ n d => if xless a (.fin false n d) then (x % 2 ^ 31, f) else (acc, f)
    | _ => (acc, f)

/-- The mask bit of a tile place. -/
def maskAt (x : CoreSt) (mk row col : Nat) : Bool := mapGet 0 x.ch.mask (mk * 16384 + row * 128 + col) == 1

/-- The scan of one line (06 R193). Elements come in the order of processing; starts says where a segment starts before an
element. A frozen element enters no scan (06 R200). -/
def scanFrom (flush : Bool) (itype op : Nat) (excl : Bool) : Nat → List (VElem × Bool) → List VElem
  | _, [] => []
  | acc, (e, start) :: rest =>
    let acc := if start then identity itype op else acc
    if e.frozen then e :: scanFrom flush itype op excl acc rest
    else
      let r := accStep flush itype op acc e.x
      e.put (if excl then acc else r.1, r.2) :: scanFrom flush itype op excl r.1 rest

/-- The scan stage of one line (06 R193). -/
def scanLine (x : CoreSt) (flush : Bool) (v : VxIns) (l : VLine) : VLine :=
  let op := bits v.w2 10 2
  let rev := bit v.w2 13
  let seg := bit v.w2 14
  let starts := l.elems.map (fun e => maskAt x v.mk_ e.row e.col)
  let marked := l.elems.mapIdx (fun j e =>
    (e, seg && (if rev then decide (j < 127) && starts.getD (j + 1) false else decide (0 < j) && starts.getD j false)))
  let first := if bit v.w2 15 then ((l.elems.find? (fun e => !e.frozen)).map (fun e => e.w)).getD 0 else identity v.itype op
  let out := scanFrom flush v.itype op (bit v.w2 12) first (if rev then marked.reverse else marked)
  { l with elems := if rev then out.reverse else out }

/-- Is the comparison of an operation true (06 R194), and the flag of a NaN operand? -/
def compareElem (itype op a b : Nat) : Bool × Flags :=
  if itype = 0 then
    let x := decodeFloat .k32 a
    let y := decodeFloat .k32 b
    if x = .nan ∨ y = .nan then (op == 3, { nanIn := true })
    else
      let eq := xequal x y
      let lt := xless x y && !eq
      ((match op with
        | 2 => eq
        | 3 => !eq
        | 4 => lt
        | 5 => lt || eq
        | 6 => !lt && !eq
        | _ => !lt), {})
  else
    let x := eInt itype a
    let y := eInt itype b
    ((match op with
      | 2 => decide (x = y)
      | 3 => decide (x ≠ y)
      | 4 => decide (x < y)
      | 5 => decide (x ≤ y)
      | 6 => decide (y < x)
      | _ => decide (y ≤ x)), {})

/-- The compare/select stage on one element (06 R194). -/
def compareStage (x : CoreSt) (flush : Bool) (v : VxIns) (e : VElem) : Nat × Flags :=
  let y := e.sel v.itype (bits v.w2 20 3)
  match bits v.w2 16 4 with
  | 0 => eMax flush v.itype e.x y
  | 1 => eMin flush v.itype e.x y
  | 8 => (if maskAt x v.mk_ e.row e.col then e.x else y, {})
  | op => (e.x, (compareElem v.itype op e.x y).2)

/-- The mask bits that the compare stage writes (06 R194). -/
def maskWrites (v : VxIns) (ls : List VLine) : List (Nat × Nat) :=
  let op := bits v.w2 16 4
  if v.en 6 && bit v.w2 23 && decide (2 ≤ op ∧ op ≤ 7) then
    ls.flatMap (fun l => (l.elems.filter (fun e => !e.frozen)).map (fun e =>
      (v.mk_ * 16384 + e.row * 128 + e.col, b2n (compareElem v.itype op e.x (e.sel v.itype (bits v.w2 20 3))).1)))
  else []

/-- RD_OP as an accumulation code: 0 SUM, 1 SUMSQ, 2 MAX, 3 MIN, 4 ABSMAX become 0, 3, 1, 2, 4. -/
def redOp (rd : Nat) : Nat :=
  match rd with
  | 0 => 0
  | 1 => 3
  | 2 => 1
  | 3 => 2
  | _ => 4

/-- A reduction along elements in order: the value and the elements with the flags their additions raised. -/
def reduceOver (flush : Bool) (itype op : Nat) : Nat → List VElem → Nat × List VElem
  | acc, [] => (acc, [])
  | acc, e :: es =>
    if e.frozen then
      let r := reduceOver flush itype op acc es
      (r.1, e :: r.2)
    else
      let a := accStep flush itype op acc e.x
      let r := reduceOver flush itype op a.1 es
      (r.1, { e with fl := e.fl.or a.2 } :: r.2)

/-- Where a reduction of RED_VR element i starts (06 R195). -/
def redStart (x : CoreSt) (v : VxIns) (i : Nat) : Nat :=
  if bit v.w2 29 then vrAt x v.redVr i else identity v.itype (redOp (bits v.w2 24 3))

/-- The reduce stage (06 R195): the lines with their flags, and the RED_VR elements written. -/
def reduceLines (x : CoreSt) (flush : Bool) (v : VxIns) (ls : List VLine) : List VLine × List (Nat × Nat) :=
  let op := redOp (bits v.w2 24 3)
  if bits v.w2 27 2 = 0 then
    let rs := ls.map (fun l => (l, reduceOver flush v.itype op (redStart x v l.ix) l.elems))
    (rs.map (fun r => { r.1 with elems := r.2.2 }),
     (rs.filter (fun r => r.1.elems.any (fun e => !e.frozen))).map (fun r => (v.redVr * 256 + r.1.ix, r.2.1)))
  else
    let cols := turned ⟨0, 0, true, 0, 0, 0, 0, {}⟩ 128 (ls.map (fun l => l.elems))
    let rs := cols.mapIdx (fun p es => (p, es, reduceOver flush v.itype op (redStart x v p) es))
    let back := turned ⟨0, 0, true, 0, 0, 0, 0, {}⟩ ls.length (rs.map (fun r => r.2.2.2))
    ((ls.zip back).map (fun q => { q.1 with elems := q.2 }),
     (rs.filter (fun r => r.2.1.any (fun e => !e.frozen))).map (fun r => (v.redVr * 256 + r.1, r.2.2.1)))

/-- The largest magnitude among the finite elements of a group that are not frozen (06 R196). -/
def groupMax (itype : Nat) (es : List VElem) : Option XVal :=
  es.foldl (fun a e => if e.frozen then a else xmaxMag a (eVal itype e.x)) none

/-! Convert and pack, 06 R197, R198. -/

/-- The scales of a line's groups: code, flags of making it, and the group's elements; none for a group all frozen. -/
def lineScales (v : VxIns) (l : VLine) : List (Option (Nat × Flags) × List VElem) :=
  let g := groupSize v.dsmode
  (rowsOf (128 / g) g l.elems).map (fun es =>
    (if es.all (fun e => e.frozen) then none else some (groupScale v.dfmt (groupMax v.itype es)), es))

/-- A converted element: its code and its place. -/
structure VOut where
  elem : VElem
  code : Nat
  conv : Flags
deriving DecidableEq, Repr

/-- One element converted under a scale code (06 R197). -/
def convertElem (flush : Bool) (v : VxIns) (scale : Nat) (e : VElem) : VOut :=
  if v.en 8 then
    let r := storeScaled flush v.dfmt (bits v.w3 4 3) scale (eVal v.itype e.x)
    ⟨{ e with fl := e.fl.or r.2 }, r.1, r.2⟩
  else ⟨e, e.x, {}⟩

/-- The lines converted, with each line's group scales (06 R197). -/
def convertLines (s : State) (flush : Bool) (v : VxIns) (ls : List VLine) : List (VLine × List (Option (Nat × Flags)) × List VOut) :=
  match v.dsmode with
  | 0 => ls.map (fun l => (l, [], l.elems.map (convertElem flush v 0x7C)))
  | 1 => ls.map (fun l => (l, [], l.elems.map (convertElem flush v (bits v.w3 10 8))))
  | 2 =>
    let sc := curScale s (bits v.w3 19 16)
    ls.map (fun l => (l, [], l.elems.map (convertElem flush v sc)))
  | _ => ls.map (fun l =>
      let gs := lineScales v l
      (l, gs.map (fun g => g.1), gs.flatMap (fun g => g.2.map (convertElem flush v ((g.1.map (fun q => q.1)).getD 0x7C)))))

/-- The flags of a VX (06 R205; 02 R70): those of its elements, an overflow of a group's scale at the group's first element. DESIGN CHOICE,
log 115: a group scale whose conversion overflows sets OVF and counts nothing in CO_OVF_CNT, which counts elements. -/
def vxFlags (idx : Nat) (out : List (VLine × List (Option (Nat × Flags)) × List VOut)) : FlagSum :=
  out.foldl (fun f l =>
    let f := l.2.2.foldl (fun g o => if o.elem.frozen then g else g.addAt 3 idx o.elem.row o.elem.col 1 o.elem.fl) f
    let n := 128 / max 1 l.2.1.length
    (l.2.1.mapIdx (fun i g => (i, g))).foldl (fun h g =>
      match g.2, (l.2.2.drop (g.1 * n)).head? with
      | some q, some o => h.addAt 3 idx o.elem.row o.elem.col 0 q.2
      | _, _ => h) f) {}

/-- What an amax record gains (03 R89, R94): over the elements that are not frozen. DESIGN CHOICE, log 99: a conversion that overflows to an
infinity counts as a saturation of the record, and AMAX_EN with no destination merges all the same. -/
def vxAmax (v : VxIns) (out : List (VLine × List (Option (Nat × Flags)) × List VOut)) : List AmaxAdd :=
  if !(v.en 8 && bit v.w3 18) then []
  else
    let all := (out.flatMap (fun l => l.2.2)).filter (fun o => !o.elem.frozen)
    let mag := fun (o : VOut) =>
      match eVal v.itype o.elem.x with
      | .fin _ n d => (roundK32 false (.fin false n d)).1
      | _ => 0
    [{ hist := bits v.w3 19 16, amax := all.foldl (fun m o => max m (mag o)) 0,
       sat := (all.filter (fun o => o.conv.ovf)).length,
       nan := (all.filter (fun o => eVal v.itype o.elem.x == .nan)).length }]

/-- Bytes of a row of codes that may be frozen: runs of bytes to write, from an address. A frozen row is whole, since a stored
row is a tile row. -/
def rowWrites (f : Fmt) (base : Nat) (out : List (VLine × List (Option (Nat × Flags)) × List VOut)) : List (Nat × List Byte) :=
  let len := 16 * f.width
  (out.mapIdx (fun r l => (r, l))).filterMap (fun q =>
    if q.2.2.2.any (fun o => o.elem.frozen) then none
    else some (base + q.1 * len, bytesOf f (q.2.2.2.map (fun o => o.code))))

/-- The scale bytes of a core-store destination (06 R182, R197). -/
def scaleWrites (s : State) (v : VxIns) (at_ : Nat) (out : List (VLine × List (Option (Nat × Flags)) × List VOut)) :
    List (Nat × List Byte) :=
  match v.dsmode with
  | 0 => []
  | 1 => []
  | 2 => [(at_, [BitVec.ofNat 8 (curScale s (bits v.w3 19 16))])]
  | m =>
    let n := ceilDiv 128 (groupSize m)
    (out.mapIdx (fun r l => (r, l))).flatMap (fun q =>
      (q.2.2.1.mapIdx (fun i g => (i, g))).filterMap (fun g =>
        g.2.map (fun x => (at_ + q.1 * n + g.1, [BitVec.ofNat 8 x.1]))))

/-- The bytes handed to the packer (06 R198): of a frozen element, which has none, the code is a free value of its place (step, slot, the
VX's place in the core's order, element), the same on every execution of the step (04 R130). Log 24 (DESIGN CHOICE). -/
def handoffBytes (place : Nat) (f : Fmt) (out : List (VLine × List (Option (Nat × Flags)) × List VOut)) : List Byte :=
  bytesOf f ((out.mapIdx (fun r l => (r, l))).flatMap (fun q => q.2.2.2.mapIdx (fun p o =>
    if o.elem.frozen then Config.frozenCode (place * 2 ^ 14 + q.1 * 128 + p) % 2 ^ f.width else o.code)))

/-- The place that names a VX's open codes: step, slot, place in the core's order. -/
def handPlace (s : State) (c : CoreId) (e : QEntry) : Nat :=
  (stepNum s * 640 + ((coreSlot s c).map SlotId.key).getD 0) * 2 ^ 64 + e.seq

/-! Issue, 06 R201. -/

/-- Lines of the stream, first and last. -/
def VxIns.lines (v : VxIns) : Nat × Nat := (v.line0, v.line0 + 2 * v.vlen - 1)

/-- Vector registers from one to another, whole. -/
def vrTouches (lo n : Nat) : List Touch := (List.range n).map (fun i => .vr (lo + i) 0 255)

/-- What an operand mode reads (06 R183). -/
def modeTouches (v : VxIns) (held : List Held) (mode vr : Nat) : List Touch :=
  let (a, b) := v.lines
  match mode with
  | 0 => if v.cols then vrTouches 0 64 else vrTouches vr v.vlen
  | 1 => if v.cols then [.vr vr 0 127] else [.vr vr a b]
  | 2 => if v.cols then [.vr vr a b] else [.vr vr 0 127]
  | 4 => [.bank (held.getD (if v.src = 2 then 1 else 0) ⟨0, 0, 0, 0⟩).bank]
  | _ => []

/-- The RED_VR elements of a VX. -/
def redTouch (v : VxIns) : Touch :=
  if bits v.w2 27 2 = 0 then .vr v.redVr v.lines.1 v.lines.2 else .vr v.redVr 0 127

/-- The core-store bytes of a tile operand: data and scales. -/
def tileTouches (base fmt n smode : Nat) (outer : Bool) : List Touch :=
  [.store base (base + fmtBytes fmt (256 * n)),
   .store (vxScaleAt base fmt n) (vxScaleAt base fmt n + scaleBytes smode (2 * n) 128 outer)]

/-- Storage that a VX reads. -/
def vxReads (v : VxIns) (held : List Held) : List Touch :=
  (match v.src with
   | 0 => if v.cols then vrTouches 0 64 else vrTouches v.srcIdx v.vlen
   | 1 => tileTouches (v.ab.getD (bits v.w 79 4) 0) (bits v.w0 12 4) v.vlen (bits v.w0 16 3) (bit v.w0 19)
   | k => [.bank (held.getD (k - 2) ⟨0, 0, 0, 0⟩).bank])
  ++ (if v.uses 1 then modeTouches v held (bits v.w0 20 3) v.uVr else [])
  ++ (if v.uses 2 then modeTouches v held (bits v.w0 23 3) v.wVr else [])
  ++ (if v.en 5 && bit v.w2 14 || v.en 6 && bits v.w2 16 4 == 8 then [.mask v.mk_] else [])
  ++ (if v.en 7 && bit v.w2 29 then [redTouch v] else [])

/-- Storage that a VX writes. -/
def vxWrites (v : VxIns) (held : List Held) : List Touch :=
  (match v.dst with
   | 1 => if v.cols then vrTouches 0 64 else vrTouches v.dstIdx v.vlen
   | 2 => (tileTouches (v.ab.getD (bits v.w 85 4) 0) v.dfmt.code v.vlen v.dsmode false).drop (b2n v.handoff)
   | 3 => [.bank (held.getD (v.src - 2) ⟨0, 0, 0, 0⟩).bank]
   | _ => [])
  ++ (if v.en 6 && bit v.w2 23 && decide (2 ≤ bits v.w2 16 4 ∧ bits v.w2 16 4 ≤ 7) then [.mask v.mk_] else [])
  ++ (if v.en 7 then [redTouch v] else [])

/-- Do two touches meet? -/
def Touch.meets (a b : Touch) : Bool :=
  match a, b with
  | .vr k lo hi, .vr l lo' hi' => decide (k = l ∧ lo ≤ hi' ∧ lo' ≤ hi)
  | .mask k, .mask l => k == l
  | .bank k, .bank l => k == l
  | .store lo hi, .store lo' hi' => decide (lo < hi' ∧ lo' < hi)
  | _, _ => false

/-- The banks that will be held once a VX is taken (06 R199). -/
def heldAfterTake (x : CoreSt) (v : VxIns) : List Held :=
  if v.take then
    match x.mx.zone with
    | t :: _ => x.ch.held ++ [⟨t.bank, t.rowmask, t.trow, t.tcol⟩]
    | [] => x.ch.held
  else x.ch.held

/-- The packer job that a handoff feeds: the first CX_PACK taken that still expects VX output (10 R307). -/
def handoffJob (x : CoreSt) : Option PackJob := x.packs.find? (fun j => !j.dma && decide (0 < j.left))

/-- Does a VX name a held bank: as its source or as an operand (06 R175, R183)? Log 110 (DEDUCED). -/
def VxIns.namesBank (v : VxIns) : Bool :=
  decide (2 ≤ v.src) || (v.uses 1 && bits v.w0 20 3 == 4) || (v.uses 2 && bits v.w0 23 3 == 4)

/-- May a VX be taken (06 R199, R201)? The REL of an unretired VX writes what H0 and H1 name: a VX that names one waits for it. Log 46 (DEDUCED). -/
def vxReady (s : State) (c : CoreId) (v : VxIns) : Bool :=
  let x := core s c
  let held := heldAfterTake x v
  (!v.take || !x.mx.zone.isEmpty && decide (x.ch.held.length < 2))
    && decide (x.ch.vxs.length < 8)
    && decide (v.src < 2 ∨ v.src - 2 < held.length)
    && !(v.namesBank && x.ch.vxs.any (fun f => f.rel == 1 || f.rel == 2))
    && !x.ch.vxs.any (fun f => f.writes.any (fun t => (vxReads v held ++ vxWrites v held).any t.meets))

/-! The VX. -/

/-- The stages 3 to 8 of a stream: the lines, the mask bits and the RED_VR elements written. -/
def vxStages (s : State) (c : CoreId) (v : VxIns) (held : List Held) : List VLine × List (Nat × Nat) × List (Nat × Nat) :=
  let x := core s c
  let fl := flushOn s c
  let t := v.itype
  let ls := alignLines s c v held
  let ls := if v.en 2 then ls.map (fun l => l.each (arithStage fl t (bits v.w1 0 3) (bits v.w1 3 3) (bits v.w1 6 3))) else ls
  let ls := if v.en 3 then ls.map (fun l => l.each (arithStage fl t (bits v.w1 9 3) (bits v.w1 12 3) (bits v.w1 15 3))) else ls
  let ls := if v.en 4 then
      (let ft := v.table s
       ls.map (fun l => l.each (functionStage fl ft (bits v.w2 5 3) (bits v.w2 8 2))))
    else ls
  let ls := if v.en 5 then ls.map (scanLine x fl v) else ls
  let mw := maskWrites v ls
  let ls := if v.en 6 then ls.map (fun l => l.each (compareStage x fl v)) else ls
  let (ls, red) := if v.en 7 then reduceLines x fl v ls else (ls, [])
  (ls, mw, red)

/-- The VX in flight that a queue entry becomes: everything it will have done when it retires (06 R203). Log 48 (DEDUCED). -/
def vxFlight (s : State) (c : CoreId) (e : QEntry) (v : VxIns) (held : List Held) : VxFlight :=
  let (ls, mw, red) := vxStages s c v held
  let out := convertLines s (flushOn s c) v ls
  let live := (out.flatMap (fun l => l.2.2.mapIdx (fun p o => (l.1.ix, p, o)))).filter (fun q => !q.2.2.elem.frozen)
  let base := v.ab.getD (bits v.w 85 4) 0
  let h := held.getD (v.src - 2) ⟨0, 0, 0xFFFF, 0xFFFF⟩
  { entry := e
    vr := (if v.dst = 1 then live.map (fun q =>
        (let p := v.vrPlace v.dstIdx (q.1 - v.line0) q.1 q.2.1
         (p.1 * 256 + p.2, q.2.2.code % 2 ^ 32))) else []) ++ red
    mask := mw
    banks := if v.dst = 3 then [(h.bank, live.map (fun q => (q.2.2.elem.row * 128 + q.2.2.elem.col, q.2.2.code % 2 ^ 32)))] else []
    store := if v.dst = 2 then
        (if v.handoff then [] else rowWrites v.dfmt base out)
          ++ scaleWrites s v (vxScaleAt base v.dfmt.code v.vlen) out
      else []
    sum := vxFlags e.idx out
    amax := vxAmax v out
    rel := v.rel
    elems := 256 * v.vlen
    handoff := v.handoff
    hand := if v.handoff then handoffBytes (handPlace s c e) v.dfmt out else []
    writes := vxWrites v held
    trow := if 2 ≤ v.src then h.trow else 0xFFFF
    tcol := if 2 ≤ v.src then h.tcol else 0xFFFF }

/-- A packer job gains the bytes of one VX. -/
def feedJob (j : PackJob) (bs : List Byte) : PackJob := { j with buf := j.buf ++ bs, fed := j.fed + bs.length, left := j.left - 1 }

/-- The VX in flight with HANDOFF that no CX_PACK has claimed are claimed, in chain order, by those that still expect some (10 R315). -/
def claimHandoffs (x : CoreSt) : CoreSt :=
  let r := x.ch.vxs.foldl (fun (p : List PackJob × List VxFlight) f =>
    if !f.handoff ∨ f.hand = [] then (p.1, p.2 ++ [f])
    else
      match p.1.find? (fun j => !j.dma && decide (0 < j.left)) with
      | none => (p.1, p.2 ++ [f])
      | some j =>
        let j' := feedJob j f.hand
        (p.1.map (fun k => if k.entry.seq = j.entry.seq ∧ !k.dma then j' else k),
         p.2 ++ [{ f with hand := [], handTo := j.entry.seq, handEnd := j'.fed }])) (x.packs, [])
  { x with packs := r.1, ch := { x.ch with vxs := r.2 } }

/-- VX (06 R173 to R201): taken once its conditions hold; the stream passes the enabled stages, and what it will write is known.
Err is what the core store's check bits report of its reads (01 R18); an uncorrectable error leaves it untaken. -/
def execVx (c : CoreId) (err : StoreErr) (s : State) : Host.Outcome State Fault Refusal :=
  .next (match readyHead s c 3 (fun w => opc w == 1) with
    | none => s
    | some e =>
      let v := vxIns s c e
      if !vxReady s c v then s
      else if err = .uncorrectable then storeError s c err
      else
        let s := takeHead (storeError s c err) c 3 e
        let x := core s c
        let held := heldAfterTake x v
        let f := vxFlight s c e v held
        let x := { x with
          mx := if v.take then { x.mx with zone := x.mx.zone.drop 1 } else x.mx
          ch := { x.ch with held := held, vxs := x.ch.vxs ++ [f] } }
        setCore s c (claimHandoffs x))

/-! Retirement, 06 R203. -/

/-- Map entries written one after another, over what a missing key reads as. -/
def putAll (m : NMap Nat) (l : List (Nat × Nat)) : NMap Nat := l.foldl (fun t e => mapSetD 0 t e.1 e.2) m

/-- Held banks returned by a REL: they go back to the matrix engine with a fresh status (06 R199; 05 R162, R164). -/
def releaseBanks (x : CoreSt) (n : Nat) : CoreSt :=
  let back := x.ch.held.take n
  { x with ch := { x.ch with held := x.ch.held.drop n }, mx := back.foldl (fun m h => resetStatus m h.bank) x.mx }

/-- The blocks that wait for a core's packer, in the order of its jobs: the table slot of each, and whether it will be escaped. -/
def packBlocks (x : CoreSt) : List (Nat × Bool) :=
  x.packs.flatMap (fun j => List.replicate (ceilDiv j.buf.length 4096) (j.tslot, j.prot))

/-- The blocks in a core's packer input, which holds two (10 R307). -/
def packInput (x : CoreSt) : Nat := min 2 (packBlocks x).length

/-- The data of a VX with HANDOFF have entered the packer (10 R307): its CX_PACK has them, and what is not coded up to their end fits the two
blocks of input. Log 47 (DEDUCED). -/
def handedOver (x : CoreSt) (f : VxFlight) : Bool :=
  f.hand.isEmpty && (match x.packs.find? (fun j => !j.dma && j.entry.seq == f.handTo) with
    | none => true
    | some j => decide (f.handEnd ≤ j.fed - j.buf.length + 8192))

/-- VX_RETIRE (06 R203): the k-th VX in flight retires; its writes, reductions, flags and post are complete, REL returns banks. Log 47 (DEDUCED). -/
def execVxRetire (c : CoreId) (k : Nat) (s : State) : Host.Outcome State Fault Refusal :=
  .next (match running s c, (core s c).ch.vxs[k]? with
    | true, some f =>
      let x := core s c
      if f.handoff && !handedOver x f then s
      else
        let n := match f.rel with
          | 1 => 1
          | 2 => 2
          | _ => 0
        let banks := f.banks.foldl (fun (bs : List (NMap Nat)) w => setAt bs w.1 (putAll (bs.getD w.1 []) w.2)) x.mx.banks
        let x := { x with
          mx := { x.mx with banks := banks }
          ch := { x.ch with vr := putAll x.ch.vr f.vr, mask := putAll x.ch.mask f.mask, vxs := dropAt x.ch.vxs k } }
        let s := setCore s c (releaseBanks x n)
        let s := f.store.foldl (fun t w => stBytes t w.1 w.2) s
        let s := f.amax.foldl mergeAmax s
        let s := logOccs (coreFlags s c f.sum) c f.trow f.tcol f.sum.occs
        retired (bump s (F.CH_ELEMS_COUNT c) f.elems) c f.entry
    | _, _ => s)

/-! Configuration. -/

/-- CH_CFG writes one word of a configuration slot, in queue order (06 R178). -/
def execChCfg (c : CoreId) (s : State) : Host.Outcome State Fault Refusal :=
  .next (match readyHead s c 3 (fun w => opc w == 2) with
    | none => s
    | some e => retired (wr (takeHead s c 3 e) (F.CH_CFG_WORD c (bits e.word 64 4) (bits e.word 68 2)) (bits e.word 80 48)) c e)

/-- CH_CONST writes a constant register, in queue order (06 R178). -/
def execChConst (c : CoreId) (s : State) : Host.Outcome State Fault Refusal :=
  .next (match readyHead s c 3 (fun w => opc w == 3) with
    | none => s
    | some e => retired (wr (takeHead s c 3 e) (F.CH_CK_VALUE c (bits e.word 64 4)) (bits e.word 96 32)) c e)

end Sys2Proof.Machine
end

