-- ==== Sys2Proof/Machine/Dram.lean ====
section
/-!
DEFINITION. DRAM of both tiers: units of an address, corrected and uncorrectable reads, poison, retirement of a pseudo-channel
(11 R321 to R329, 18 R516).
-/

namespace Sys2Proof.Machine

open Sys2Proof

/-- The line of a stack that serves a line of retired pseudo-channel j below the limit: the k-th such line has the k-th line at or above the
limit that lies in a surviving pseudo-channel (11 R325). -/
def remappedLine (limit j k : Nat) : Nat :=
  let hole := (j + 32 - limit % 32) % 32
  limit + 32 * (k / 31) + (if k % 31 < hole then k % 31 else k % 31 + 1)

/-- The line of a stack in which an offset lies: moved, once a retired pseudo-channel is remapped (11 R321, R325, R326). -/
def stackLine (s : State) (n off : Nat) : Nat :=
  let line := off / 256
  let limit := rd s (F.HBM_LIMIT_LIMIT n) / 256
  if rdb s (F.HBM_STAT_RET_VALID n) ∧ line % 32 = rd s (F.HBM_STAT_RETIRED_PC n) ∧ line < limit then
    remappedLine limit (line % 32) (line / 32)
  else line

/-- The stack or package that holds a DRAM address (after the views): whether it is HBM, its number and pseudo-channel
(11 R321, R325, R328). -/
def dramOf (s : State) (a : Nat) : Option (Bool × Nat × Nat) :=
  match regionOf (viewRoute s a), regionOf a with
  | .hbm n off, .hbm _ _ => some (true, n, stackLine s n off % 32)
  | _, .slow d off => some (false, 6 * d + off / 256 % 6, 0)
  | _, _ => none

/-- Unit address of the stack or package (01 R26). -/
def dramUnit (d : Bool × Nat × Nat) : Nat := (if d.1 then 0x5000 else 0x6000) + d.2.1

/-- The key under which a pseudo-channel's or package's errors are timed. -/
def dramPart (d : Bool × Nat × Nat) : Nat := dramUnit d * 32 + d.2.2

/-- A DRAM part meets the retirement threshold (11 R325 to R327, 18 R516): the first pseudo-channel of a stack awaits its remap,
a second one makes the stack FAILING, a package is FAILING. -/
def dramThreshold (s : State) (d : Bool × Nat × Nat) : State :=
  let n := d.2.1
  if d.1 then
    let taken := rdb s (F.HBM_STAT_RET_PENDING n) || rdb s (F.HBM_STAT_RET_VALID n)
    if !taken then
      markPart (wrAll s [(F.HBM_STAT_RET_PENDING n, 1), (F.HBM_STAT_RETIRED_PC n, d.2.2), (F.HBM_LIMIT_LIMIT n, 0xAD39DB100),
        (F.ID_HEALTH_PC_RET, rd s F.ID_HEALTH_PC_RET + 1)]) (dramUnit d) 0x07
    else if rd s (F.HBM_STAT_RETIRED_PC n) = d.2.2 ∨ rdb s (F.HBM_STAT_FAILING n) then s
    else markPart (wrAll s [(F.HBM_STAT_FAILING n, 1), (F.ID_HEALTH_HBM_FAIL, rd s F.ID_HEALTH_HBM_FAIL + 1)]) (dramUnit d) 0x07
  else if rdb s (F.ST_STAT_FAILING n) then s
  else markPart (wrAll s [(F.ST_STAT_FAILING n, 1), (F.ID_HEALTH_ST_FAIL, rd s F.ID_HEALTH_ST_FAIL + 1)]) (dramUnit d) 0x07

/-- A read of a DRAM line is corrected (11 R322, R329): the line is written back and the error counted. -/
def dramCorrected (s : State) (a : Nat) : State :=
  match dramOf s a with
  | none => s
  | some d =>
    let s := if d.1 then bump s (F.HBM_CE_CNT_COUNT d.2.1 d.2.2) 1 else bump s (F.ST_CE_CNT_COUNT d.2.1) 1
    let (hit, s) := noteCe s (dramPart d)
    if hit then dramThreshold s d else s

/-- The module address of an address's line, after the views. -/
def lineOf (s : State) (a : Nat) : Nat := viewRoute s a / 256 * 256

/-- A read of a DRAM line is uncorrectable (11 R322, R329): the line is poisoned, its address captured, the error counted. -/
def dramUncorrectable (s : State) (a : Nat) : State :=
  match dramOf s a with
  | none => s
  | some d =>
    let n := d.2.1
    let line := lineOf s a
    let s := if s.poison.contains (line / 256) then s else { s with poison := s.poison ++ [line / 256] }
    let s :=
      if d.1 then
        let s := bump s (F.HBM_UE_CNT_COUNT n d.2.2) 1
        if rdb s (F.HBM_POISON_VALID n) then s else wrAll s [(F.HBM_POISON_VALID n, 1), (F.HBM_POISON_ADDR n, line)]
      else
        let s := bump s (F.ST_UE_CNT_COUNT n) 1
        if rdb s (F.ST_POISON_VALID n) then s else wrAll s [(F.ST_POISON_VALID n, 1), (F.ST_POISON_ADDR n, line)]
    let (hit, s) := noteUe s (dramPart d)
    if hit then dramThreshold s d else s

/-- The range record that holds an address carries INPUT (04 R125, 18 R530). -/
def inputRange (s : State) (a : Nat) : Bool :=
  match s.prog with
  | some p => p.ranges.any (fun r => decide (r.1 ≤ a ∧ a < r.1 + r.2.1) && bit r.2.2 2)
  | none => false

/-- A step, not a RUN_PROGRAM, runs or awaits commit, and an address lies in a range that is its input (16 R480, 18 R530). -/
def stepInput (s : State) (a : Nat) : Bool :=
  (match s.run with
    | some r => !r.program
    | none => false) && inputRange s a

/-- A data fault at an address (11 R322, 18 R515, R530): of STEP class, or FATAL where a step runs or awaits commit and no replay can
restore the line; a fault of a RUN_PROGRAM is not of the FATAL class (16 R480). Log 106 (DEDUCED). -/
def dataFault (s : State) (a : Nat) : State :=
  match dramOf s a with
  | none => s
  | some d => if stepInput s a then fatalFault s (dramUnit d) 0x0E else stepFault s (dramUnit d) 0x05

/-- The first poisoned line of a list of runs (address, length). -/
def poisonIn (s : State) (runs : List (Nat × Nat)) : Option Nat :=
  if s.poison = [] then none
  else
    (runs.flatMap (fun r => if r.2 = 0 then [] else
      (List.range ((r.1 + r.2 - 1) / 256 - r.1 / 256 + 1)).map (fun i => (r.1 / 256 + i) * 256))).find? (poisonedAt s)

/-- Does some run hold an address's line? -/
def inRuns (runs : List (Nat × Nat)) (a : Nat) : Bool :=
  runs.any (fun r => decide (r.2 ≠ 0 ∧ r.1 / 256 ≤ a / 256 ∧ a / 256 ≤ (r.1 + r.2 - 1) / 256))

/-- The store that an address lies in reports an error (01 R18). -/
def storeErrorAt (s : State) (a : Nat) (e : StoreErr) : State :=
  match regionOf a with
  | .clusterStore k _ => clusterStoreError s k e
  | .coreStore x _ => match slotCore s x with
    | some c => storeError s c e
    | none => s
  | _ => s

/-- A read is corrected: of DRAM, or of a store. -/
def readCorrected (s : State) (a : Nat) : State := if (dramOf s a).isSome then dramCorrected s a else storeErrorAt s a .corrected

/-- A read is uncorrectable: a data fault of DRAM, or a fault of the store's core or cluster. -/
def readFails (s : State) (a : Nat) : State :=
  if (dramOf s a).isSome then dataFault (dramUncorrectable s a) a else storeErrorAt s a .uncorrectable

/-- What reading runs of memory gives: the state with a corrected error counted, or a data fault where a line is poisoned or the
read is uncorrectable; none where the reported address is none of those read. Log 53 (DEDUCED). -/
def readRuns (s : State) (runs : List (Nat × Nat)) (err : ReadErr) : Option (Bool × State) :=
  match err with
  | .uncorrectable a => if inRuns runs a && populated a then some (false, readFails s a) else none
  | e =>
    match poisonIn s runs with
    | some a => some (false, dataFault s a)
    | none =>
      match e with
      | .corrected a => if inRuns runs a && populated a then some (true, readCorrected s a) else none
      | _ => some (true, s)

end Sys2Proof.Machine
end

