-- ==== Sys2Proof/Machine/Prefix.lean ====
section
/-!
DEFINITION. The lossless code of a block: element planes, code lengths, canonical codes, table records, coding and decoding
(10 R287 to R294, R303, R304, R309).
-/

namespace Sys2Proof.Machine

open Sys2Proof

/-! Element planes, 10 R290. -/

/-- Alphabet size of a format; 0 for a format that is never packed. -/
def nsymOf : Fmt → Nat
  | .k4 => 8
  | .k8m => 32
  | .k8e => 32
  | .k16 => 256
  | _ => 0

/-- Raw bits of an element. -/
def rawBits : Fmt → Nat
  | .k8m => 2
  | .k8e => 2
  | .k16 => 7
  | _ => 0

/-- Symbol bits of an element. -/
def symBits (f : Fmt) : Nat := f.width - 1 - rawBits f

/-- Symbol of an element. -/
def symOf (f : Fmt) (c : Nat) : Nat := bits c (rawBits f) (symBits f)

/-- Sign bit of an element. -/
def signOf (f : Fmt) (c : Nat) : Bool := bit c (f.width - 1)

/-- The element of a sign, a symbol and raw bits. -/
def elemCode (f : Fmt) (sg : Bool) (sym raw : Nat) : Nat := b2n sg * 2 ^ (f.width - 1) + sym * 2 ^ rawBits f + raw

/-! Bit strings. -/

/-- The low n bits of a number, least significant first. -/
def bitsLsb (n v : Nat) : List Bool := (List.range n).map (fun i => bit v i)

/-- The low n bits of a number, most significant first. -/
def bitsMsb (n v : Nat) : List Bool := (bitsLsb n v).reverse

/-- The number that bits spell, least significant first. -/
def natOfBits (l : List Bool) : Nat := l.foldr (fun b n => b2n b + 2 * n) 0

/-- Bytes of a bit string, bit k in bit k mod 8 of byte k / 8, padded with 0. -/
def packBits : Nat → List Bool → List Byte
  | 0, _ => []
  | n + 1, l => BitVec.ofNat 8 (natOfBits (l.take 8)) :: packBits n (l.drop 8)

/-- A bit string as whole bytes. -/
def bitBytes (l : List Bool) : List Byte := packBits (ceilDiv l.length 8) l

/-- The bits of bytes. -/
def byteBits (bs : List Byte) : List Bool := bs.flatMap (fun b => bitsLsb 8 b.toNat)

/-! Codes, 10 R292, R294. -/

/-- Symbols of a length. -/
def countLen (lens : List Nat) (l : Nat) : Nat := if l = 0 then 0 else (lens.filter (fun x => x == l)).length

/-- First code of every length (10 R292). -/
def firstCode (lens : List Nat) : Nat → Nat
  | 0 => 0
  | l + 1 => (firstCode lens l + countLen lens l) * 2

/-- The canonical code of symbol s. -/
def codeOf (lens : List Nat) (s : Nat) : Nat :=
  let l := lens.getD s 0
  firstCode lens l + ((lens.take s).filter (fun x => x == l)).length

/-- Code of every symbol, as bits in the order they are written: most significant first. -/
def codeBits (lens : List Nat) : List (List Bool) := lens.mapIdx (fun s l => bitsMsb l (codeOf lens s))

/-- A node of the tree under construction: weight, key, symbols below it. -/
abbrev HNode := Nat × Nat × List Nat

/-- Does a node come before another: least weight, then lower key (10 R294)? -/
def HNode.before (a b : HNode) : Bool := decide (a.1 < b.1) || (a.1 == b.1 && decide (a.2.1 < b.2.1))

/-- A node put in its place. -/
def insertNode : HNode → List HNode → List HNode
  | n, [] => [n]
  | n, m :: ms => if HNode.before n m then n :: m :: ms else m :: insertNode n ms

/-- Join the two first nodes, n times; depths count the joins above each symbol. -/
def joinNodes (nsym : Nat) : Nat → List HNode → List Nat → List Nat
  | 0, _, d => d
  | n + 1, a :: b :: rest, d =>
    let below := a.2.2 ++ b.2.2
    joinNodes nsym n (insertNode (a.1 + b.1, nsym + (nsym - 2 - n), below) rest)
      (d.mapIdx (fun i x => if below.contains i then x + 1 else x))
  | _ + 1, _, d => d

/-- Depths of the tree over weights. -/
def treeLens (w : List Nat) : List Nat :=
  let nodes := (w.mapIdx (fun s x => ((x, s, [s]) : HNode))).foldl (fun l n => insertNode n l) []
  joinNodes w.length (w.length - 1) nodes (List.replicate w.length 0)

/-- The loop of R294; sixty rounds are more than the halving of a 41-bit weight takes. -/
def boundedLens : Nat → List Nat → List Nat
  | 0, w => treeLens w
  | n + 1, w =>
    let l := treeLens w
    if l.all (fun x => decide (x ≤ 12)) then l else boundedLens n (w.map (fun x => x / 2 + 1))

/-- Code lengths from counts (10 R294). -/
def lensOf (counts : List Nat) : List Nat := boundedLens 60 (counts.map (fun c => min c (2 ^ 40) + 1))

/-- How often each symbol occurs in codes. -/
def histogram (f : Fmt) (cs : List Nat) : List Nat :=
  cs.foldl (fun h c => h.set (symOf f c) (h.getD (symOf f c) 0 + 1)) (List.replicate (nsymOf f) 0)

/-! Table records, 10 R293. -/

/-- A record's length nibbles. -/
def lenNibbles (lens : List Nat) : List Byte :=
  (List.range 128).map (fun i => BitVec.ofNat 8 (lens.getD (2 * i) 0 % 16 + 16 * (lens.getD (2 * i + 1) 0 % 16)))

/-- The table record of an identity, a format and lengths. -/
def tableRecord (ident : Nat) (f : Fmt) (lens : List Nat) : List Byte :=
  let head := natLE 4 ident ++ natLE 1 f.code ++ natLE 1 (lens.foldl max 0) ++ natLE 2 (nsymOf f)
  let body := lenNibbles lens
  head ++ natLE 4 (crc32c (head ++ body)) ++ natLE 4 0 ++ body

/-- The lengths a record holds. -/
def recordLens (r : List Byte) : List Nat := (List.range (leAt r 6 2)).map (fun s => bits (leAt r (0x10 + s / 2) 1) (s % 2 * 4) 4)

/-- Is a record valid (10 R293)? -/
def recordValid (r : List Byte) : Bool :=
  let lens := recordLens r
  match Fmt.ofCode (leAt r 4 1) with
  | none => false
  | some f =>
    leAt r 0 4 / 2 ^ 29 == 0 && leAt r 5 1 / 16 == 0 && leAt r 0xC 4 == 0
      && nsymOf f != 0 && leAt r 6 2 == nsymOf f
      && lens.all (fun l => decide (1 ≤ l ∧ l ≤ 12)) && leAt r 5 1 == lens.foldl max 0
      && (lens.map (fun l => 2 ^ (12 - l))).foldl (· + ·) 0 == 4096
      && (List.range 256).all (fun s => decide (s < nsymOf f) || bits (leAt r (0x10 + s / 2) 1) (s % 2 * 4) 4 == 0)
      && leAt r 8 4 == crc32c (sliceBytes r 0 8 ++ sliceBytes r 0x10 128)

/-! Blocks, 10 R289, R291, R303, R309. -/

/-- Elements of the substreams of a block of n. -/
def substreams (cs : List Nat) : List (List Nat) := rowsOf 32 (ceilDiv cs.length 32) cs

/-- The coded payload of a block's elements under a table's lengths (10 R291). -/
def codedPayload (f : Fmt) (lens : List Nat) (cs : List Nat) : List Byte :=
  let codes := codeBits lens
  let subs := (substreams cs).map (fun l => bitBytes (l.flatMap (fun c => codes.getD (symOf f c) [])))
  bitBytes (cs.map (signOf f)) ++ bitBytes (cs.flatMap (fun c => bitsLsb (rawBits f) c))
    ++ subs.flatMap (fun b => natLE 2 b.length) ++ subs.flatten

/-- A block header (10 R289). -/
def blockHeader (ident : Nat) (esc : Bool) (clen ulen crc block tchk : Nat) : List Byte :=
  natLE 4 (ident + b2n esc * 2 ^ 29) ++ natLE 2 clen ++ natLE 2 ulen ++ natLE 4 crc ++ natLE 3 block ++ natLE 1 tchk

/-- A block packed (10 R303): payload, padded to its last 64-byte unit, and header; whether it is escaped. -/
def packBlock (f : Fmt) (lens : List Nat) (ident tchk block : Nat) (prot : Bool) (plain : List Byte) :
    List Byte × List Byte × Bool :=
  let coded := codedPayload f lens (codesOf f plain)
  let esc := prot || decide (plain.length ≤ coded.length)
  let pay := if esc then plain else coded
  (sliceBytes pay 0 (ceilDiv pay.length 64 * 64),
   blockHeader (if esc then 0 else ident) esc pay.length plain.length (crc32c plain) block (if esc then 0 else tchk), esc)

/-- Decode n symbols from bits with a table of codes: the symbols and the bits left; none where no code fits. Fuel counts bits
and symbols. -/
def decodeSyms (codes : List (List Bool)) : Nat → Nat → List Bool → List Nat → Option (List Nat × List Bool)
  | _, 0, l, out => some (out.reverse, l)
  | 0, _ + 1, _, _ => none
  | k + 1, n + 1, l, out =>
    match (codes.mapIdx (fun i c => (i, c))).find? (fun e => decide (e.2 ≠ []) && e.2 == l.take e.2.length) with
    | some e => decodeSyms codes k n (l.drop e.2.length) (e.1 :: out)
    | none => none

/-- The plain bytes of a coded payload of n elements (10 R291, R309): none where a check of R309 on the substreams fails. -/
def decodeBlock (f : Fmt) (lens : List Nat) (n clen : Nat) (pay : List Byte) : Option (List Byte) :=
  let codes := codeBits lens
  let so := ceilDiv n 8
  let ro := ceilDiv (n * rawBits f) 8
  let table := (List.range 32).map (fun j => leAt pay (so + ro + 2 * j) 2)
  let q := ceilDiv n 32
  if so + ro + 64 + table.foldl (· + ·) 0 ≠ clen then none
  else
    let signs := byteBits (pay.take so)
    let raws := byteBits ((pay.drop so).take ro)
    let subs := (List.range 32).map (fun j =>
      let off := so + ro + 64 + (table.take j).foldl (· + ·) 0
      let cnt := min (n - j * q) q
      match decodeSyms codes cnt cnt (byteBits ((pay.drop off).take (table.getD j 0))) [] with
      | some (syms, rest) => if rest.length < 8 ∧ rest.all (fun b => !b) then some syms else none
      | none => none)
    if subs.any (fun o => o.isNone) then none
    else
      let syms := (subs.map (fun o => o.getD [])).flatten
      some (bytesOf f (syms.mapIdx (fun i sy =>
        elemCode f (signs.getD i false) sy (natOfBits ((raws.drop (i * rawBits f)).take (rawBits f))))))

end Sys2Proof.Machine
end

