-- ==== Sys2Proof/Machine/Sequencer.lean ====
section
/-!
DEFINITION. The core sequencer: dispatch, control instructions, waits and posts, hurdles at the core, END_STEP (04).
-/

namespace Sys2Proof.Machine

open Sys2Proof

/-! The front of the stream. -/

/-- Index of the next instruction to dispatch. -/
def pcOf (s : State) (c : CoreId) : Nat := rd s (F.CO_SEQ_STAT_INDEX c)

/-- Execution continues at an index, no longer stopped; the new front of the stream is timed from now (04 R119). -/
def goTo (s : State) (c : CoreId) (i : Nat) : State :=
  let x := core s c
  wrAll (setCore s c { x with since := setAt x.since 0 s.stallClock }) [(F.CO_SEQ_STAT_INDEX c, i), (F.CO_SEQ_STAT_STALL c, 0)]

/-- Execution continues at the following instruction. -/
def advance (s : State) (c : CoreId) : State := goTo s c (pcOf s c + 1)

/-- Dispatch is stopped (04 R97, R131). -/
def stalled (s : State) (c : CoreId) : State := wr s (F.CO_SEQ_STAT_STALL c) 1

/-- The word at the front of a core's stream, while it runs and its cluster waits for no copy (01 R22). -/
def frontWord (s : State) (c : CoreId) : Option Nat :=
  if running s c && !(cluster s c.cluster).copying then (core s c).instrs[pcOf s c]? else none

/-- The current values of the sixteen address bases (04 R110). -/
def abValues (s : State) (c : CoreId) : List Nat := (List.range 16).map (fun n => rd s (F.CO_AB_CUR_VALUE c n))

/-- The entry that dispatch makes of the instruction at the front (04 R99; 11 R333: a DX's descriptor is read here; a CX_PACK carries its
length). -/
def frontEntry (s : State) (c : CoreId) (w : Nat) : QEntry :=
  let ab := abValues s c
  { seq := (core s c).seq, idx := pcOf s c, word := w, ab := ab,
    desc := if engOf w = 4 ∧ opc w = 1 then ldBytes s (ab.getD (bits w 64 4) 0) 128
      else if engOf w = 5 ∧ opc w = 4 then natLE 5 (nextPack s c) else [] }

/-- The next place in the core's order is used up. -/
def nextSeq (s : State) (c : CoreId) : State :=
  let x := core s c
  setCore s c { x with seq := x.seq + 1 }

/-- The sequencer instruction of an opcode at the front, its wait met: run its effect; a wait that is not met stops dispatch
(04 R101). Nothing happens where the front is another instruction. -/
def control (s : State) (c : CoreId) (op : Nat) (effect : Nat → State → State) : State :=
  match frontWord s c with
  | none => s
  | some w =>
    if engOf w ≠ 0 ∨ opc w ≠ op then s
    else if waitMet s c w then effect w (nextSeq (takeWait s c w) c)
    else stalled s c

/-- As control, for instructions that make their post at once. -/
def controlPost (s : State) (c : CoreId) (op : Nat) (effect : Nat → State → State) : Host.Outcome State Fault Refusal :=
  .next (control s c op (fun w t => makePost (effect w t) c w))

/-- INSTRUCTION_DISPATCH (04 R97, R99, R586): a non-control instruction joins its engine's queue; a full queue stops dispatch;
a failed address check is program fault ADDR_RANGE, and nothing is queued. -/
def execInstructionDispatch (c : CoreId) (s : State) : Host.Outcome State Fault Refusal :=
  .next (match frontWord s c with
    | none => s
    | some w =>
      let e := engOf w
      if e = 0 ∨ 5 < e then s
      else if queueCap ≤ (queueOf (core s c) e).length then stalled s c
      else
        match badOperand s c w (abValues s c) with
        | some b => programFault s c 0x05 b (pcOf s c) e
        | none =>
          let q := frontEntry s c w
          let x := core s c
          let x := if (queueOf x e).isEmpty then { x with since := setAt x.since e s.stallClock } else x
          let x := if e = 5 ∧ opc w = 4 then { x with packed := x.packed + 1 } else x
          advance (nextSeq (setCore s c (pushQueue x e q)) c) c)

/-- NOP honours its wait and post (04 R101). -/
def execNop (c : CoreId) (s : State) : Host.Outcome State Fault Refusal := controlPost s c 0x00 (fun _ t => advance t c)

/-- WAIT: dispatch stops until its wait is satisfied (04 R101). -/
def execWait (c : CoreId) (s : State) : Host.Outcome State Fault Refusal := controlPost s c 0x01 (fun _ t => advance t c)

/-- JUMP continues at its target (04 R101). -/
def execJump (c : CoreId) (s : State) : Host.Outcome State Fault Refusal :=
  controlPost s c 0x03 (fun w t => goTo t c (bits w 64 12))

/-- LAP_SET (04 R101). -/
def execLapSet (c : CoreId) (s : State) : Host.Outcome State Fault Refusal :=
  controlPost s c 0x04 (fun w t => advance (wr t (F.CO_LAP_COUNT c (bits w 64 3)) (bits w 96 32)) c)

/-- LOOP (04 R109): a counter at 0 falls through and stays 0; otherwise it is decremented, and a nonzero result branches. -/
def execLoop (c : CoreId) (s : State) : Host.Outcome State Fault Refusal :=
  controlPost s c 0x05 (fun w t =>
    let f := F.CO_LAP_COUNT c (bits w 64 3)
    let n := rd t f
    if n = 0 then advance t c
    else
      let t := wr t f (n - 1)
      if n - 1 = 0 then advance t c else goTo t c (bits w 76 12))

/-- AB_SET (04 R101). -/
def execAbSet (c : CoreId) (s : State) : Host.Outcome State Fault Refusal :=
  controlPost s c 0x06 (fun w t =>
    let n := bits w 64 4
    advance (wrAll t [(F.CO_AB_CUR_VALUE c n, bits w 80 48), (F.CO_AB_BASE_VALUE c n, bits w 80 48)]) c)

/-- The new current value of an address base under AB_ADD (04 R110). -/
def abAdd (cur base span : Nat) (d : Int) : Nat :=
  if span = 0 then unsignedOf 48 ((cur : Int) + d)
  else unsignedOf 48 ((base : Int) + ((cur : Int) - base + d) % ((span * 64 : Nat) : Int))

/-- AB_ADD (04 R110). -/
def execAbAdd (c : CoreId) (s : State) : Host.Outcome State Fault Refusal :=
  controlPost s c 0x07 (fun w t =>
    let n := bits w 64 4
    let v := abAdd (rd t (F.CO_AB_CUR_VALUE c n)) (rd t (F.CO_AB_BASE_VALUE c n)) (bits w 72 24) (signed 32 (bits w 96 32))
    advance (wr t (F.CO_AB_CUR_VALUE c n) v) c)

/-- SPLIT captures the timebase into the split log; WRAPPED is set when an entry written since LOAD_PROGRAM is overwritten
(04 R101, R131). Log 26 (DEDUCED). -/
def execSplit (c : CoreId) (s : State) : Host.Outcome State Fault Refusal :=
  controlPost s c 0x09 (fun w t =>
    let n := rd t (F.CO_SPLIT_NEXT_NEXT c)
    let t := wrAll t [(F.CO_SPLIT_TIME_TIME c n, now t), (F.CO_SPLIT_TAG_INDEX c n, pcOf t c), (F.CO_SPLIT_TAG_TAG c n, bits w 64 32),
      (F.CO_SPLIT_NEXT_NEXT c, (n + 1) % 64)]
    let x := core t c
    let t := setCore t c { x with splits := min 64 (x.splits + 1) }
    advance (if 64 ≤ x.splits then wr t (F.CO_SPLIT_NEXT_WRAPPED c) 1 else t) c)

/-- Every instruction the core dispatched has retired. -/
def allRetired (s : State) (c : CoreId) : Bool := (outstanding s c).isEmpty

/-- SYNC: dispatch stops until every earlier instruction of the core has retired in every engine (04 R101). -/
def execSync (c : CoreId) (s : State) : Host.Outcome State Fault Refusal :=
  .next (match frontWord s c with
    | none => s
    | some w =>
      if engOf w ≠ 0 ∨ opc w ≠ 0x02 then s
      else if waitMet s c w && allRetired s c then advance (makePost (nextSeq (takeWait s c w) c) c w) c
      else stalled s c)

/-- The mode of a HURDLE instruction (04 R101). -/
def hurdleMode (w : Nat) : Nat := bits w 72 2

/-- The front is a HURDLE of a mode. -/
def frontHurdle (s : State) (c : CoreId) (mode : Nat) : Option Nat :=
  match frontWord s c with
  | some w => if engOf w = 0 ∧ opc w = 0x08 ∧ hurdleMode w = mode then some w else none
  | none => none

/-- A fenced arrival is dispatched; it is made when every earlier instruction has retired (04 R112). Log 27 (DEDUCED). -/
def dispatchArrival (s : State) (c : CoreId) (w : Nat) : State :=
  let q := frontEntry s c w
  let x := core s c
  let s := nextSeq (setCore s c { x with pend := x.pend ++ [⟨q, bits w 64 8⟩] }) c
  flushArrivals ((core s c).pend.length) s c

/-- Has a hurdle passed in the epoch of the core's last arrival (04 R112)? -/
def hurdlePassed (s : State) (c : CoreId) (h : Nat) : Bool :=
  !(core s c).pend.any (fun p => p.hurdle == h) &&
    (match mapFind (core s c).arrivals h with
     | some e => decide (0 < serialDiff 16 (hdEpoch s h) e)
     | none => false)

/-- HURDLE ARRIVE (04 R112). -/
def execHurdleArrive (c : CoreId) (s : State) : Host.Outcome State Fault Refusal :=
  .next (match frontHurdle s c 1 with
    | none => s
    | some w => if waitMet s c w then advance (dispatchArrival (takeWait s c w) c w) c else stalled s c)

/-- HURDLE WAIT stops dispatch until the hurdle passes in the epoch of the core's last arrival (04 R112). -/
def execHurdleWait (c : CoreId) (s : State) : Host.Outcome State Fault Refusal :=
  .next (match frontHurdle s c 2 with
    | none => s
    | some w =>
      if waitMet s c w && hurdlePassed s c (bits w 64 8) then advance (makePost (nextSeq (takeWait s c w) c) c w) c
      else stalled s c)

/-- HURDLE ARRIVE_WAIT: a fenced arrival, then the wait (04 R112). The first time its arrival is dispatched; dispatch then
stays at it until the hurdle has passed, and its post is made then. -/
def execHurdleArriveWait (c : CoreId) (s : State) : Host.Outcome State Fault Refusal :=
  .next (match frontHurdle s c 3 with
    | none => s
    | some w =>
      let x := core s c
      if x.inWait then
        if hurdlePassed s c (bits w 64 8) then advance (makePost (setCore s c { x with inWait := false }) c w) c else stalled s c
      else if waitMet s c w then
        let s := dispatchArrival (takeWait s c w) c (setBits w 39 8 0)
        stalled (setCore s c { core s c with inWait := true }) c
      else stalled s c)

/-- CALL_CC requests a routine of the cluster control core (04 R122); its post is made when the routine completes. -/
def execCallCc (c : CoreId) (s : State) : Host.Outcome State Fault Refusal :=
  .next (control s c 0x0A (fun w t =>
    let k := cluster t c.cluster
    let q := { frontEntry t c w with seq := (core s c).seq }
    advance (setCluster t c.cluster { k with ccq := k.ccq ++
      [{ core := c, entry := q, routine := bits w 64 6, arg := q.ab.getD (bits w 70 4) 0, done := false }] }) c))

/-- The first counter of a core that END_STEP finds wrong (04 R120): a baton that is not 0, then a pacer below its limit. -/
def residueAt (s : State) (c : CoreId) : Option Nat :=
  match (List.range 64).find? (fun n => rd s (F.CO_BT_COUNT c n) != 0) with
  | some n => some n
  | none => (List.range 16).find? (fun n => decide (rd s (F.CO_PA_COUNT c n) < rd s (F.CO_PA_LIMIT c n)))

/-- Every occupied core is HALTED: the module's share of the step is complete (04 R120, 16 R479). A RUN_PROGRAM ends; a RUN_STEP
without COMMIT has its status and the step awaits commit; with COMMIT, or under a COMMIT_STEP, the commit follows. -/
def shareComplete (s : State) : State :=
  match s.run with
  | none => s
  | some r =>
    if r.halted ∨ !r.started ∨ !(occupiedCores s).all (fun c => rd s (F.CO_SEQ_STAT_STATE c) == 2) then s
    else
      let ok := if r.replays = 0 then 0 else 0x20
      if r.program then endRun (finish s r.ring r.seq ok 0 [])
      else
        let s := { s with run := some { r with halted := true } }
        if r.committing then setStepState { s with run := some { r with halted := true, cTime := now s } } 4
        else if r.commit then
          setStepState { s with run := some { r with halted := true, committing := true, cRing := r.ring, cSeq := r.seq,
                                                     cRounds := r.rounds, cRoundVc := r.roundVc, round := 0,
                                                     cTime := now s, cLimit := r.limit } } 4
        else setStepState (finish s r.ring r.seq ok 0 (stepResult s r.step r.replays)) 3

/-- END_STEP (04 R120): waits for retirement and verification, sets the flags of statuses never emitted, checks the counters,
and halts the core. -/
def execEndStep (c : CoreId) (s : State) : Host.Outcome State Fault Refusal :=
  .next (match frontWord s c with
    | none => s
    | some w =>
      if engOf w ≠ 0 ∨ opc w ≠ 0x0B then s
      else if !(waitMet s c w && allRetired s c && (core s c).mx.unver.isEmpty && (core s c).mx.refeed.isEmpty) then stalled s c
      else
        let s := flushAllFlags (nextSeq (takeWait s c w) c) c
        match residueAt s c with
        | some n => programFault s c 0x04 n (pcOf s c) 0
        | none =>
          let s := makePost s c w
          shareComplete (wrAll s [(F.CO_SEQ_STAT_STATE c, 2), (F.CO_SEQ_STAT_STALL c, 0)]))

/-! Counters, 04 R102, R103, R107. -/

/-- The first of the posts under way that is this one is taken out. -/
def takePost (l : List Post) (p : Post) : Option (List Post) := if l.contains p then some (l.erase p) else none

/-- BATON_POST (04 R102, R103): a post on its way arrives; a sum above 65,535 is program fault BATON_OVERFLOW, whose instruction
the spec does not name: INDEX and ENG are free values (DESIGN CHOICE, log 6). -/
def execBatonPost (x : SlotId) (bt : Fin 64) (n : Nat) (s : State) : Host.Outcome State Fault Refusal :=
  .next (match takePost s.posts ⟨x, false, bt.val, n⟩ with
    | none => s
    | some l =>
      let s := wakeCluster { s with posts := l } x.cluster
      match slotCore s x with
      | none => s
      | some c =>
        let v := rd s (F.CO_BT_COUNT c bt.val) + n
        if v ≤ 65535 then wr s (F.CO_BT_COUNT c bt.val) v
        else
          let (i, s) := drawFree s 12
          let (e, s) := drawFree s 4
          programFault s c 0x01 bt.val i e)

/-- PACER_RETURN (04 R107): a return raises the pacer, or is program fault PACER_OVERFLOW above the limit. -/
def execPacerReturn (x : SlotId) (pa : Fin 16) (n : Nat) (s : State) : Host.Outcome State Fault Refusal :=
  .next (match takePost s.posts ⟨x, true, pa.val, n⟩ with
    | none => s
    | some l =>
      let s := wakeCluster { s with posts := l } x.cluster
      match slotCore s x with
      | none => s
      | some c =>
        let v := rd s (F.CO_PA_COUNT c pa.val) + n
        if v ≤ rd s (F.CO_PA_LIMIT c pa.val) then wr s (F.CO_PA_COUNT c pa.val) v
        else
          let (i, s) := drawFree s 12
          let (e, s) := drawFree s 4
          programFault s c 0x02 pa.val i e)

/-- Is a table slot FREE (10 R299)? -/
def slotFree (s : State) (k : ClusterId) (n : Nat) : Bool := rd s (F.CX_SLOT_W0_STATE k n) == 0

/-- What an engine's wait concerns when it is not satisfied: the instruction that waits and its counter (04 R119). The sequencer
times its WAIT, SYNC and HURDLE WAIT; an engine the wait of its queue's head; the codec also the slot wait of 10 R299. -/
def unmetWait (s : State) (c : CoreId) (eng : Engine) : Option (Nat × Nat) :=
  if !running s c then none
  else
    match eng with
    | .seq =>
      match frontWord s c with
      | none => none
      | some w =>
        if engOf w ≠ 0 then none
        else if !waitMet s c w then some (pcOf s c, waitIdx w)
        else if opc w = 0x02 ∧ !allRetired s c then some (pcOf s c, 0)
        else if opc w = 0x08 ∧ hurdleMode w = 2 ∧ !hurdlePassed s c (bits w 64 8) then some (pcOf s c, 0)
        else if opc w = 0x08 ∧ hurdleMode w = 3 ∧ (core s c).inWait ∧ !hurdlePassed s c (bits w 64 8) then some (pcOf s c, 0)
        else none
    | e =>
      match queueOf (core s c) e.code with
      | [] => none
      | q :: _ =>
        if !waitMet s c q.word then some (q.idx, waitIdx q.word)
        else if e.code = 5 ∧ (opc q.word = 1 ∨ opc q.word = 2) ∧ !slotFree s c.cluster (bits q.word 64 4) then some (q.idx, 0)
        else none

/-- Is a replay under way in this module (04 R119)? -/
def replaying (s : State) : Bool := rd s F.ID_REPLAY_PHASE != 0

/-- A wait has lasted longer than STALL_LIMIT, which counts microseconds. -/
def stallOver (s : State) (c : CoreId) (eng : Nat) : Bool :=
  decide ((core s c).since.getD eng 0 + 1000 * rd s (F.CO_STALL_LIMIT_LIMIT c) < s.stallClock)

/-- STALL_TIMEOUT (04 R119): a wait that is not satisfied has lasted longer than STALL_LIMIT. The timers are suspended during a replay, and
while any compute die runs below full duty (20 R569). Log 93 (DEDUCED). -/
def execStallTimeout (c : CoreId) (eng : Engine) (s : State) : Host.Outcome State Fault Refusal :=
  .next (if replaying s ∨ rd s F.PWR_STAT_DUTY_MIN < 8 ∨ !stallOver s c eng.code then s
    else match unmetWait s c eng with
      | none => s
      | some (i, n) => programFault s c 0x03 n i eng.code)

/-- The core waits on a hurdle of a group one of whose members reports a replay (04 R119). -/
def memberReplays (s : State) (c : CoreId) : Bool :=
  match frontWord s c with
  | none => false
  | some w =>
    let h := bits w 64 8
    engOf w == 0 && opc w == 0x08 && decide (2 ≤ hurdleMode w) && rd s (F.HD_CFG_SCOPE 0 h) == 1
      && (members s (rd s (F.HD_CFG_VC 0 h))).any (fun m => s.reporting.contains m)

/-- Some nanoseconds of the wait timers: none passes while they are suspended, nor for a core whose hurdle waits for a member's replay. -/
def stallPass (s : State) (n : Nat) : State :=
  if replaying s ∨ rd s F.PWR_STAT_DUTY_MIN < 8 then s
  else
    let t := s.stallClock + n
    if s.reporting = [] then { s with stallClock := t }
    else { s with stallClock := t, cores := s.cores.map (fun (e : Nat × CoreSt) =>
      (e.1, if memberReplays s (coreOfKey e.1) then { e.2 with since := setAt e.2.since 0 (e.2.since.getD 0 0 + n) } else e.2)) }

/-! The cluster control core, 04 R122. -/

/-- A run lies in a cluster's store. -/
def inClusterStore (k : ClusterId) (a n : Nat) : Bool :=
  match regionOf a with
  | .clusterStore j off => decide (j = k ∧ off + n ≤ clusterStoreSize)
  | _ => false

/-- Data memory of a control core, and the part that firmware leaves to program routines: the upper 128 KiB (04 R126; log 25). -/
def dmemSize : Nat := 0x40000

/-- A run lies in the data memory that program routines may use. -/
def inDataMemory (off n : Nat) : Bool := decide (0x20000 ≤ off ∧ off + n ≤ dmemSize)

/-- May a program routine make an access (04 R122): its cluster's store and data memory, nothing else? -/
def routineMay (k : ClusterId) (p : CcPlace) (n : Nat) : Bool :=
  match p with
  | .store a => inClusterStore k a n
  | .data off => inDataMemory off n

/-- Bytes written to a control core's data memory. -/
def putData (m : NMap Nat) (off : Nat) (bs : List Byte) : NMap Nat :=
  (bs.mapIdx (fun i b => (i, b))).foldl (fun (t : NMap Nat) e => mapSetD 0 t (off + e.1) e.2.toNat) m

/-- One write of a program routine. -/
def routineWrite (s : State) (k : ClusterId) (e : CcPlace × List Byte) : State :=
  match e.1 with
  | .store a => stBytes s a e.2
  | .data off => (let x := cluster s k
                  setCluster s k { x with dmem := putData x.dmem off e.2 })

/-- A program routine's descriptor joins the stream queue of a slot (08 R241). -/
def emitRoutine (k : ClusterId) (s : State) (e : Fin 8 × List Byte) : State :=
  match slotCore s ⟨k.die, k.cl, e.1⟩ with
  | none => s
  | some c =>
    let x := core s c
    setCore s c { x with sq := x.sq ++ [{ desc := sliceBytes e.2 0 128, baton := 0, post := false, pacer := none, epoch := 0, kind := 4, page := 0 }] }

/-- The stream queues of a cluster have room for what a routine emits: 1,024 descriptors each (08 R241). A routine that finds one full waits. -/
def routineRoom (s : State) (k : ClusterId) (ds : List (Fin 8 × List Byte)) : Bool :=
  (List.finRange 8).all (fun j => match slotCore s ⟨k.die, k.cl, j⟩ with
    | none => true
    | some c => decide ((core s c).sq.length + ds.countP (fun e => e.1 == j) ≤ 1024))

/-- CALL_CC_COMPLETE (04 R122): the request at the head of the cluster's queue completes. A firmware routine completes when
its own command has run. Of a program routine the spec gives no instruction set, so what it read, what it wrote to its cluster's store and data
memory and the descriptors it emitted for its cluster's slots are operands; an access outside is ADDR_RANGE in the requesting core.
Log 25 (DESIGN CHOICE). -/
def execCallCcComplete (k : ClusterId) (w : CcAccess) (ds : List (Fin 8 × List Byte)) (s : State) :
    Host.Outcome State Fault Refusal :=
  .next (match (cluster s k).ccq with
    | [] => s
    | r :: rest =>
      let kind := match s.prog with
        | some p => (p.routines.find? (fun e => e.1 == k.key && e.2.1 == r.routine)).map (fun e => e.2.2.1)
        | none => none
      if kind = some 1 then
        if r.done then
          retired (setCluster s k { cluster s k with ccq := rest }) r.core r.entry
        else s
      else if !w.reads.all (fun e => routineMay k e.1 e.2) || !w.writes.all (fun e => routineMay k e.1 e.2.length) then
        programFault (setCluster s k { cluster s k with ccq := rest }) r.core 0x05 (bits r.entry.word 70 4) r.entry.idx 0
      else if !routineRoom s k ds then s
      else
        let s := ds.foldl (emitRoutine k) (w.writes.foldl (fun t e => routineWrite t k e) s)
        retired (setCluster s k { cluster s k with ccq := rest }) r.core r.entry)

end Sys2Proof.Machine
end

