-- ==== Sys2Proof/Machine/Codec.lean ====
section
/-!
DEFINITION. Packer and expander of a core, and the table slots of a cluster (10 R295 to R318).
-/

namespace Sys2Proof.Machine

open Sys2Proof

/-! Table slots, 10 R297 to R299. -/

/-- State of a slot: 0 FREE, 1 FILLING, 2 READY, 3 DRAINING. -/
def slotState (s : State) (k : ClusterId) (n : Nat) : Nat := rd s (F.CX_SLOT_W0_STATE k n)

/-- The blocks in a core's packer input that name a slot (10 R299, R307). -/
def packPins (x : CoreSt) (n : Nat) : Nat := ((packBlocks x).take 2).countP (fun e => e.1 == n && !e.2)

/-- The block that a core's expander holds in its input to expand it again (10 R309) names a slot. -/
def inputPins (x : CoreSt) (n : Nat) : Nat := x.exps.countP (fun j => j.tries != 0 && j.pin == some n)

/-- QREF of a slot: blocks that name its table in packer inputs, expander inputs and expansion queues of the cluster (10 R299), as its
register shows. Log 50 (DEDUCED). -/
def slotPins (s : State) (k : ClusterId) (n : Nat) : Nat :=
  ((List.finRange 9).map (fun j =>
    let x := core s ⟨k.die, k.cl, j⟩
    packPins x n + inputPins x n + x.expq.countP (fun e => e.pin == some n))).foldl (· + ·) 0

/-- Identity of a table built in a slot (10 R298). -/
def tableIdent (s : State) (k : ClusterId) (n gen : Nat) : Nat :=
  n + gen * 2 ^ 4 + k.cl.val * 2 ^ 12 + k.die.val * 2 ^ 16 + moduleId s * 2 ^ 19

/-- Code lengths of the table in a slot. -/
def slotLens (s : State) (k : ClusterId) (n : Nat) : List Nat := (cluster s k).tabs.getD n []

/-- A slot takes a table record: READY, with the record's fields and the slot's measurement chain (10 R297, R318, 19 R560). -/
def fillSlot (s : State) (k : ClusterId) (n : Nat) (r : List Byte) : State :=
  let x := cluster s k
  wrAll (setCluster s k { x with tabs := setAt x.tabs n (recordLens r),
                                 chains := setAt x.chains n (natLE 64 (Config.shake256 (x.chains.getD n [] ++ r))) })
    [(F.CX_SLOT_W0_STATE k n, 2), (F.CX_SLOT_W1_IDENT k n, leAt r 0 4), (F.CX_SLOT_W2_NSYM k n, leAt r 6 2),
     (F.CX_SLOT_W2_TCHK k n, leAt r 8 1), (F.CX_SLOT_W2_MAXLEN k n, leAt r 5 1), (F.CX_SLOT_W2_FMT k n, leAt r 4 1),
     (F.CX_SLOT_W3_TCRC k n, leAt r 8 4)]

/-- A build or load starts in a slot: its generation advances, its owner is the requesting slot (10 R296, R297). -/
def startFill (s : State) (c : CoreId) (n : Nat) : State :=
  let k := c.cluster
  wrAll s [(F.CX_SLOT_W0_GEN k n, rd s (F.CX_SLOT_W0_GEN k n) + 1), (F.CX_SLOT_W0_OWNER k n, slotNum s c)]

/-- A program error of the codec (10 R310): CX_ERR keeps the first of a step; the core stops with ADDR_RANGE. -/
def codecFail (s : State) (c : CoreId) (reason idx index eng : Nat) : State :=
  let k := c.cluster
  let s := if rdb s (F.CX_ERR_VALID k) then s
    else wrAll s [(F.CX_ERR_VALID k, 1), (F.CX_ERR_REASON k, reason), (F.CX_ERR_SLOT k, slotNum s c), (F.CX_ERR_INDEX k, index)]
  programFault s c 0x05 idx index eng

/-- Does the descriptor or instruction that packs or expands with a slot find it as it must be (10 R310: reasons 0x01, 0x02)?
Packing by an instruction needs READY (0x06). -/
def slotReason (s : State) (k : ClusterId) (n fmt : Nat) (packing : Bool) : Option Nat :=
  let st := slotState s k n
  if packing ∧ st ≠ 2 then some 0x06
  else if st ≠ 2 ∧ st ≠ 3 then some 0x01
  else if rd s (F.CX_SLOT_W2_FMT k n) ≠ fmt then some 0x02
  else none

/-! Instructions of engine 5. -/

/-- The head of the packer and expander's queue when it is an opcode. -/
def cxHead (s : State) (c : CoreId) (op : Nat) : Option QEntry := readyHead s c 5 (fun w => opc w == op)

/-- CX_BUILD (10 R294 to R299): once its slot is FREE, the histogram of the source gives a table, written to the slot and to REC.
A data fault leaves it untaken. -/
def execCxBuild (c : CoreId) (err : ReadErr) (s : State) : Host.Outcome State Fault Refusal :=
  .next (match cxHead s c 1 with
    | none => s
    | some e =>
      let n := bits e.word 64 4
      if slotState s c.cluster n ≠ 0 then s
      else
        let src := e.ab.getD (bits e.word 73 4) 0
        let len := buildLen e.word
        match readRuns s [(src, len)] err with
        | none => s
        | some (false, t) => t
        | some (true, t) =>
          match Fmt.ofCode (bits e.word 68 4) with
          | none => s
          | some f =>
            let cs := codesOf f (ldBytes t src len)
            let t := startFill (takeHead t c 5 e) c n
            let r := tableRecord (tableIdent t c.cluster n (rd t (F.CX_SLOT_W0_GEN c.cluster n))) f (lensOf (histogram f cs))
            retired (stBytes (fillSlot t c.cluster n r) (e.ab.getD (bits e.word 77 4) 0) r) c e)

/-- Some READY or DRAINING slot of a cluster holds an identity. -/
def identHeld (s : State) (k : ClusterId) (ident : Nat) : Bool :=
  (List.range 16).any (fun m => decide (2 ≤ slotState s k m) && rd s (F.CX_SLOT_W1_IDENT k m) == ident)

/-- CX_LOAD (10 R297, R300, R310): fills a FREE slot from a record; an invalid record, or an identity held already, fails, and the
slot returns to FREE. -/
def execCxLoad (c : CoreId) (err : ReadErr) (s : State) : Host.Outcome State Fault Refusal :=
  .next (match cxHead s c 2 with
    | none => s
    | some e =>
      let n := bits e.word 64 4
      if slotState s c.cluster n ≠ 0 then s
      else
        let rec_ := e.ab.getD (bits e.word 73 4) 0
        match readRuns s [(rec_, 144)] err with
        | none => s
        | some (false, t) => t
        | some (true, t) =>
          let r := ldBytes t rec_ 144
          let t := startFill (takeHead t c 5 e) c n
          if !recordValid r then codecFail t c 0x04 (bits e.word 73 4) e.idx 5
          else if identHeld t c.cluster (leAt r 0 4) then codecFail t c 0x05 (bits e.word 73 4) e.idx 5
          else retired (fillSlot t c.cluster n r) c e)

/-- CX_RELEASE (10 R299, R301, R310): a READY slot becomes DRAINING, or FREE where nothing pins it. -/
def execCxRelease (c : CoreId) (s : State) : Host.Outcome State Fault Refusal :=
  .next (match cxHead s c 3 with
    | none => s
    | some e =>
      let n := bits e.word 64 4
      let s := takeHead s c 5 e
      if slotState s c.cluster n ≠ 2 then codecFail s c 0x06 0 e.idx 5
      else retired (wr s (F.CX_SLOT_W0_STATE c.cluster n) (if slotPins s c.cluster n = 0 then 0 else 3)) c e)

/-- SLOT_DRAINED (10 R299): a DRAINING slot that nothing pins becomes FREE. -/
def execSlotDrained (k : ClusterId) (n : Fin 16) (s : State) : Host.Outcome State Fault Refusal :=
  .next (if slotState s k n.val = 3 ∧ slotPins s k n.val = 0 then wr s (F.CX_SLOT_W0_STATE k n.val) 0 else s)

/-- CX_PACK (10 R306, R310, R315): the packer takes the handoff output of the next NVX VX instructions as one tensor. The destination area
is that of its payload and headers, whose length LOAD_PROGRAM derived. Log 51 (DEDUCED). -/
def execCxPack (c : CoreId) (s : State) : Host.Outcome State Fault Refusal :=
  .next (match cxHead s c 4 with
    | none => s
    | some e =>
      let n := bits e.word 64 4
      let hdr := e.ab.getD (bits e.word 72 4) 0
      let pay := e.ab.getD (bits e.word 76 4) 0
      let first := bits e.word 80 24
      match slotReason s c.cluster n (bits e.word 68 4) true with
      | some r => codecFail (takeHead s c 5 e) c r 0 e.idx 5
      | none =>
        let blocks := ceilDiv (leNat e.desc) 4096
        let prot := protectedRun s (pay + 4096 * first) (4096 * blocks) || protectedRun s (hdr + 16 * first) (16 * blocks)
        let s := takeHead s c 5 e
        let s := if prot then bump s (F.CX_CNT_COUNT c 7) 1 else s
        let x := core s c
        setCore s c (claimHandoffs { x with packs := x.packs ++
          [{ entry := e, dma := false, tslot := n, fmt := bits e.word 68 4, pay := pay, hdr := hdr, block := first,
             left := bits e.word 104 8, buf := [], prot := prot, tries := 0, done := false }] }))

/-! The expander. -/

/-- What a header says of a block (10 R289). -/
structure BlockHead where
  ident : Nat
  esc   : Bool
  clen  : Nat
  ulen  : Nat
  crc   : Nat
  block : Nat
  tchk  : Nat
  clean : Bool                         -- every reserved bit is 0
deriving DecidableEq, Repr

/-- The header that 16 bytes spell. -/
def blockHeadOf (b : List Byte) : BlockHead :=
  { ident := bits (leAt b 0 4) 0 29, esc := bit (leAt b 0 4) 29, clen := leAt b 4 2, ulen := leAt b 6 2, crc := leAt b 8 4,
    block := leAt b 12 3, tchk := leAt b 15 1,
    clean := bits (leAt b 0 4) 30 2 == 0 && decide (leAt b 4 2 ≤ 4096) && decide (leAt b 6 2 ≤ 4096) }

/-- The reason for which a block is a program error (10 R310): against the slot, its format and the expected length and index. -/
def blockReason (s : State) (k : ClusterId) (slot : Option Nat) (h : BlockHead) (ulen block : Nat) : Option Nat :=
  if !h.clean ∨ h.clen = 0 ∨ h.ulen = 0 ∨ h.ulen ≠ ulen ∨ (h.esc ∧ h.clen ≠ h.ulen) ∨ h.block ≠ block then some 0x03
  else if h.esc then none
  else
    match slot with
    | none => some 0x01
    | some n =>
      if rd s (F.CX_SLOT_W1_IDENT k n) ≠ h.ident ∨ rd s (F.CX_SLOT_W2_TCHK k n) ≠ h.tchk then some 0x01 else none

/-- The plain bytes of a block; none where a check of R309 fails. -/
def expandBlock (s : State) (k : ClusterId) (slot : Option Nat) (f : Fmt) (h : BlockHead) (pay : List Byte) : Option (List Byte) :=
  let plain := if h.esc then some (pay.take h.clen)
    else decodeBlock f (slotLens s k (slot.getD 0)) (h.ulen * 8 / f.width) h.clen (pay.take h.clen)
  match plain with
  | some p => if crc32c p = h.crc then some p else none
  | none => none

end Sys2Proof.Machine
end

