-- ==== Sys2Proof/Machine/Descriptor.lean ====
section
/-!
DEFINITION. DMA descriptors: fields, the runs they read and write, and the checks at take (11 R333 to R340; 03 R77 to R86).
-/

namespace Sys2Proof.Machine

open Sys2Proof

/-- A scale descriptor (03 R86). -/
structure ScaleDesc where
  smode : Nat
  axis  : Nat
  amax  : Bool
  fixed : Nat
  hist  : Nat
  addr  : Nat
  clean : Bool
deriving DecidableEq, Repr

/-- The scale descriptor that 16 bytes spell. -/
def scaleDescOf (b : List Byte) : ScaleDesc :=
  let b0 := leAt b 0 1
  { smode := bits b0 0 3, axis := bits b0 3 2, amax := bit (leAt b 1 1) 0, fixed := leAt b 2 1, hist := leAt b 4 2, addr := leAt b 8 8,
    clean := bits b0 5 3 == 0 && leAt b 1 1 / 2 == 0 && leAt b 3 1 == 0 && leAt b 6 2 == 0 }

/-- A DMA descriptor (11 R334) with its address bases added (11 R333). -/
structure Desc where
  kind  : Nat
  trans : Bool
  mcast : Bool
  remote : Bool
  sfmt  : Nat
  dfmt  : Nat
  cvt   : Nat
  mode  : Nat
  early : Bool
  tslot : Nat
  slots : Nat
  vc    : Nat
  npost : Nat
  dmod  : Nat
  ntgt  : Nat
  first : Nat
  src   : Nat
  dst   : Nat
  n0    : Nat
  n1    : Nat
  n2    : Nat
  nsrc  : Nat
  ss1   : Int
  ss2   : Int
  ds1   : Int
  ds2   : Int
  aux   : Nat
  aux2  : Nat
  ssc   : ScaleDesc
  dsc   : ScaleDesc
  clean : Bool
deriving DecidableEq, Repr

/-- The descriptor that 128 bytes spell; add gives what the DX adds to SRC and DST. -/
def descOf (b : List Byte) (add : Nat × Nat) : Desc :=
  let b1 := leAt b 1 1
  let b4 := leAt b 4 1
  { kind := bits (leAt b 0 1) 0 4, trans := bit b1 0, mcast := bit b1 1, remote := bit b1 2,
    sfmt := bits (leAt b 2 1) 0 4, dfmt := bits (leAt b 2 1) 4 4, cvt := bits (leAt b 3 1) 0 3,
    mode := bits b4 0 3, early := bit b4 3, tslot := bits b4 4 4, slots := leAt b 5 1, vc := bits (leAt b 6 1) 0 3,
    npost := leAt b 7 1, dmod := bits (leAt b 8 2) 0 10, ntgt := leAt b 10 2, first := leAt b 12 3,
    src := (leAt b 0x10 6 + add.1) % 2 ^ 48, dst := (leAt b 0x18 6 + add.2) % 2 ^ 48,
    n0 := leAt b 0x20 4, n1 := leAt b 0x24 4, n2 := leAt b 0x28 4, nsrc := leAt b 0x2C 4,
    ss1 := signed 64 (leAt b 0x30 8), ss2 := signed 64 (leAt b 0x38 8), ds1 := signed 64 (leAt b 0x40 8),
    ds2 := signed 64 (leAt b 0x48 8), aux := leAt b 0x50 6, aux2 := leAt b 0x58 6,
    ssc := scaleDescOf (sliceBytes b 0x60 16), dsc := scaleDescOf (sliceBytes b 0x70 16),
    clean := leAt b 0 1 / 16 == 0 && b1 / 8 == 0 && leAt b 3 1 / 8 == 0 && leAt b 6 1 / 8 == 0 && leAt b 8 2 / 1024 == 0
      && leAt b 15 1 == 0 && leAt b 0x16 2 == 0 && leAt b 0x1E 2 == 0 && leAt b 0x56 2 == 0 && leAt b 0x5E 2 == 0 }

/-- What a DX adds to SRC and DST: the bases as they stood at dispatch (11 R333). -/
def dxAdd (e : QEntry) : Nat × Nat :=
  (if bit e.word 72 then e.ab.getD (bits e.word 68 4) 0 else 0, if bit e.word 77 then e.ab.getD (bits e.word 73 4) 0 else 0)

/-- The descriptor of a DX. -/
def dxDesc (e : QEntry) : Desc := descOf e.desc (dxAdd e)

/-! Addresses and runs. -/

/-- An address as a module address: 48 bits (11 R319). -/
def asAddr (i : Int) : Nat := unsignedOf 48 i

/-- Bytes of n elements of a descriptor format. -/
def dBytes (fmt n : Nat) : Nat := fmtBytes fmt n

/-- Data and scale bases of a destination: one, or under MCAST one in every slot of SLOTMASK (11 R338). -/
def destBases (c : CoreId) (d : Desc) : List (SlotId × Nat × Nat) :=
  if d.mcast then
    ((List.finRange 8).filter (fun j => bit d.slots j.val)).map (fun j =>
      let x : SlotId := ⟨c.die, c.cl, j⟩
      (x, coreStoreBase x + d.dst % 2 ^ 22, coreStoreBase x + d.dsc.addr % 2 ^ 22))
  else [(⟨c.die, c.cl, 0⟩, d.dst, d.dsc.addr)]

/-- Positions of a record's input tensor. -/
def inCount (w : WRec) : Nat := (w.axis 0).size * (w.axis 1).size * (w.axis 2).size

/-- Does a record regroup channels (09 R276): S2D or D2S? -/
def WRec.regroups (w : WRec) : Bool := w.mode == 6 || w.mode == 7

/-- Extents of the source tensor, and of the destination. Of a WINDOW they are the positions of its record (09 R264): of S2D with the
record's C channels each, of D2S with the channels that S2D gives them (09 R276). -/
def srcDims (d : Desc) (w : WRec) : Nat × Nat × Nat :=
  match d.kind with
  | 2 => (d.n0, d.nsrc, d.n2)
  | 3 =>
    (match w.mode with
     | 6 => (w.cin, inCount w, d.n2)
     | 7 => (w.taps * w.cin, outCount w, d.n2)
     | _ => (d.n0, inCount w, 1))
  | _ => (d.n0, d.n1, d.n2)

/-- Extents of the destination tensor. -/
def dstDims (d : Desc) : Nat × Nat × Nat := if d.trans then (d.n1, d.n0, d.n2) else (d.n0, d.n1, d.n2)

/-- Extents of a scale tensor (03 R79). A descriptor of R334 states neither an index at which its tensor begins nor an extent but N0 to N2 and
NSRC: DESIGN CHOICE, log 96: those are the whole tensor, and its scale tensor is read and written densely from SADDR. -/
def scaleDims (sd : ScaleDesc) (n : Nat × Nat × Nat) : Nat × Nat × Nat :=
  let g := groupSize sd.smode
  if g = 0 then (1, 1, 1)
  else
    (if sd.axis = 0 then ceilDiv n.1 g else n.1, if sd.axis = 1 then ceilDiv n.2.1 g else n.2.1,
     if sd.axis = 2 then ceilDiv n.2.2 g else n.2.2)

/-- Bytes of a scale tensor. -/
def scaleLen (sd : ScaleDesc) (n : Nat × Nat × Nat) : Nat :=
  if sd.smode < 2 then 0 else (let m := scaleDims sd n; m.1 * m.2.1 * m.2.2)

/-- Place of an element's scale in its scale tensor. -/
def scaleIx (sd : ScaleDesc) (n : Nat × Nat × Nat) (i : Nat × Nat × Nat) : Nat :=
  let g := groupSize sd.smode
  if g = 0 then 0
  else
    let m := scaleDims sd n
    let q := fun (ax x : Nat) => if sd.axis = ax then x / g else x
    q 0 i.1 + m.1 * (q 1 i.2.1 + m.2.1 * q 2 i.2.2)

/-- Elements that stand one after the other in a row as it is fed: cnt elements of a source row from element e0, or cnt elements of
padding. -/
structure Piece where
  row : Option Nat
  e0  : Nat
  cnt : Nat
deriving DecidableEq, Repr

/-- Row n of a feed in tiles of per positions of each index along axis 2, 128 rows to a tile: the index and the position, or none for a
row that a short tile lacks (09 R262). -/
def tileRow (per idx n : Nat) : Option (Nat × Nat) :=
  let tiles := ceilDiv per 128
  let p := n / 128 % tiles * 128 + n % 128
  if p < per ∧ n / 128 / tiles < idx then some (n / 128 / tiles, p) else none

/-- The input position that row n reads at tap t of a window over output tiles (09 R262, R263). -/
def tapPos (w : WRec) (n t : Nat) : Option Nat :=
  let per := (w.axis 0).out * (w.axis 1).out
  match tileRow per (w.axis 2).out n with
  | some (i, p) => if t < w.taps then inputPos w (outCoord w (i * per + p)) (tapCoord w t) else none
  | none => none

/-- The input position that input tile n gives to place t of the transform: temporal taps outermost, then the 6 × 6 places (09 R270). -/
def winogradPos (w : WRec) (n t : Nat) : Option Nat :=
  let wide := ceilDiv (w.axis 0).out 4
  match tileRow (wide * ceilDiv (w.axis 1).out 4) (w.axis 2).out n with
  | some (i, p) =>
    if t / 36 < (w.axis 2).ker then
      posOf w ((4 * (p % wide) + t % 6 : Nat) - (w.axis 0).lo) ((4 * (p / wide) + t % 36 / 6 : Nat) - (w.axis 1).lo)
        (tapIndex (w.axis 2) i (t / 36))
    else none
  | none => none

/-- The pieces of n elements of a position's channels, lim at most; the rest is padding (09 R262). -/
def channelPieces (lim n : Nat) (p : Option Nat) : List Piece := [⟨p, 0, min n lim⟩, ⟨none, 0, n - lim⟩]

/-- The channels of groups of fewer than 128, each padded to a power of two (09 R275). -/
def groupPieces (groups g n : Nat) (p : Option Nat) : List Piece :=
  let g2 := 2 ^ Nat.clog 2 g
  (List.range (ceilDiv n g2)).flatMap (fun q => [⟨if q < groups then p else none, q * g, g⟩, ⟨none, 0, g2 - g⟩])

/-- What row i1 of plane i2 of a WINDOW holds, by the mode of its record (09 R259, R262, R270, R275, R276). DEDUCED, log 11. -/
def windowPieces (w : WRec) (n0 i2 i1 : Nat) : List Piece :=
  match w.mode with
  | 1 => channelPieces w.cin n0 (winogradPos w i1 i2)
  | 6 => (List.range w.taps).map (fun t => ⟨if i1 < outCount w then inputPos w (outCoord w i1) (tapCoord w t) else none, 0, w.cin⟩)
  | 7 =>
    let x := i1 % (w.axis 0).size
    let y := i1 / (w.axis 0).size % (w.axis 1).size
    let z := i1 / ((w.axis 0).size * (w.axis 1).size)
    let k := fun (i : Nat) => (w.axis i).ker
    let tap := (z % k 2 * k 1 + y % k 1) * k 0 + x % k 0
    let from_ := (z / k 2 * (w.axis 1).out + y / k 1) * (w.axis 0).out + x / k 0
    [⟨if i1 < inCount w then some from_ else none, tap * w.cin, w.cin⟩]
  | 0 =>
    let g := w.cin / w.groups
    if 1 < w.groups ∧ g < 128 then groupPieces w.groups g n0 (tapPos w i1 i2) else channelPieces g n0 (tapPos w i1 i2)
  | _ => channelPieces w.cin n0 (tapPos w i1 i2)

/-- The rows a descriptor feeds, in visiting order: for each (i2, i1) the pieces of its row. -/
def visitRows (s : State) (d : Desc) (w : WRec) : List (List (List Piece)) :=
  match d.kind with
  | 2 =>
    let ix := (List.range d.n1).map (fun i => ldN s (d.aux + 4 * i) 4)
    (List.range d.n2).map (fun _ => ix.map (fun r => [⟨some r, 0, d.n0⟩]))
  | 3 => (List.range d.n2).map (fun t => (List.range d.n1).map (windowPieces w d.n0 t))
  | _ => (List.range d.n2).map (fun _ => (List.range d.n1).map (fun r => [⟨some r, 0, d.n0⟩]))

/-- The plane that i2 takes of the source: the planes of a window are its taps. -/
def srcPlane (d : Desc) (w : WRec) (i2 : Nat) : Nat := if d.kind = 3 ∧ !w.regroups then 0 else i2

/-- Address of source row r under i2. -/
def srcRow (d : Desc) (w : WRec) (i2 r : Nat) : Nat := asAddr ((d.src : Int) + (srcPlane d w i2 : Int) * d.ss2 + (r : Int) * d.ss1)

/-- The bytes that hold elements e0 to e0 + cnt − 1 of a row: their offset and their count. -/
def pieceBytes (fmt e0 cnt : Nat) : Nat × Nat :=
  let lo := e0 * fmtWidth fmt / 8
  (lo, if cnt = 0 then 0 else ceilDiv ((e0 + cnt) * fmtWidth fmt) 8 - lo)

/-- Plain bytes of a descriptor with a codec mode. -/
def plainLen (d : Desc) : Nat := dBytes d.sfmt (d.n0 * d.n1 * d.n2)

/-- Blocks of a packed tensor. -/
def blockCount (d : Desc) : Nat := ceilDiv (plainLen d) 4096

/-- Bytes of the encoded side of a lossy descriptor (09 R280). -/
def lossyLen (d : Desc) : Nat := ceilDiv (d.n0 * d.n1 * d.n2) 64 * (if d.mode = 4 ∨ d.mode = 6 then 64 else 32)

/-- Runs (address, length) of the data that a descriptor reads; of a packed side the areas of its blocks (10 R288). -/
def dataRuns (s : State) (d : Desc) (w : WRec) : List (Nat × Nat) :=
  match d.mode with
  | 0 =>
    ((visitRows s d w).mapIdx (fun i2 l => l.flatMap (fun ps => (ps.filter (fun p => p.cnt != 0)).filterMap (fun p =>
      p.row.map (fun r => (let b := pieceBytes d.sfmt p.e0 p.cnt; (srcRow d w i2 r + b.1, b.2))))))).flatten
  | 1 => [(d.src, plainLen d)]
  | 2 => [(d.src, 4096 * blockCount d), (d.aux, 16 * blockCount d)]
  | 3 => [(d.src, 4096 * blockCount d), (d.aux, 16 * blockCount d)]
  | 4 => [(d.src, plainLen d)]
  | 5 => [(d.src, plainLen d)]
  | _ => [(d.src, lossyLen d)]

/-- The run of the source's scale tensor. -/
def scaleRuns (d : Desc) (w : WRec) : List (Nat × Nat) := if d.ssc.smode < 2 then [] else [(d.ssc.addr, scaleLen d.ssc (srcDims d w))]

/-- The run of a GATHER's index list, or of a WINDOW's record (11 R334). -/
def auxRuns (d : Desc) : List (Nat × Nat) := if d.kind = 2 then [(d.aux, 4 * d.n1)] else if d.kind = 3 then [(d.aux, 64)] else []

/-- Runs that a descriptor reads. -/
def srcRuns (s : State) (d : Desc) (w : WRec) : List (Nat × Nat) := dataRuns s d w ++ scaleRuns d w ++ auxRuns d

/-- Addresses at which an area of a codec descriptor's destination is written: under MCAST its core-store offset in every slot of
SLOTMASK (11 R338). -/
def spreadAddr (c : CoreId) (d : Desc) (a : Nat) : List Nat :=
  if d.mcast then (destBases c d).map (fun b => coreStoreBase b.1 + a % 2 ^ 22) else [a]

/-- Runs that a descriptor with a codec mode writes, before MCAST spreads them; scale bytes move as they are stored (03 R80). -/
def codecRuns (d : Desc) : List (Nat × Nat) :=
  (match d.mode with
   | 2 => [(d.dst, plainLen d)]
   | 4 => [(d.dst, lossyLen d)]
   | 5 => [(d.dst, lossyLen d)]
   | 6 => [(d.dst, plainLen d)]
   | 7 => [(d.dst, plainLen d)]
   | _ => [(d.dst, 4096 * blockCount d), (d.aux2, 16 * blockCount d)])
  ++ (if d.dsc.smode < 2 then [] else [(d.dsc.addr, scaleLen d.dsc (dstDims d))])

/-- Runs that a descriptor writes. -/
def dstRuns (c : CoreId) (d : Desc) : List (Nat × Nat) :=
  match d.mode with
  | 0 =>
    (destBases c d).flatMap (fun b =>
      (List.range d.n2).flatMap (fun i2 =>
        (List.range (if d.trans then d.n0 else d.n1)).map (fun i =>
          (asAddr ((b.2.1 : Int) + i2 * d.ds2 + i * d.ds1), dBytes d.dfmt (if d.trans then d.n1 else d.n0))))
      ++ (if d.dsc.smode < 2 then [] else [(b.2.2, scaleLen d.dsc (dstDims d))]))
  | _ => (codecRuns d).flatMap (fun r => (spreadAddr c d r.1).map (fun a => (a, r.2)))

/-! Checks, 11 R340. -/

/-- A scale descriptor that R77, R79 or R86 refuses, or whose AXIS is 3 (11 R336). -/
def scaleBad (s : State) (sd : ScaleDesc) (fmt : Nat) : Bool :=
  let m := sd.smode
  !sd.clean || decide (5 < m) || (m != 0 && decide (3 < fmt)) || (decide (m < 3) && sd.axis != 0) || sd.axis == 3
    || (!sd.amax && sd.hist != 0) || (m == 2 && !sd.amax) || (m == 1 && sd.fixed == 0xFF) || (m != 1 && sd.fixed != 0)
    || sd.addr % 64 != 0 || (decide (m < 2) && sd.addr != 0)
    || (sd.amax && !(match s.prog with | some p => decide (sd.hist < p.amaxLen) | none => false))

/-- A window record that LOAD_PROGRAM accepts (09 R257, R258, R260, R261). -/
def windowOk (b : List Byte) : Bool :=
  let r := windowOf b
  let used := fun (i : Nat) => decide (i < r.dims)
  let axisOk := fun (i : Nat) =>
    let a := r.axis i
    let span : Int := (a.size : Int) + a.lo + a.hi - a.dil * ((a.ker : Int) - 1) - 1
    leAt b (0x10 * (i + 1) + 15) 1 == 0 &&
    (if used i then
        decide (1 ≤ a.size ∧ a.size ≤ 2 ^ 24 ∧ 1 ≤ a.ker ∧ a.ker ≤ 64 ∧ 1 ≤ a.str ∧ a.str ≤ 64 ∧ 1 ≤ a.dil)
          && decide ((a.out : Int) = Int.fdiv span a.str + 1 ∧ 1 ≤ a.out)
      else a.size == 1 && a.out == 1 && a.ker == 1 && a.str == 1 && a.dil == 1 && a.lo == 0 && a.hi == 0)
  decide (1 ≤ r.dims ∧ r.dims ≤ 3) && decide (r.mode ≤ 7) && r.groups != 0 && decide (1 ≤ r.cin ∧ r.cin ≤ 65536)
    && decide (1 ≤ r.cout ∧ r.cout ≤ 65536) && leAt b 13 3 == 0 && (List.range 3).all axisOk
    && r.cin % r.groups == 0 && r.cout % r.groups == 0 && decide (r.fmt ≤ 3 ∨ (3 ≤ r.mode ∧ r.fmt = 4))
    && (r.mode != 1 || (decide (2 ≤ r.dims) && (r.fmt == 3 || r.fmt == 1) && r.groups == 1
          && (List.range 2).all (fun i => (r.axis i).ker == 3 && (r.axis i).str == 1 && (r.axis i).dil == 1)))
    && (r.mode != 2 || (decide (r.taps ≤ 128) && r.groups == r.cin && r.cin == r.cout))
    && (!(r.mode == 6 || r.mode == 7) || (List.range 3).all (fun i =>
          !used i || ((r.axis i).ker == (r.axis i).str && (r.axis i).dil == 1 && (r.axis i).lo == 0 && (r.axis i).hi == 0
            && (r.axis i).size % (r.axis i).ker == 0)))

/-- Would a WINDOW split a scale group (03 R82)? Groups run along channels (09 R264), and a regrouping cuts a row's channels at multiples
of C (09 R276). -/
def windowSplits (d : Desc) (w : WRec) : Bool :=
  let g := groupSize d.ssc.smode
  g != 0 && (d.ssc.axis != 0 || (w.regroups && w.taps != 1 && w.cin % g != 0))

/-- A WINDOW that no engine carries out: its record is refused, or it splits a scale group. -/
def windowBad (s : State) (d : Desc) (w : WRec) : Bool := d.kind == 3 && (!windowOk (ldBytes s d.aux 64) || windowSplits d w)

/-- Reason 0x02: a field of R334 to R336. Log 54 (DEDUCED). -/
def fieldBad (s : State) (d : Desc) : Bool :=
  let strides := [d.ss1, d.ss2, d.ds1, d.ds2]
  let k4 := d.sfmt == 0 || d.dfmt == 0
  let axis := if d.trans ∧ d.ssc.axis < 2 then 1 - d.ssc.axis else d.ssc.axis
  !d.clean || d.kind == 0 || decide (3 < d.kind) || fmtWidth d.sfmt == 0 || fmtWidth d.dfmt == 0 || decide (2 ≤ d.cvt % 4)
    || d.n0 == 0 || d.n1 == 0 || d.n2 == 0 || (d.kind == 2) != (d.nsrc != 0)
    || strides.any (fun x => x % 32 != 0) || (k4 && (d.n0 % 2 != 0 || (d.trans && d.n1 % 2 != 0)))
    || scaleBad s d.ssc d.sfmt || scaleBad s d.dsc d.dfmt
    || (if d.sfmt = d.dfmt then d.dsc.smode != d.ssc.smode || d.dsc.fixed != d.ssc.fixed
          || (decide (3 ≤ d.ssc.smode) && d.dsc.axis != axis)
        else decide (3 ≤ d.dsc.smode))

/-- Reason 0x03: a codec mode of R337, R280, R287, and the alignment of R288. -/
def codecBad (d : Desc) : Bool :=
  (d.early && d.mode != 2) ||
  (d.mode != 0 &&
    (let w := fmtWidth d.sfmt
     let plainS := d.mode == 1 || d.mode == 4 || d.mode == 5
     let plainD := d.mode == 2 || decide (5 < d.mode)
     let s1 : Int := (d.n0 * w / 8 : Nat)
     d.kind != 1 || d.trans || d.sfmt != d.dfmt
      || (plainS && (d.ss1 != s1 || d.ss2 != s1 * d.n1)) || (plainD && (d.ds1 != s1 || d.ds2 != s1 * d.n1))
      || (decide (d.mode ≤ 3) && decide (3 < d.sfmt))
      || (decide (4 ≤ d.mode) && (d.sfmt != 3 || d.ssc.smode != 0 || d.src % 64 != 0 || d.dst % 64 != 0))
      || ((d.mode == 1 || d.mode == 3) && (d.dst % 64 != 0 || d.aux2 % 64 != 0))
      || ((d.mode == 2 || d.mode == 3) && (d.src % 64 != 0 || d.aux % 64 != 0))))

/-- The cores of a cluster reach no store of another cluster (01 R16). -/
def clusterReaches (k : ClusterId) (a : Nat) : Bool :=
  match regionOf a with
  | .clusterStore j _ => j == k
  | .coreStore x _ => x.cluster == k
  | _ => true

/-- Does a run lie in memory that a descriptor of a program in a cluster reaches: populated, in one range, in no firmware area, in no other
cluster's stores (04 R125; 11 R319, R328; 01 R16)? -/
def runOk (s : State) (k : ClusterId) (r : Nat × Nat) : Bool :=
  r.2 == 0 || (populatedRun r.1 r.2 && !reachesFirmware r.1 r.2 && inOneRange s r.1 r.2 && clusterReaches k r.1)

/-- The rows of a GATHER's source tensor: NSRC × SRC_S1 bytes from SRC (11 R335). -/
def gatherSpan (d : Desc) : Nat × Nat :=
  (if d.ss1 < 0 then asAddr ((d.src : Int) + (d.nsrc : Int) * d.ss1) else d.src, d.nsrc * d.ss1.natAbs)

/-- The data runs of a descriptor as far as they are known before it runs: the rows that a GATHER takes are not. -/
def loadData (s : State) (d : Desc) (w : WRec) : List (Nat × Nat) := if d.kind = 2 then [gatherSpan d] else dataRuns s d w

/-- Reason 0x01: addresses, of a descriptor that reads these runs. -/
def addrBad (s : State) (c : CoreId) (d : Desc) (reads : List (Nat × Nat)) : Bool :=
  d.src % 32 != 0 || d.dst % 32 != 0 || (d.kind == 3 && d.aux % 64 != 0)
    || (d.kind == 2 && !inOneRange s (gatherSpan d).1 (gatherSpan d).2)
    || !reads.all (runOk s c.cluster) || (!d.remote && !(dstRuns c d).all (runOk s c.cluster))

/-- The whole run lies in populated HBM outside every firmware area (13 R399). -/
def hbmRun (r : Nat × Nat) : Bool :=
  match regionOf r.1 with
  | .hbm _ _ => r.2 == 0 || populatedRun r.1 r.2
  | _ => false

/-- Bytes that a REMOTE descriptor moves. -/
def remoteLen (c : CoreId) (d : Desc) : Nat := ((dstRuns c d).map (fun r => r.2)).foldl (· + ·) 0

/-- An MCAST descriptor that R338 refuses: it is REMOTE as well, or its source data lie outside the requesting cluster's store. -/
def mcastBad (c : CoreId) (d : Desc) (data : List (Nat × Nat)) : Bool :=
  d.mcast && (d.remote || !data.all (fun r => r.2 == 0 || inClusterStore c.cluster r.1 r.2))

/-- Reason 0x05: multicast and remote (11 R338, R339, 13 R397). -/
def targetBad (s : State) (c : CoreId) (d : Desc) (w : WRec) : Bool :=
  mcastBad c d (dataRuns s d w)
    || (d.remote && (decide (5 < d.vc) || rd s (F.FAB_BIND_W0_KIND d.vc) == 0 || d.dmod == moduleId s
        || !(members s d.vc).contains d.dmod || !(dstRuns c d).all hbmRun || decide (2 ^ 30 < remoteLen c d)))

/-- Two runs reach one 256-byte line. -/
def linesMeet (a b : Nat × Nat) : Bool :=
  decide (0 < a.2 ∧ 0 < b.2 ∧ a.1 / 256 ≤ (b.1 + b.2 - 1) / 256 ∧ b.1 / 256 ≤ (a.1 + a.2 - 1) / 256)

/-- The runs that a descriptor in flight still reads block by block: those of LEXPAND, and of LCOPY through the expander. -/
def laterReads (d : Desc) : List (Nat × Nat) :=
  if d.mode = 2 ∨ d.mode = 3 then [(d.src, 4096 * blockCount d), (d.aux, 16 * blockCount d)] else []

/-- Must a descriptor wait for an earlier one in flight whose blocks still come, so that their effects on storage take place in order
(04 R115; 11 R341)? It would write or read a line that the other still writes, or write a line that the other still reads. Writes of
one mode land in the order in which they started. Log 54 (DEDUCED). -/
def mustWait (s : State) (c : CoreId) (mode : Nat) (reads writes : List (Nat × Nat)) : Bool :=
  let meet := fun (l m : List (Nat × Nat)) => l.any (fun a => m.any (linesMeet a))
  (core s c).dxs.any (fun g =>
    let d := dxDesc g.entry
    let out := if d.remote then [] else dstRuns c d
    !g.done && ((d.mode != mode && meet out writes) || meet out reads || meet (laterReads d) writes))

/-- Two runs share a byte. -/
def runsMeet (a b : Nat × Nat) : Bool := decide (a.1 < b.1 + b.2 ∧ b.1 < a.1 + a.2)

/-- Reason 0x04: the destination overlaps the source. -/
def overlapBad (c : CoreId) (d : Desc) (reads : List (Nat × Nat)) : Bool :=
  !d.remote && reads.any (fun r => (dstRuns c d).any (runsMeet r))

/-- Reason 0x06: a gather index (11 R335). -/
def gatherBad (s : State) (d : Desc) : Bool :=
  d.kind == 2 &&
    (let ix := (List.range d.n1).map (fun i => ldN s (d.aux + 4 * i) 4)
     let g := groupSize d.ssc.smode
     let whole := fun (n : Nat) => if n % g = 0 then decide (ix.getD (n / g * g) 0 % g = 0) else ix.getD n 0 == ix.getD (n / g * g) 0 + n % g
     let tail := d.n1 % g
     ix.any (fun i => decide (d.nsrc ≤ i)) ||
     (decide (g ≠ 0) && d.ssc.axis == 1 &&
       (!(List.range (d.n1 - tail)).all whole ||
        (decide (tail ≠ 0) && (d.nsrc % g != tail ||
          !(List.range tail).all (fun j => ix.getD (d.n1 - tail + j) 0 == d.nsrc - tail + j))))))

/-- The window record a descriptor names. -/
def descWindow (s : State) (d : Desc) : WRec := windowOf (if d.kind = 3 then ldBytes s d.aux 64 else [])

/-- The reason for which a descriptor fails by its own bytes and the place of its index list or window record: the first part of
R340's checks. -/
def headReason (s : State) (c : CoreId) (d : Desc) : Option Nat :=
  if fieldBad s d then some 0x02
  else if codecBad d then some 0x03
  else if !(auxRuns d).all (runOk s c.cluster) then some 0x01
  else none

/-- The reason for which a descriptor fails at its take (11 R340); the reasons are judged in the order 2, 3, 1 for an
index list or a window record, 2 for that record, 6, 1, 5, 4 (DEDUCED, log 12). -/
def descReason (s : State) (c : CoreId) (d : Desc) : Option Nat :=
  let w := descWindow s d
  if (headReason s c d).isSome then headReason s c d
  else if windowBad s d w then some 0x02
  else if gatherBad s d then some 0x06
  else if addrBad s c d (srcRuns s d w) then some 0x01
  else if targetBad s c d w then some 0x05
  else if overlapBad c d (srcRuns s d w) then some 0x04
  else none

end Sys2Proof.Machine
end

