-- ==== Sys2Proof/Machine/Dma.lean ====
section
/-!
DEFINITION. The core DMA engine: descriptors taken, moved, converted, coded and retired; early expansion
(11 R333 to R341; 09 R280 to R286; 10 R306 to R312; 13 R397).
-/

namespace Sys2Proof.Machine

open Sys2Proof

/-! Elements on their way, 11 R335, R336. -/

/-- What a converting move gathers beside its codes: flags (02 R68 to R70) and amax (03 R89, R94). -/
structure MoveSum where
  sum  : FlagSum := {}
  amax : AmaxAdd := ⟨0, 0, 0, 0⟩
deriving DecidableEq, Repr

/-- One element converted under its source and destination scales. DESIGN CHOICE, log 99: a target that overflows to an infinity under SAT 0
counts as saturated. -/
def convertOne (flush : Bool) (sf df : Fmt) (cvt ss ds : Nat) (m : MoveSum) (code : Nat) : Nat × MoveSum :=
  let (x, f1) : XVal × Flags := if sf.isInt then (decodeVal sf code, {}) else
    (let w := widen flush sf code ss
     (decodeFloat .k32 w.1, w.2))
  let (r, f2) := storeScaled flush df cvt ds x
  let mag := match x with
    | .fin _ n d => (roundK32 false (.fin false n d)).1
    | _ => 0
  (r, { sum := m.sum.addAt 0 0 0 0 1 (f1.or f2),
        amax := { m.amax with amax := max m.amax.amax mag, sat := m.amax.sat + b2n f2.ovf, nan := m.amax.nan + b2n (x == .nan) } })

/-- A row of elements converted in order. -/
def convertRow (flush : Bool) (sf df : Fmt) (cvt ds : Nat) : MoveSum → List (Nat × Nat) → List Nat × MoveSum
  | m, [] => ([], m)
  | m, (c, sc) :: rest =>
    let (r, m) := convertOne flush sf df cvt sc ds m c
    let (rs, m) := convertRow flush sf df cvt ds m rest
    (r :: rs, m)

/-- Rows converted in order. -/
def convertRows (flush : Bool) (sf df : Fmt) (cvt ds : Nat) : MoveSum → List (List (Nat × Nat)) → List (List Nat) × MoveSum
  | m, [] => ([], m)
  | m, l :: ls =>
    let (r, m) := convertRow flush sf df cvt ds m l
    let (rs, m) := convertRows flush sf df cvt ds m ls
    (r :: rs, m)

/-- Scale code of a source element (03 R76, R79). -/
def srcScale (d : Desc) (w : WRec) (scales : List Nat) (i0 r i2 : Nat) : Nat :=
  match d.ssc.smode with
  | 0 => 0x7C
  | 1 => d.ssc.fixed
  | 2 => scales.getD 0 0x7C
  | _ => scales.getD (scaleIx d.ssc (srcDims d w) (i0, r, srcPlane d w i2)) 0x7C

/-- The elements of a piece with their scale codes; padding is code 0 under scale 0x7C (09 R264). -/
def pieceElems (s : State) (d : Desc) (w : WRec) (sf : Fmt) (scales : List Nat) (i2 : Nat) (p : Piece) : List (Nat × Nat) :=
  match p.row with
  | none => List.replicate p.cnt (0, 0x7C)
  | some r =>
    let b := pieceBytes d.sfmt p.e0 p.cnt
    let cs := (codesOf sf (ldBytes s (srcRow d w i2 r + b.1) b.2)).drop (p.e0 - b.1 * 8 / sf.width)
    (cs.take p.cnt).mapIdx (fun j code => (code, srcScale d w scales (p.e0 + j) r i2))

/-- One row as it is fed: its N0 elements with their scale codes. -/
def rowElems (s : State) (d : Desc) (w : WRec) (sf : Fmt) (scales : List Nat) (i2 : Nat) (ps : List Piece) : List (Nat × Nat) :=
  (ps.flatMap (pieceElems s d w sf scales i2) ++ List.replicate d.n0 (0, 0x7C)).take d.n0

/-- The scale tensor bytes at the destination (03 R81, R92; 11 R336; 09 R264). -/
def dstScales (s : State) (d : Desc) (rows : List (List (List (Nat × Nat)))) (scales : List Nat) : List Byte :=
  if d.dsc.smode < 2 then []
  else if d.sfmt ≠ d.dfmt then [BitVec.ofNat 8 (curScale s d.dsc.hist)]
  else if d.dsc.smode = 2 then [BitVec.ofNat 8 (scales.getD 0 0x7C)]
  else
    let g := groupSize d.dsc.smode
    let m := scaleDims d.dsc (dstDims d)
    (List.range (scaleLen d.dsc (dstDims d))).map (fun k =>
      let up := fun (ax x : Nat) => if d.dsc.axis = ax then x * g else x
      let j0 := up 0 (k % m.1)
      let j1 := up 1 (k / m.1 % m.2.1)
      let i2 := up 2 (k / (m.1 * m.2.1))
      let (i0, i1) := if d.trans then (j1, j0) else (j0, j1)
      BitVec.ofNat 8 (((rows.getD i2 []).getD i1 []).getD i0 (0, 0x7C)).2)

/-- What a descriptor without a codec mode writes: bytes by address, its flags and its amax. -/
def moveOut (s : State) (c : CoreId) (d : Desc) : List (Nat × List Byte) × MoveSum :=
  let w := descWindow s d
  let scales := codes8 ((scaleRuns d w).flatMap (fun r => ldBytes s r.1 r.2))
  match Fmt.ofCode d.sfmt, Fmt.ofCode d.dfmt with
  | some sf, some df =>
    let raw := (visitRows s d w).mapIdx (fun i2 l => l.map (rowElems s d w sf scales i2))
    let ds := match d.dsc.smode with
      | 1 => d.dsc.fixed
      | 2 => curScale s d.dsc.hist
      | _ => 0x7C
    let (out, m) : List (List (List Nat)) × MoveSum :=
      if d.sfmt = d.dfmt then (raw.map (fun l => l.map (fun q => q.map (fun e => e.1))), {})
      else
        let z := convertRows (flushOn s c) sf df d.cvt ds {} raw.flatten
        (rowsOf d.n2 d.n1 z.1, z.2)
    let sb := dstScales s d raw scales
    ((destBases c d).flatMap (fun b =>
      (if sb = [] then [] else [(b.2.2, sb)]) ++
      (out.mapIdx (fun i2 l =>
        (if d.trans then turned 0 d.n0 l else l).mapIdx (fun i row =>
          (asAddr ((b.2.1 : Int) + i2 * d.ds2 + i * d.ds1), bytesOf df row)))).flatten), m)
  | _, _ => ([], {})

/-! The lossy codec, 09 R280 to R283. -/

/-- Exponent field of a K16 code, at least 1. -/
def expf1 (c : Nat) : Nat := max (bits c 8 7) 1

/-- q of an element over the unit 2^u (09 R282). -/
def lossyQ (c : Nat) (u : Int) : Nat :=
  match decodeFloat .k16 c with
  | .fin _ n d => if 0 ≤ u then n / (d * 2 ^ u.toNat) else n * 2 ^ (-u).toNat / d
  | _ => 0

/-- One block of 64 K16 codes encoded at m bits of q (09 R281, R282), and whether it held a NaN or infinity, and a NaN. -/
def lossyEncode (m : Nat) (cs : List Nat) : List Byte × Bool × Bool :=
  let len := if m = 6 then 64 else 32
  let spec := cs.any (fun c => decide (bits c 8 7 = 127))
  let nan := cs.any (fun c => decodeFloat .k16 c == .nan)
  if spec then (sliceBytes (natLE 1 0x80) 0 len, true, nan)
  else
    let e := (cs.map expf1).foldl max 1
    let ds := (rowsOf 8 8 cs).map (fun b => min 7 (e - (b.map expf1).foldl max 1))
    let el := cs.mapIdx (fun i c =>
      let q := lossyQ c ((e : Int) - ds.getD (i / 8) 0 - 62 - m)
      bitsLsb (m + 1) (q + (if q = 0 then 0 else b2n (bit c 15) * 2 ^ m)))
    (sliceBytes (natLE 1 e ++ natLE 3 (natOfBits (ds.flatMap (fun x => bitsLsb 3 x))) ++ natLE 1 (if m = 6 then 2 else 4)
      ++ natLE 3 0 ++ bitBytes el.flatten) 0 len, false, false)

/-- One block decoded (09 R283): its codes, its flags, and whether it is invalid. A SPECIAL block's RATE is 0 as R282 writes it. -/
def lossyDecode (m : Nat) (b : List Byte) : List Nat × Flags × Bool :=
  let spec := bit (leAt b 0 1) 7
  let rate := leAt b 4 1
  let bad : Bool := leAt b 5 3 != 0 || (rate != (if m = 6 then 2 else 4) && !(spec && rate == 0))
  if bad ∨ spec then (List.replicate 64 0x7F80, { inv := bad, nanIn := spec }, bad)
  else
    let e : Int := bits (leAt b 0 1) 0 7
    let all := byteBits (b.drop 8)
    ((List.range 64).map (fun i =>
      let v := natOfBits ((all.drop (i * (m + 1))).take (m + 1))
      let q := v % 2 ^ m
      if q = 0 then 0 else (convFloat .k16 .rne false (dyad (bit v m) q (e - bits (leAt b 1 3) (3 * (i / 8)) 3 - 62 - m))).1), {}, false)

/-- What an encoding or decoding descriptor writes, its flags, and how many blocks it handled, held specials, were invalid. -/
def lossyOut (s : State) (c : CoreId) (d : Desc) : List (Nat × List Byte) × Flags × Nat × Nat × Nat :=
  let m := if d.mode = 4 ∨ d.mode = 6 then 6 else 2
  let n := d.n0 * d.n1 * d.n2
  let flush := flushOn s c
  let fl := fun (code : Nat) => if flush && isSubnormalCode .k16 code then (flushCode .k16 code, ({ flushed := true } : Flags)) else (code, {})
  if d.mode < 6 then
    let cs := (codesOf .k16 (ldBytes s d.src (2 * n))).map fl
    let bl := (rowsOf (ceilDiv n 64) 64 (cs.map (fun q => q.1) ++ List.replicate 63 0)).map (lossyEncode m)
    ([(d.dst, bl.flatMap (fun b => b.1))],
     (cs.foldl (fun (f : Flags) q => f.or q.2) {}).or { nanIn := bl.any (fun b => b.2.2) }, bl.length, bl.countP (fun b => b.2.1), 0)
  else
    let len := if m = 6 then 64 else 32
    let bl := (rowsOf (ceilDiv n 64) len (ldBytes s d.src (lossyLen d))).map (lossyDecode m)
    let cs := ((bl.flatMap (fun b => b.1)).take n).map fl
    ([(d.dst, bytesOf .k16 (cs.map (fun q => q.1)))],
     (cs.foldl (fun (f : Flags) q => f.or q.2) {}).or (bl.foldl (fun (f : Flags) b => f.or b.2.1) {}), bl.length, 0, bl.countP (fun b => b.2.2))

/-! Packed moves, 10 R306, R314. -/

/-- The slot of a cluster that holds a table identity. Log 52 (DEDUCED). -/
def slotOfIdent (s : State) (k : ClusterId) (ident : Nat) : Option Nat :=
  (List.range 16).find? (fun m => decide (2 ≤ slotState s k m) && rd s (F.CX_SLOT_W1_IDENT k m) == ident)

/-- Payload bytes of a block that a move keeps: whole 64-byte units of CLEN. -/
def unitLen (clen : Nat) : Nat := ceilDiv (min clen 4096) 64 * 64

/-- The reads of a packed move: headers, and the units that each block occupies. -/
def packedRuns (s : State) (d : Desc) : List (Nat × Nat) :=
  (d.aux, 16 * blockCount d) ::
    (List.range (blockCount d)).map (fun i => (d.src + 4096 * i, unitLen (blockHeadOf (ldBytes s (d.aux + 16 * i) 16)).clen))

/-- The writes of a move that keeps the packed form: each block's header, and the units that it occupies (10 R314). -/
def lcopyOut (s : State) (d : Desc) : List (Nat × List Byte) :=
  (List.range (blockCount d)).flatMap (fun i =>
    let hb := ldBytes s (d.aux + 16 * i) 16
    [(d.dst + 4096 * i, ldBytes s (d.src + 4096 * i) (unitLen (blockHeadOf hb).clen)), (d.aux2 + 16 * i, hb)])

/-- The scale bytes that go with packed data move as they are stored (03 R80; 11 R336). -/
def scaleMoves (s : State) (d : Desc) : List (Nat × List Byte) :=
  if d.dsc.smode < 2 then [] else [(d.dsc.addr, (scaleRuns d (windowOf [])).flatMap (fun r => ldBytes s r.1 r.2))]

/-! Remote descriptors, 13 R397. -/

/-- Consecutive runs joined. -/
def joinRuns : List (Nat × List Byte) → List (Nat × List Byte)
  | [] => []
  | (a, b) :: rest =>
    match joinRuns rest with
    | (a', b') :: more => if a + b.length = a' then (a, b ++ b') :: more else (a, b) :: (a', b') :: more
    | [] => [(a, b)]

/-- Pieces of at most 16,384 bytes; fuel bounds their number. -/
def cutRun : Nat → Nat × List Byte → List (Nat × List Byte)
  | 0, _ => []
  | n + 1, (a, b) => if b = [] then [] else (a, b.take 16384) :: cutRun n (a + 16384, b.drop 16384)

/-- The next TAG of a channel. -/
def channelTag (s : State) (vc : Nat) : Nat := mapGet 0 s.tags vc

/-- A descriptor's TAG is used up. -/
def nextTag (s : State) (vc : Nat) : State := { s with tags := mapSetD 0 s.tags vc ((channelTag s vc + 1) % 65536) }

/-- Writes of a REMOTE descriptor leave as messages with its TAG; the last message of the descriptor carries NPOST, and final tells
whether these writes hold it. -/
def sendPart (s : State) (d : Desc) (tag : Nat) (final : Bool) (writes : List (Nat × List Byte)) : State :=
  let pieces := (joinRuns (writes.filter (fun e => !e.2.isEmpty))).flatMap (fun e => cutRun (e.2.length / 16384 + 1) e)
  (pieces.mapIdx (fun i p => (final && decide (i + 1 = pieces.length), p))).foldl (fun t e =>
    sendMsg t { vc := d.vc, dst := d.dmod, src := moduleId t, tag := tag, last := e.1, hops := 0, tgt := d.ntgt, npost := d.npost,
                addr := e.2.1, data := e.2.2 }) s

/-- A REMOTE descriptor's writes leave as messages with one TAG. -/
def sendRemote (s : State) (d : Desc) (writes : List (Nat × List Byte)) : State :=
  sendPart (nextTag s d.vc) d (channelTag s d.vc) true writes

/-! Taking a descriptor. -/

/-- A descriptor that fails R340: DMA_ERR keeps the first of a step (11 R345). -/
def descFail (s : State) (c : CoreId) (stream : Bool) (e : QEntry) (reason : Nat) : State :=
  let ix := if stream then 0xFFF else e.idx
  let s := if rdb s (F.DMA_ERR_VALID c) then s
    else wrAll s [(F.DMA_ERR_VALID c, 1), (F.DMA_ERR_REASON c, reason), (F.DMA_ERR_INDEX c, ix)]
  programFault s c 0x05 (if stream then 0 else bits e.word 64 4) ix 4

/-- Posts that an MCAST descriptor makes in its slots at retirement (11 R338). -/
def mcastPosts (c : CoreId) (d : Desc) : List Post :=
  if d.mcast ∧ d.npost ≠ 0 then (destBases c d).map (fun b => ⟨b.1, false, bits d.ntgt 0 6, d.npost⟩) else []

/-- A descriptor joins those in flight (11 R341). -/
def addFlight (s : State) (c : CoreId) (f : DxFlight) : State :=
  let x := core s c
  setCore s c { x with dxs := x.dxs ++ [f] }

/-- Writes of a descriptor land. -/
def landAll (s : State) (l : List (Nat × List Byte)) : State := l.foldl (fun t e => stBytes t e.1 e.2) s

/-- Writes of a codec descriptor as MCAST spreads them (11 R338). -/
def spread (c : CoreId) (d : Desc) (writes : List (Nat × List Byte)) : List (Nat × List Byte) :=
  writes.flatMap (fun w => (spreadAddr c d w.1).map (fun a => (a, w.2)))

/-- Writes that a codec descriptor makes block by block land, or leave under the TAG its take gave it (11 R338, R339). -/
def deliverPart (s : State) (c : CoreId) (d : Desc) (tag : Nat) (final : Bool) (writes : List (Nat × List Byte)) : State :=
  if d.remote then sendPart s d tag final writes else landAll s (spread c d writes)

/-- Writes that a codec descriptor makes at once land or leave. -/
def deliverAll (s : State) (c : CoreId) (d : Desc) (writes : List (Nat × List Byte)) : State :=
  if d.remote then sendRemote s d writes else landAll s (spread c d writes)

/-- The TAG of a descriptor in flight. -/
def flightTag (x : CoreSt) (seq : Nat) : Nat :=
  match x.dxs.find? (fun g => g.entry.seq == seq) with
  | some g => g.tag
  | none => 0

/-- A descriptor that writes block by block joins those in flight; a REMOTE one takes its TAG (13 R397). -/
def addBlocks (s : State) (c : CoreId) (d : Desc) (f : DxFlight) : State :=
  if d.remote then addFlight (nextTag s d.vc) c { f with done := false, tag := channelTag s d.vc }
  else addFlight s c { f with done := false }

/-- Does a descriptor's destination reach a protected region of this module (10 R306)? Log 54 (DEDUCED). -/
def destProtected (s : State) (c : CoreId) (d : Desc) : Bool :=
  !d.remote && (dstRuns c d).any (fun r => protectedRun s r.1 r.2)

/-- A descriptor of mode NONE is carried out: its bytes land or leave, its flags and amax count (11 R335 to R339). -/
def runMove (s : State) (c : CoreId) (d : Desc) : State :=
  let (w, m) := moveOut s c d
  let s := if d.remote then sendRemote s d w else landAll s w
  let s := coreFlags s c m.sum
  if d.dsc.amax ∧ d.sfmt ≠ d.dfmt then mergeAmax s { m.amax with hist := d.dsc.hist } else s

/-- A lossy descriptor is carried out, its blocks counted (09 R282 to R286). -/
def runLossy (s : State) (c : CoreId) (d : Desc) : State :=
  let (w, fl, n, spec, bad) := lossyOut s c d
  let s := deliverAll s c d w
  let s := coreFlags s c { flags := fl }
  let k := c.cluster
  if d.mode < 6 then bump (bump s (F.FM_CNT_COUNT k 0) n) (F.FM_CNT_COUNT k 2) spec
  else bump (bump s (F.FM_CNT_COUNT k 1) n) (F.FM_CNT_COUNT k 3) bad

/-- The reads that a descriptor makes when it is taken: the blocks of one that goes through the expander are read one by one. -/
def takeRuns (s : State) (c : CoreId) (d : Desc) : List (Nat × Nat) :=
  let w := descWindow s d
  match d.mode with
  | 2 => scaleRuns d w
  | 3 => (if destProtected s c d then [] else packedRuns s d) ++ scaleRuns d w
  | _ => srcRuns s d w

/-- The slot of a codec mode that names a table must be usable (10 R310). -/
def tableReason (s : State) (c : CoreId) (d : Desc) : Option Nat :=
  if d.mode = 1 ∨ d.mode = 2 then slotReason s c.cluster d.tslot d.sfmt false else none

/-- A descriptor joins those in flight whose blocks come one by one; its scale bytes go first (03 R81). -/
def startBlocks (s : State) (c : CoreId) (d : Desc) (f : DxFlight) : State :=
  let s := addBlocks s c d f
  deliverPart s c d (flightTag (core s c) f.entry.seq) false (scaleMoves s d)

/-- A request whose destination reaches a protected region counts (10 R306). -/
def countProt (s : State) (c : CoreId) (d : Desc) : State := if destProtected s c d then bump s (F.CX_CNT_COUNT c 7) 1 else s

/-- A job of the expander for a descriptor that has been taken. -/
def addExpand (s : State) (c : CoreId) (d : Desc) (f : DxFlight) (copy : Bool) : State :=
  let x := core s c
  setCore s c { x with exps := x.exps ++
    [{ entry := f.entry, stream := f.stream, desc := f.desc, taken := true, begun := 0, count := blockCount d, drained := 0, tries := 0,
       copy := copy }] }

/-- A descriptor is taken and carried out as far as its take goes; f is its flight. An LPACK's bytes enter the packer, an LEXPAND's
job starts or is known as taken, and so does that of an LCOPY into a protected region; everything else is done (10 R306 to R308). -/
def runDesc (s : State) (c : CoreId) (d : Desc) (f : DxFlight) : State :=
  match d.mode with
  | 0 => runMove (addFlight s c f) c d
  | 1 =>
    let prot := destProtected s c d
    let s := startBlocks (countProt s c d) c d f
    let x := core s c
    setCore s c { x with packs := x.packs ++
      [{ entry := f.entry, dma := true, tslot := d.tslot, fmt := d.sfmt, pay := asAddr ((d.dst : Int) - 4096 * d.first),
         hdr := asAddr ((d.aux2 : Int) - 16 * d.first), block := d.first, left := 0, buf := ldBytes s d.src (plainLen d), fed := plainLen d,
         prot := prot, tries := 0, done := false }] }
  | 2 =>
    let s := startBlocks s c d f
    let x := core s c
    if x.exps.any (fun j => j.entry.seq == f.entry.seq) then
      setCore s c { x with exps := x.exps.map (fun j => if j.entry.seq = f.entry.seq then { j with taken := true } else j) }
    else addExpand s c d f false
  | 3 =>
    if destProtected s c d then addExpand (startBlocks (countProt s c d) c d f) c d f true
    else deliverAll (addFlight s c f) c d (scaleMoves s d ++ lcopyOut s d)
  | _ => runLossy (addFlight s c f) c d

/-- The reads of a taken descriptor that give its checks their operands, the index list or the window record, meet a poisoned line: a
data fault by 11 R342. -/
def auxFault (s : State) (c : CoreId) (d : Desc) (err : ReadErr) : Option State :=
  if (headReason s c d).isSome then none
  else match readRuns s (auxRuns d) err with
    | some (false, t) => some t
    | _ => none

/-- Take a descriptor: checks, reads, effect. pop takes it from its queue. A program error of the codec stops the core once every block
before has been written (10 R310). -/
def takeDesc (s : State) (c : CoreId) (d : Desc) (f : DxFlight) (err : ReadErr) (pop : State → State) : State :=
  match auxFault s c d err with
  | some t => t
  | none =>
    match descReason s c d with
    | some r => descFail (pop s) c f.stream f.entry r
    | none =>
      match tableReason s c d with
      | some r =>
        if (core s c).dxs.all (fun g => g.done) then
          codecFail (pop s) c r (bits f.entry.word 64 4) (if f.stream then 0xFFF else f.entry.idx) 4
        else s
      | none =>
        match readRuns s (takeRuns s c d) err with
        | none => s
        | some (false, t) => t
        | some (true, t) =>
          if mustWait s c d.mode (srcRuns s d (descWindow s d)) (if d.remote then [] else dstRuns c d) then s else runDesc (pop t) c d f

/-! The two queues, 08 R241, 11 R341. -/

/-- The head of the stream queue, its pacer satisfied. Log 55 (DEDUCED). -/
def streamHead (s : State) (c : CoreId) : Option StreamEntry :=
  match (core s c).sq with
  | [] => none
  | e :: _ =>
    if running s c && (match e.pacer with | some p => decide (1 ≤ rd s (F.CO_PA_COUNT c p)) | none => true) then some e else none

/-- Room for one more descriptor in flight. -/
def dmaRoom (s : State) (c : CoreId) : Bool := decide ((core s c).dxs.length < 8)

/-- The DX at the head of the instruction queue, when the DMA engine takes that queue next and the descriptor is one of those named. -/
def dxHead (s : State) (c : CoreId) (ok : Desc → Bool) : Option QEntry :=
  match readyHead s c 4 (fun w => opc w == 1) with
  | none => none
  | some e => if ok (dxDesc e) && dmaRoom s c && ((core s c).lastStream || (streamHead s c).isNone) then some e else none

/-- Take the DX at the head of the queue when its descriptor is of the kind named. -/
def takeDx (c : CoreId) (err : ReadErr) (ok : Desc → Bool) (s : State) : State :=
  match dxHead s c ok with
  | none => s
  | some e =>
    let d := dxDesc e
    let f : DxFlight := { entry := e, stream := false, desc := e.desc, done := true, epoch := 0, kind := 4, page := 0, posts := mcastPosts c d }
    takeDesc s c d f err (fun t =>
      let t := takeHead t c 4 e
      setCore t c { core t c with lastStream := false })

/-- DX_MOVE (11 R335, R336): a descriptor without a codec mode that is neither a GATHER nor a WINDOW. -/
def execDxMove (c : CoreId) (err : ReadErr) (s : State) : Host.Outcome State Fault Refusal :=
  .next (takeDx c err (fun d => d.mode == 0 && d.kind != 2 && d.kind != 3) s)

/-- DX_GATHER (11 R335). -/
def execDxGather (c : CoreId) (err : ReadErr) (s : State) : Host.Outcome State Fault Refusal :=
  .next (takeDx c err (fun d => d.mode == 0 && d.kind == 2) s)

/-- DX_WINDOW (11 R335; 09 R262, R264). -/
def execDxWindow (c : CoreId) (err : ReadErr) (s : State) : Host.Outcome State Fault Refusal :=
  .next (takeDx c err (fun d => d.mode == 0 && d.kind == 3) s)

/-- LPACK (11 R337; 10 R303). -/
def execLpack (c : CoreId) (err : ReadErr) (s : State) : Host.Outcome State Fault Refusal :=
  .next (takeDx c err (fun d => d.mode == 1) s)

/-- LEXPAND (11 R337; 10 R308): the drain of its blocks may start. -/
def execLexpand (c : CoreId) (err : ReadErr) (s : State) : Host.Outcome State Fault Refusal :=
  .next (takeDx c err (fun d => d.mode == 2) s)

/-- LCOPY (11 R337; 10 R306, R314). -/
def execLcopy (c : CoreId) (err : ReadErr) (s : State) : Host.Outcome State Fault Refusal :=
  .next (takeDx c err (fun d => d.mode == 3) s)

/-- FM_ENC (09 R282). -/
def execFmEnc (c : CoreId) (err : ReadErr) (s : State) : Host.Outcome State Fault Refusal :=
  .next (takeDx c err (fun d => d.mode == 4 || d.mode == 5) s)

/-- FM_DEC (09 R283). -/
def execFmDec (c : CoreId) (err : ReadErr) (s : State) : Host.Outcome State Fault Refusal :=
  .next (takeDx c err (fun d => d.mode == 6 || d.mode == 7) s)

/-- May a routine's descriptor read or write a run: populated, in no firmware area, in no other cluster's stores (11 R340)? -/
def streamRunOk (k : ClusterId) (a n : Nat) : Bool :=
  populatedRun a n && !reachesFirmware a n && (match regionOf a with
    | .clusterStore j _ => j == k
    | .coreStore x _ => x.cluster == k
    | _ => true)

/-- Take a descriptor that a cache routine placed: what it moves, byte for byte (08 R240, R243, R246, R254). -/
def takeRuns0 (s : State) (c : CoreId) (e : StreamEntry) (f : DxFlight) (err : ReadErr) (pop : State → State) : State :=
  if !e.runs.all (fun r => streamRunOk c.cluster r.1 r.2.2 && streamRunOk c.cluster r.2.1 r.2.2) then descFail (pop s) c true f.entry 1
  else
    if mustWait s c 0 (e.runs.map (fun r => (r.1, r.2.2))) (e.runs.map (fun r => (r.2.1, r.2.2))) then s
    else match readRuns s (e.runs.map (fun r => (r.1, r.2.2))) err with
    | none => s
    | some (false, t) => t
    | some (true, t) =>
      let data := e.runs.map (fun r => (r.2.1, ldBytes t r.1 r.2.2))
      landAll (addFlight (pop t) c f) data

/-- STREAM_DESCRIPTOR_TAKE (08 R241, 11 R341): the head of the stream queue, alternately with the instruction queue; its pacer is
taken. -/
def execStreamDescriptorTake (c : CoreId) (err : ReadErr) (s : State) : Host.Outcome State Fault Refusal :=
  .next (match streamHead s c with
    | none => s
    | some e =>
      if !dmaRoom s c ∨ ((core s c).lastStream ∧ (dxHead s c (fun _ => true)).isSome) then s
      else
        let d := descOf e.desc (0, 0)
        let own := match coreSlot s c with
          | some x => if e.post then [(⟨x, false, e.baton, 1⟩ : Post)] else []
          | none => []
        let f : DxFlight := { entry := { seq := (core s c).seq, idx := 0xFFF, desc := e.desc }, stream := true, desc := e.desc, done := true,
                              epoch := e.epoch, kind := e.kind, page := e.page, posts := (if e.kind = 4 then mcastPosts c d else []) ++ own }
        (if e.kind = 4 then takeDesc s c d f err else takeRuns0 s c e f err) (fun t =>
          let t := match e.pacer with
            | some p => wr t (F.CO_PA_COUNT c p) (rd t (F.CO_PA_COUNT c p) - 1)
            | none => t
          let x := core t c
          setCore t c { x with sq := x.sq.drop 1, lastStream := true, seq := x.seq + 1 }))

/-! The packer. -/

/-- The first job of the packer that has a whole block, or its last part, to code. -/
def packReady (x : CoreSt) : Option (Nat × PackJob) :=
  (x.packs.mapIdx (fun i j => (i, j))).find? (fun e =>
    !e.2.done && decide (4096 ≤ e.2.buf.length ∨ (e.2.left = 0 ∧ e.2.buf ≠ [])))

/-- A block written: payload and header of the job's next block. A descriptor's go where it sends them; last tells of its last. -/
def putBlock (s : State) (c : CoreId) (j : PackJob) (b : List Byte × List Byte × Bool) (last : Bool) : State :=
  let writes := [((j.pay + 4096 * j.block) % 2 ^ 48, b.1), ((j.hdr + 16 * j.block) % 2 ^ 48, b.2.1)]
  if j.dma then deliverPart s c (dxDesc j.entry) (flightTag (core s c) j.entry.seq) last writes else landAll s writes

/-- PACK_BLOCK (10 R303 to R307): the next block of the packer's first job is coded, checked and written. misses counts the check
mismatches it met; a third is a hardware fault of the core (18 R515, R516). -/
def execPackBlock (c : CoreId) (misses : Nat) (s : State) : Host.Outcome State Fault Refusal :=
  .next (match running s c, packReady (core s c) with
    | true, some (i, j) =>
      if 3 ≤ misses then
        let s := bump s (F.CX_CNT_COUNT c 8) 2
        retireCore (stepFault (wr s (F.CO_SEQ_STAT_STATE c) 3) (coreUnit c) 0x02) c 0x07
      else
        let s := bump s (F.CX_CNT_COUNT c 8) misses
        let f := (Fmt.ofCode j.fmt).getD .k8m
        let k := c.cluster
        let b := packBlock f (slotLens s k j.tslot) (rd s (F.CX_SLOT_W1_IDENT k j.tslot)) (rd s (F.CX_SLOT_W2_TCHK k j.tslot))
          j.block j.prot (j.buf.take 4096)
        if !j.dma ∧ !(inOneRange s (j.pay + 4096 * j.block) b.1.length && inOneRange s (j.hdr + 16 * j.block) 16
            && populatedRun (j.pay + 4096 * j.block) b.1.length) then
          programFault s c 0x05 (bits j.entry.word 76 4) j.entry.idx 5
        else
          let j' := { j with buf := j.buf.drop 4096, block := j.block + 1 }
          let last : Bool := j'.buf.isEmpty && j'.left == 0
          let s := putBlock s c j b last
          let s := bump s (F.CX_CNT_COUNT c (if b.2.2 then 3 else 2)) 1
          let x := core s c
          let s := setCore s c { x with packs := if last then dropAt x.packs i else setAt x.packs i j' }
          if !last then s
          else if j.dma then
            let x := core s c
            setCore s c { x with dxs := x.dxs.map (fun d => if d.entry.seq = j.entry.seq then { d with done := true } else d) }
          else retired s c j.entry
    | _, _ => s)

/-! Expansion, 10 R308 to R312. -/

/-- The descriptor of a job of the expander. -/
def jobDesc (j : ExpJob) : Desc := descOf j.desc (if j.stream then (0, 0) else dxAdd j.entry)

/-- The table slot of a block: the descriptor's, or, for a move that keeps the packed form, the one that holds its identity. -/
def blockSlot (s : State) (c : CoreId) (d : Desc) (copy : Bool) (h : BlockHead) : Option Nat :=
  if copy then slotOfIdent s c.cluster h.ident else some d.tslot

/-- The reason of R310 for which the expander refuses a block. -/
def expandReason (s : State) (c : CoreId) (d : Desc) (copy : Bool) (h : BlockHead) (ulen block : Nat) : Option Nat :=
  match tableReason s c d with
  | some r => some r
  | none =>
    match blockReason s c.cluster (blockSlot s c d copy h) h ulen block with
    | some r => some r
    | none =>
      match blockSlot s c d copy h with
      | some n => if copy ∧ rd s (F.CX_SLOT_W2_FMT c.cluster n) ≠ d.sfmt then some 0x02 else none
      | none => none

/-- A block enters the expansion queue; a move into a protected region stores it escaped, with a header of its own (10 R306). -/
def enqueueBlock (s : State) (c : CoreId) (i : Nat) (j : ExpJob) (e : ExpEntry) : State :=
  let x := core s c
  setCore s c { x with exps := setAt x.exps i { j with begun := j.begun + 1, tries := 0, pin := none }, expq := x.expq ++ [e] }

/-- An attempt at a block fails (10 R309): the first is repeated from the source, and the block stays in the expander's input; a second is a
data fault of the source. -/
def expandMiss (s : State) (c : CoreId) (i : Nat) (j : ExpJob) (src : Nat) (pin : Option Nat) : State :=
  if j.tries = 0 then
    let s := bump s (F.CX_CNT_COUNT c 6) 1
    let x := core s c
    setCore s c { x with exps := setAt x.exps i { j with tries := 1, pin := pin } }
  else if stepInput s src then fatalFault s (coreUnit c) 0x0E
  else stepFault s (coreUnit c) 0x03

/-- The expander starts a block: read, checked and put in the queue; it fails where a check of R309 or R310 fails. A program error
stops the core only when the descriptor is taken and every block before has drained. An escaped block of a move that keeps the packed form
passes as it is (R306, R314). -/
def startBlock (s : State) (c : CoreId) (i : Nat) (j : ExpJob) (misses : Nat) (err : ReadErr) : State :=
  let d := jobDesc j
  let at_ := d.aux + 16 * j.begun
  let src := d.src + 4096 * j.begun
  let dst := d.dst + 4096 * j.begun
  let hdr := d.aux2 + 16 * j.begun
  let h := blockHeadOf (ldBytes s at_ 16)
  let ulen := min 4096 (plainLen d - 4096 * j.begun)
  match readRuns s [(at_, 16), (src, unitLen h.clen)] err with
  | none => s
  | some (false, t) => t
  | some (true, t) =>
    let pay := ldBytes t src (unitLen h.clen)
    if j.copy && h.esc then
      enqueueBlock t c i j { job := j.entry.seq, dst := dst, data := pay, pin := none, heads := [(hdr, ldBytes t at_ 16)] }
    else
      let slot := blockSlot t c d j.copy h
      match expandReason t c d j.copy h ulen (d.first + j.begun) with
      | some r => if j.taken && (core t c).expq.isEmpty then codecFail t c r (bits j.entry.word 64 4) j.entry.idx 4 else s
      | none =>
        let f := (Fmt.ofCode d.sfmt).getD .k8m
        let pin := if h.esc then none else slot
        match if misses = 0 then expandBlock t c.cluster slot f h pay else none with
        | none => expandMiss t c i j src pin
        | some plain =>
          let t := bump (bump t (F.CX_CNT_COUNT c 4) 1) (F.CX_CNT_COUNT c 5) h.clen
          let b := packBlock f [] 0 0 h.block true plain
          enqueueBlock t c i j { job := j.entry.seq, dst := dst, data := if j.copy then b.1 else plain, pin := pin,
                                 heads := if j.copy then [(hdr, b.2.1)] else [] }

/-- EXPAND_BLOCK (10 R308, R309): the first descriptor with a block to start; a queue entry must be free. One attempt at the block; misses is
not 0 where it met an upset that its checks find. -/
def execExpandBlock (c : CoreId) (misses : Nat) (err : ReadErr) (s : State) : Host.Outcome State Fault Refusal :=
  .next (match running s c, ((core s c).exps.mapIdx (fun i j => (i, j))).find? (fun e => decide (e.2.begun < e.2.count)) with
    | true, some (i, j) => if (core s c).expq.length < 32 then startBlock s c i j misses err else s
    | _, _ => s)

/-- EXPAND_DRAIN (10 R308): the head of the expansion queue is written, once its descriptor is taken; with its last block the
descriptor's data have landed. -/
def execExpandDrain (c : CoreId) (s : State) : Host.Outcome State Fault Refusal :=
  .next (match running s c, (core s c).expq with
    | true, e :: rest =>
      match (core s c).exps.find? (fun j => j.entry.seq == e.job) with
      | none => s
      | some j =>
        if !j.taken then s
        else
          let last : Bool := j.drained + 1 == j.count
          let s := deliverPart s c (jobDesc j) (flightTag (core s c) e.job) last ((e.dst, e.data) :: e.heads)
          let x := core s c
          setCore s c { x with
            expq := rest
            exps := if last then x.exps.filter (fun q => q.entry.seq != e.job)
              else x.exps.map (fun q => if q.entry.seq = e.job then { q with drained := q.drained + 1 } else q)
            dxs := if last then x.dxs.map (fun d => if d.entry.seq = e.job then { d with done := true } else d) else x.dxs }
    | _, _ => s)

/-- The expanding descriptors of the instruction queue, in order. -/
def queuedExpands (x : CoreSt) : List QEntry := x.dq.filter (fun e => opc e.word == 1 && (dxDesc e).mode == 2)

/-- EARLY_READ (10 R312): expansion of a marked descriptor begins before its take, when every earlier expanding descriptor of the
queue has begun, the nearest earlier unmarked one has been taken, and a queue entry is free. -/
def execEarlyRead (c : CoreId) (s : State) : Host.Outcome State Fault Refusal :=
  .next (
    let x := core s c
    let has := fun (e : QEntry) => x.exps.any (fun j => j.entry.seq == e.seq)
    match (queuedExpands x).find? (fun e => !has e) with
    | none => s
    | some e =>
      let before := (queuedExpands x).filter (fun q => decide (q.seq < e.seq))
      if running s c && (dxDesc e).early && before.all (fun q => (dxDesc q).early) && decide (x.expq.length < 32)
          && (descReason s c (dxDesc e)).isNone then
        setCore s c { x with exps := x.exps ++
          [{ entry := e, stream := false, desc := e.desc, taken := false, begun := 0,
             count := blockCount (dxDesc e), drained := 0, tries := 0 }] }
      else s)

/-! Retirement. -/

/-- The oldest epoch with an unretired descriptor of a cluster, or the last epoch read there (08 R256). -/
def showLow (s : State) (k : ClusterId) : State :=
  let es := (List.finRange 9).flatMap (fun j =>
    let x := core s ⟨k.die, k.cl, j⟩
    (x.sq.filter (fun e => e.kind != 4)).map (fun e => e.epoch) ++ (x.dxs.filter (fun d => d.kind != 4)).map (fun d => d.epoch))
  wr s (F.RC_LOW_EPOCH k) (match es with
    | [] => (cluster s k).lastEpoch
    | e :: rest => rest.foldl (fun m x => if serialDiff 32 x m < 0 then x else m) e)

/-- A routine's descriptor is no longer outstanding (08 R244); a page copy leaves its event (08 R254). -/
def streamRetired (s : State) (c : CoreId) (f : DxFlight) : State :=
  if f.kind = 4 then s
  else
    let k := c.cluster
    let o := F.RC_OUT_COUNT k (f.epoch % 16)
    let s := showLow (wr s o (rd s o - 1)) k
    if f.kind = 1 ∨ f.kind = 2 then { s with pageDone := s.pageDone ++ [(f.kind, f.page)] } else s

/-- DESCRIPTOR_RETIRE (11 R341): the first descriptor in flight of a queue, once its last write has landed, retires with its posts. -/
def execDescriptorRetire (c : CoreId) (stream : Bool) (s : State) : Host.Outcome State Fault Refusal :=
  .next (match running s c, (core s c).dxs.find? (fun d => d.stream == stream) with
    | true, some f =>
      if !f.done then s
      else
        let x := core s c
        let s := setCore s c { x with dxs := x.dxs.erase f }
        let s := { s with posts := s.posts ++ f.posts }
        if stream then streamRetired s c f else retired s c f.entry
    | _, _ => s)

end Sys2Proof.Machine
end

