-- ==== Sys2Proof/Machine/Routine.lean ====
section
/-!
DEFINITION. Firmware routines of a cluster control core: the request that is served and its argument block (04 R122, 08 R238).
-/

namespace Sys2Proof.Machine

open Sys2Proof

/-- The routine record of a request: KIND and ENTRY (04 R126). -/
def routineOf (s : State) (k : ClusterId) (n : Nat) : Option (Nat × Nat) :=
  match s.prog with
  | some p => (p.routines.find? (fun e => e.1 == k.key && e.2.1 == n)).map (fun e => (e.2.2.1, e.2.2.2))
  | none => none

/-- The request at the head of a cluster's queue, where it names the firmware routine with this OP and has not run; its core
runs, and no replay is under way. -/
def routineHead (s : State) (k : ClusterId) (op : Nat) : Option CcReq :=
  match (cluster s k).ccq with
  | [] => none
  | r :: _ =>
    if !r.done && routineOf s k r.routine == some (1, op) && running s r.core && rd s F.ID_REPLAY_PHASE == 0 then some r else none

/-- The argument block of a request (08 R238); none where it does not lie in the requesting cluster's store. -/
def argBlock (s : State) (k : ClusterId) (r : CcReq) : Option (List Byte) :=
  match regionOf r.arg with
  | .clusterStore j off => if j = k ∧ off + 64 ≤ clusterStoreSize then some (ldBytes s r.arg 64) else none
  | _ => none

/-- A routine has run: STATUS 0 and RESULT in its argument block; the request then completes (CALL_CC_COMPLETE). -/
def routineDone (s : State) (k : ClusterId) (r : CcReq) (result : Nat) : State :=
  let s := stN (stN s (r.arg + 1) 1 0) (r.arg + 0x24) 4 result
  let x := cluster s k
  setCluster s k { x with ccq := match x.ccq with
    | [] => []
    | q :: l => { q with done := true } :: l }

/-- A routine that cannot complete stops its core with ADDR_RANGE (08 R239, 14 R415). -/
def routineFail (s : State) (r : CcReq) : State := programFault s r.core 0x05 (bits r.entry.word 70 4) r.entry.idx 0

end Sys2Proof.Machine
end

