-- ==== Sys2Proof/Machine/Tables.lean ====
section
/-!
DEFINITION. The update tables: records, curves, what SET_TABLE refuses, and which module and die owns a block (12 R347 to R355).
-/

namespace Sys2Proof.Machine

open Sys2Proof

/-! Records, 12 R348 to R351. -/

/-- A tensor record (12 R351). -/
structure TensorRec where
  id    : Nat
  group : Nat
  kind  : Nat
  unit  : Nat
  rows  : Nat
  cols  : Nat
  wc    : Nat
  ws    : Nat
  st    : Nat
  fmap  : Nat
  wire  : Nat
  hist  : Nat
  wh    : Nat
deriving DecidableEq, Repr

/-- The tensor record that 64 bytes spell. -/
def tensorOf (b : List Byte) : TensorRec :=
  { id := leAt b 0 4, group := leAt b 4 2, kind := leAt b 6 1, unit := leAt b 7 1, rows := leAt b 8 4, cols := leAt b 0xC 4,
    wc := leAt b 0x10 8, ws := leAt b 0x18 8, st := leAt b 0x20 8, fmap := leAt b 0x28 8, wire := leAt b 0x30 8,
    hist := leAt b 0x38 2, wh := leAt b 0x3A 1 }

/-- A group record (12 R349): K32 codes and control bytes. -/
structure GroupRec where
  eta    : Nat
  lambda : Nat
  b1     : Nat
  b2     : Nat
  eps    : Nat
  clip   : Nat
  etaC   : Nat
  decayC : Nat
  flags  : Nat
  mcvt   : Nat
  wcvt   : Nat
deriving DecidableEq, Repr

/-- The group record that 64 bytes spell. -/
def groupOf (b : List Byte) : GroupRec :=
  { eta := leAt b 0 4, lambda := leAt b 4 4, b1 := leAt b 8 4, b2 := leAt b 0xC 4, eps := leAt b 0x10 4, clip := leAt b 0x14 4,
    etaC := leAt b 0x18 1, decayC := leAt b 0x19 1, flags := leAt b 0x1A 1, mcvt := leAt b 0x1B 1, wcvt := leAt b 0x1C 1 }

/-- A curve segment (12 R350). -/
structure CurveSeg where
  start : Nat
  len   : Nat
  kind  : Nat
  v0    : Nat
  v1    : Nat
deriving DecidableEq, Repr

/-- The curve segment that 32 bytes spell. -/
def segOf (b : List Byte) : CurveSeg := ⟨leAt b 0 4, leAt b 4 4, leAt b 8 1, leAt b 0xC 4, leAt b 0x10 4⟩

/-- The job record's fields (12 R348). -/
def UpdTables.units (u : UpdTables) : Nat := leAt u.job 0x16 1
/-- GROUPS. -/
def UpdTables.groups (u : UpdTables) : Nat := leAt u.job 0x12 2
/-- POLICY. -/
def UpdTables.policy (u : UpdTables) : Nat := leAt u.job 0x10 1
/-- MODE REPLICATED. -/
def UpdTables.replicated (u : UpdTables) : Bool := leAt u.job 0x11 1 == 1
/-- PAIR_A, PAIR_B, PAIR_LEN. -/
def UpdTables.views (u : UpdTables) : Nat × Nat × Nat := (leAt u.job 0x18 8, leAt u.job 0x20 8, leAt u.job 0x28 8)
/-- ST_GEN. -/
def UpdTables.stGen (u : UpdTables) : Nat := leAt u.job 0x30 8
/-- CLIPNORM. -/
def UpdTables.clipnorm (u : UpdTables) : Nat := leAt u.job 0x0C 4
/-- GMUL. -/
def UpdTables.gmul (u : UpdTables) : Nat := leAt u.job 8 4
/-- SEED. -/
def UpdTables.seed (u : UpdTables) : Nat := leAt u.job 0 8
/-- The tensor records in table order. -/
def UpdTables.tensors (u : UpdTables) : List TensorRec :=
  (rowsOf (leAt u.job 0x14 2) 64 u.tensor).map tensorOf
/-- A group record by number. -/
def UpdTables.groupAt (u : UpdTables) (g : Nat) : GroupRec := groupOf (sliceBytes u.group (64 * g) 64)
/-- The segments of a curve. -/
def UpdTables.curveAt (u : UpdTables) (c : Nat) : List CurveSeg :=
  (rowsOf 64 32 (sliceBytes u.curve (2048 * c) 2048)).map segOf

/-- Is CLIPNORM finite, so that the norm pass runs (12 R348, R360)? -/
def UpdTables.normed (u : UpdTables) : Bool := (decodeFloat .k32 u.clipnorm).isFin

/-! Blocks, 12 R353. -/

/-- Elements of a wire block. -/
def blockLen : Nat := 4096

/-- Blocks of a tensor. -/
def TensorRec.blocks (t : TensorRec) : Nat := if t.kind = 0 then t.rows / 128 * (t.cols / 32) else ceilDiv t.cols blockLen

/-- Elements of one block of a tensor: the last block of a VECTOR may be short. -/
def TensorRec.blockElems (t : TensorRec) (b : Nat) : Nat := if t.kind = 0 then blockLen else min blockLen (t.cols - blockLen * b)

/-- Row, column and index in the whole tensor of element e of block b. -/
def TensorRec.place (t : TensorRec) (b e : Nat) : Nat × Nat × Nat :=
  if t.kind = 0 then
    let row := 128 * (b / (t.cols / 32)) + e / 32
    let col := 32 * (b % (t.cols / 32)) + e % 32
    (row, col, row * t.cols + col)
  else (0, 0, blockLen * b + e)

/-- The tensors of a unit with the unit block each begins at. -/
def unitTensors (u : UpdTables) (n : Nat) : List (TensorRec × Nat) :=
  ((u.tensors.filter (fun t => t.unit == n)).foldl (fun (acc : List (TensorRec × Nat) × Nat) t =>
    (acc.1 ++ [(t, acc.2)], acc.2 + t.blocks)) ([], 0)).1

/-- Blocks of a unit. -/
def unitBlocks (u : UpdTables) (n : Nat) : Nat := ((unitTensors u n).map (fun e => e.1.blocks)).foldl (· + ·) 0

/-- The tensor that a unit's block belongs to, and its block in the tensor. -/
def blockAt (u : UpdTables) (n b : Nat) : Option (TensorRec × Nat) :=
  ((unitTensors u n).find? (fun e => decide (e.2 ≤ b ∧ b < e.2 + e.1.blocks))).map (fun e => (e.1, b - e.2))

/-! Ownership, 12 R354. -/

/-- Blocks lo to hi − 1 of a unit of n blocks belong to rank ρ of D (SHARDED). -/
def segment (d rho n : Nat) : Nat × Nat := (rho * n / d, (rho + 1) * n / d)

/-- The quarter of a range of blocks that UD_m takes. -/
def quarter (r : Nat × Nat) (m : Nat) : Nat × Nat :=
  (r.1 + m * (r.2 - r.1) / 4, r.1 + (m + 1) * (r.2 - r.1) / 4)

/-- Members of the group and this module's rank on a channel, at least one member. -/
def groupShape (s : State) (v : Nat) : Nat × Nat := (max 1 (rd s (F.FAB_BIND_W0_MEMBERS v)), rd s (F.FAB_BIND_W0_RANK v))

/-- Members and rank that ownership is formed by on a channel: one member under REPLICATED (12 R354). -/
def ownShape (s : State) (u : UpdTables) (v : Nat) : Nat × Nat := if u.replicated then (1, 0) else groupShape s v

/-- The blocks of a unit that this module owns. -/
def ownBlocks (s : State) (u : UpdTables) (v n : Nat) : Nat × Nat :=
  let (d, rho) := ownShape s u v
  segment d rho (unitBlocks u n)

/-- How many blocks of a tensor (from unit block `first` on) lie in a range of unit blocks, and the first of them. -/
def tensorShare (t : TensorRec) (first : Nat) (r : Nat × Nat) : Nat × Nat :=
  let lo := max first r.1
  let hi := min (first + t.blocks) r.2
  (hi - lo, lo - first)

/-- Bytes of one generation of a tensor's state in a die that owns n of its blocks (12 R355). -/
def stateLen (t : TensorRec) (n : Nat) : Nat :=
  if n = 0 then 0 else if t.kind = 0 then 24576 * n + 4 * (t.rows + t.cols) else 40960 * n

/-- First address of a slow-tier window. -/
def slowBase (m : Nat) : Nat := 0x100000000000 + m * 0x10000000000

/-- First address of a tensor's state in a die and generation (12 R355). -/
def stateBase (u : UpdTables) (t : TensorRec) (m gen : Nat) : Nat := slowBase m + t.st + (if gen = 0 then 0 else u.stGen)

/-! What SET_TABLE refuses, 12 R352. -/

/-- A K32 code that is finite and 0 or more; −0 counts as 0. -/
def k32NonNeg (c : Nat) : Bool :=
  match decodeFloat .k32 c with
  | .fin neg n _ => !neg || n == 0
  | _ => false

/-- A K32 code below 1. -/
def k32BelowOne (c : Nat) : Bool := xless (decodeFloat .k32 c) (.fin false 1 1)

/-- The K32 code +∞. -/
def k32PosInf (c : Nat) : Bool := decodeFloat .k32 c == .inf false

/-- A K32 code that is greater than 0 and finite. -/
def k32Positive (c : Nat) : Bool :=
  match decodeFloat .k32 c with
  | .fin neg n _ => !neg && n != 0
  | _ => false

/-- Bytes from one place up to another are all 0. -/
def zeroIn (b : List Byte) (lo hi : Nat) : Bool := leAt b lo (hi - lo) == 0

/-- A run lies in the HBM of one stack. -/
def hbmRange (a n : Nat) : Bool :=
  match regionOf a with
  | .hbm _ _ => populatedRun a n
  | _ => false

/-- Two ranges meet. -/
def rangesMeet (a n b m : Nat) : Bool := decide (a < b + m ∧ b < a + n)

/-- A run of HBM addresses (11 R319); the windows of the stacks need not all be populated in it (12 R352, R369). -/
def hbmWindow (a n : Nat) : Bool := decide (a + n ≤ 0x10000000000)

/-- The job record is good. -/
def jobOk (s : State) (u : UpdTables) : Bool :=
  let (pa, pb, pl) := u.views
  zeroIn u.job 0x17 0x18 && zeroIn u.job 0x38 0x80 && decide (u.policy ≤ 2) && decide (leAt u.job 0x11 1 ≤ 1)
    && decide (1 ≤ u.groups ∧ u.groups ≤ 4096) && decide (1 ≤ leAt u.job 0x14 2 ∧ leAt u.job 0x14 2 ≤ 4096) && u.units != 0
    && (k32NonNeg u.clipnorm || k32PosInf u.clipnorm) && !(u.policy == 1 && u.normed)
    && pa % 2 ^ 21 == 0 && pb % 2 ^ 21 == 0 && pl % 2 ^ 21 == 0 && pl != 0
    && hbmWindow pa pl && hbmWindow pb pl && !rangesMeet pa pl pb pl && !protectedRun s pa pl && !protectedRun s pb pl

/-- A group record is good. -/
def groupOk (b : List Byte) : Bool :=
  let g := groupOf b
  zeroIn b 0x1D 0x40 && k32NonNeg g.eta && k32NonNeg g.lambda && k32NonNeg g.b1 && k32BelowOne g.b1 && k32NonNeg g.b2
    && k32BelowOne g.b2 && k32Positive g.eps && !isSubnormalCode .k32 g.eps && (k32Positive g.clip || k32PosInf g.clip)
    && decide (g.flags < 2) && decide (g.mcvt < 8) && decide (g.mcvt % 4 < 3) && decide (g.wcvt < 8) && cvtPlainOk g.wcvt

/-- A segment that is in use holds a good shape. -/
def segOk (g : CurveSeg) : Bool :=
  g.len != 0 && (decodeFloat .k32 g.v0).isFin && (decodeFloat .k32 g.v1).isFin

/-- Reserved fields and encodings of a curve segment are clear. -/
def segClear (b : List Byte) : Bool :=
  let g := segOf b
  zeroIn b 9 0xC && zeroIn b 0x14 0x20 && (decide (g.kind < 4) || g.kind == 255)

/-- The used segments of a named curve (12 R350): after the first UNUSED every one is UNUSED, and their STARTs rise. -/
def curveOk : List CurveSeg → Option Nat → Bool
  | [], _ => true
  | g :: gs, last =>
    if g.kind = 255 then last.isSome && gs.all (fun h => h.kind == 255)
    else segOk g && (match last with
      | none => g.start == 0
      | some p => decide (p < g.start)) && curveOk gs (some g.start)

/-- A tensor record is good, given the views and how many groups and units there are. -/
def tensorOk (u : UpdTables) (b : List Byte) : Bool :=
  let t := tensorOf b
  let (pa, pb, pl) := u.views
  let inView := fun (a n : Nat) => decide (pa ≤ a ∧ a + n ≤ pa + pl) && hbmRange a n && hbmRange (a - pa + pb) n
  zeroIn b 0x3B 0x40 && decide (t.group < u.groups) && decide (t.kind ≤ 1) && decide (t.unit < u.units) && decide (t.wh ≤ 7)
    && (if t.kind = 0 then
          t.rows != 0 && t.rows % 128 == 0 && t.cols != 0 && t.cols % 32 == 0
            && inView t.wc (t.rows * t.cols) && inView t.ws (t.rows / 128 * t.cols)
        else
          t.rows == 1 && t.cols != 0 && t.ws == 0 && inView t.wc (ceilDiv t.cols 64 * 64 + ceilDiv t.cols 128))
    && inView t.wire t.blocks && (t.fmap == 0 || hbmRange t.fmap (ceilDiv t.rows 8))

/-- Units of the tensors never fall (12 R351). -/
def unitsRise : List TensorRec → Bool
  | [] => true
  | [_] => true
  | a :: b :: l => decide (a.unit ≤ b.unit) && unitsRise (b :: l)

/-- The channel whose group SET_TABLE judges ownership by: the lowest bound to a DATA group; none is bound before BIND_GROUPS. Log 60 (DEDUCED). -/
def dataChannel (s : State) : Option Nat := (List.range 6).find? (fun v => rd s (F.FAB_BIND_W0_KIND v) == 2)

/-- Every tensor's state lies in populated slow-tier memory below the firmware area, in both generations. -/
def statesOk (s : State) (u : UpdTables) : Bool :=
  (List.range u.units).all (fun n =>
    let own := match dataChannel s with
      | some v => ownBlocks s u v n
      | none => segment 1 0 (unitBlocks u n)
    (unitTensors u n).all (fun e => (List.range 4).all (fun m =>
      let len := stateLen e.1 (tensorShare e.1 e.2 (quarter own m)).1
      len == 0 || [0, 1].all (fun gen =>
        let a := stateBase u e.1 m gen
        (match regionOf a with
          | .slow k _ => k == m
          | _ => false) && populatedRun a len && !reachesFirmware a len))))

/-- SET_TABLE accepts the update tables (12 R352). -/
def tablesOk (s : State) (u : UpdTables) : Bool :=
  jobOk s u && (rowsOf u.groups 64 u.group).all groupOk
    && (rowsOf 256 2048 u.curve).all (fun c => (rowsOf 64 32 c).all segClear)
    && (List.range u.groups).all (fun g =>
      let r := u.groupAt g
      curveOk (u.curveAt r.etaC) none && curveOk (u.curveAt r.decayC) none)
    && (rowsOf (leAt u.job 0x14 2) 64 u.tensor).all (tensorOk u) && unitsRise u.tensors && statesOk s u

/-! Curves, 12 R350. -/

/-- π in 192 fraction bits. -/
def pi192 : Nat := 0x3243F6A8885A308D313198A2E03707344A4093822299F31D0

/-- One term of the cosine series after another in fixed point: (terms left, place, term, sum). Log 59 (DEDUCED). -/
def cosSeries : Nat → Nat → Nat → Nat → Int → Int
  | 0, _, _, _, acc => acc
  | n + 1, k, y2, term, acc =>
    let t := term * y2 / 2 ^ 192 / ((2 * k + 1) * (2 * k + 2))
    cosSeries n (k + 1) y2 t (if k % 2 = 0 then acc - t else acc + t)

/-- cos(πx) for a K32 x from 0 to 1, rounded to K32: the exact values at 0, 1/2 and 1, elsewhere a series in 192 fraction bits,
whose error is far below the distance of any K32 argument's result from a rounding boundary. -/
def cosPi (x : Nat) : Nat :=
  match decodeFloat .k32 x with
  | .fin _ n d =>
    if n = 0 then (convFloat .k32 .rne false (.fin false 1 1)).1
    else if 2 * n = d then 0
    else if n = d then (convFloat .k32 .rne false (.fin true 1 1)).1
    else
      let y := pi192 * n / d
      let c := cosSeries 60 0 (y * y / 2 ^ 192) (2 ^ 192) (2 ^ 192 : Nat)
      (convFloat .k32 .rne false (.fin (decide (c < 0)) c.natAbs (2 ^ 192))).1
  | _ => Fmt.k32.nanCode

/-- The one rounding of the curve arithmetic (12 R350): RNE, but a magnitude beyond the K32 maximum gives infinity, and one below the
least subnormal gives zero of its sign. -/
def curveRound (x : XVal) : Nat :=
  match x with
  | .fin neg n d =>
    if aboveCode .k32 Fmt.k32.maxCode n d then infCode .k32 neg
    else if xless (.fin false n d) (decodeFloat .k32 1) then signBit .k32 neg
    else (roundK32 false x).1
  | _ => (roundK32 false x).1

/-- An operation of the curve arithmetic on K32 codes; it sets no flag (12 R350). -/
def curveOp (op : XVal → XVal → XVal × Flags) (a b : Nat) : Nat := curveRound (op (decodeFloat .k32 a) (decodeFloat .k32 b)).1

/-- pow of a K32 value to a whole exponent, rounded to K32 (12 R350). -/
def powK32 (v n : Nat) : Nat :=
  match decodeFloat .k32 v with
  | .fin neg a d =>
    if n = 0 then (convFloat .k32 .rne false (.fin false 1 1)).1
    else if a = 0 then signBit .k32 (neg && n % 2 == 1)
    else curveRound (.fin (neg && n % 2 == 1) (a ^ n) (d ^ n))
  | _ => Fmt.k32.nanCode

/-- A whole number as K32. -/
def k32OfNat (n : Nat) : Nat := (convFloat .k32 .rne false (.fin false n 1)).1

/-- K32 sum without its flags. -/
def kAdd (a b : Nat) : Nat := (k32Add false a b).1
/-- K32 difference without its flags. -/
def kSub (a b : Nat) : Nat := (k32Sub false a b).1
/-- K32 product without its flags. -/
def kMul (a b : Nat) : Nat := (k32Mul false a b).1

/-- The quotient of a K32 code and a whole number, rounded once. -/
def k32DivNat (a n : Nat) : Nat × Flags :=
  let (x, f1) := readCode false .k32 a
  let (q, f2) := xdiv x (.fin false n 1)
  let (c, f3) := roundK32 false q
  (c, (f1.or f2).or f3)

/-- The value of a segment at a step (12 R350). -/
def segVal (g : CurveSeg) (t : Nat) : Nat :=
  let one := k32OfNat 1
  let add := curveOp xadd
  let sub := curveOp (fun a b => xadd a (xneg b))
  let mul := curveOp xmul
  let x := (floatMin .k32 false one (curveRound (xdiv (decodeFloat .k32 (k32OfNat (t - g.start))) (.fin false g.len 1)).1)).1
  match g.kind with
  | 0 => g.v0
  | 1 => add g.v0 (mul (sub g.v1 g.v0) x)
  | 2 => add g.v1 (mul (sub g.v0 g.v1) (mul (add one (cosPi x)) (k32DivNat one 2).1))
  | _ => mul g.v0 (powK32 g.v1 ((t - g.start) / g.len))

/-- The value of a curve at a step: its last used segment that has begun. -/
def curveVal (l : List CurveSeg) (t : Nat) : Nat :=
  match ((l.takeWhile (fun g => g.kind != 255)).filter (fun g => decide (g.start ≤ t))).getLast? with
  | some g => segVal g t
  | none => 0

/-- The 256 curve values at a step; a curve that no group names is not evaluated and shows 0. -/
def curveVals (u : UpdTables) (t : Nat) : List Nat :=
  let named := (List.range u.groups).flatMap (fun g => [(u.groupAt g).etaC, (u.groupAt g).decayC])
  (List.range 256).map (fun c => if named.contains c then curveVal (u.curveAt c) t else 0)

end Sys2Proof.Machine
end

