-- ==== Sys2Proof/Machine/Relay.lean ====
section
/-!
DEFINITION. Relay reduction and the all-gather: arming, streams and slots, records and their arithmetic, completion (14 R412 to R439).
-/

namespace Sys2Proof.Machine

open Sys2Proof

/-! Shape of a relay. -/

/-- The relay table is adopted (14 R439). -/
def armed (s : State) : Bool := rdb s F.RR_STAT_ARMED

/-- D, the members of the DATA group. -/
def relayD (s : State) : Nat := (groupShape s s.relay.dvc).1

/-- This module's rank in it. -/
def relayRank (s : State) : Nat := (groupShape s s.relay.dvc).2

/-- Channel number of a relay channel: 0 data, 1 gather. -/
def relayVc (s : State) (ch : Nat) : Nat := if ch = 0 then s.relay.dvc else s.relay.gvc

/-- Streams per unit that a module receives on a channel (14 R428). -/
def perUnit (s : State) (ch : Nat) : Nat := if ch = 0 then 2 * relayD s - 1 else relayD s - 1

/-- The module of a rank. -/
def rankModule (s : State) (ch rank : Nat) : Nat := (members s (relayVc s ch)).getD rank 0

/-- The segment a module works on at a position (14 R413, R434). -/
def segmentAt (s : State) (ch p : Nat) : Nat :=
  let d := relayD s
  if ch = 0 then (relayRank s + 2 * d - 1 - p) % d else (relayRank s + d - p) % d

/-- The unit entry of a relay. -/
def relayUnit (s : State) (u : Nat) : RelayUnit := s.relay.units.getD u ⟨0, 0, 0, 0, 0⟩

/-- The blocks of a segment of a unit. -/
def segBlocks (s : State) (u sigma : Nat) : Nat × Nat := segment (relayD s) sigma (relayUnit s u).blocks

/-- Position at which a received stream is worked on. -/
def streamPos (s : State) (ch n : Nat) : Nat := n % perUnit s ch + 1

/-- First address of a slot of a stream (14 R428). -/
def slotAddr (s : State) (ch n k : Nat) : Nat :=
  (if ch = 0 then s.relay.recv else s.relay.grecv) + (n % 2 * s.relay.slots + k) * 8256

/-- The unit's trigger has passed (14 R419). -/
def triggered (s : State) (u : Nat) : Bool :=
  let e := relayUnit s u
  decide (e.passno ≤ mapGet 0 s.relay.passes e.hurdle)

/-- Streams completed on a channel. -/
def streamsDone (s : State) (ch : Nat) : Nat := rd s (F.RR_STREAM_DONE_DONE (relayVc s ch))

/-- The successor's release count (14 R429): the REL word. -/
def released (s : State) (ch : Nat) : Nat := ldN s (s.relay.rel + 8 * ch) 8

/-- Replace one place of a pair of per-channel values. -/
def chSet {α : Type} (l : List α) (ch : Nat) (v : α) : List α := l.set ch v

/-! Trailers, 14 R421. -/

/-- A record's trailer. -/
structure Trailer where
  block   : Nat := 0
  unit    : Nat := 0
  kind    : Nat := 0
  sat     : Bool := false
  inv     : Bool := false
  final   : Bool := false
  scale   : Nat := 0
  wire    : Nat := 0
  stream  : Nat := 0
  pos     : Nat := 0
  src     : Nat := 0
  amax    : Nat := 0
  sumsq   : Nat := 0
  nans    : Nat := 0
  nanRank : Nat := 0
  nanOk   : Bool := false
  nanElem : Nat := 0
  count   : Nat := 0
deriving DecidableEq, Repr

/-- The 64 bytes of a trailer. -/
def Trailer.bytes (t : Trailer) : List Byte :=
  natLE 4 (t.block % 2 ^ 24 + 2 ^ 24 * t.unit) ++ natLE 1 t.kind ++ natLE 1 (b2n t.sat + 2 * b2n t.inv + 4 * b2n t.final)
    ++ natLE 1 t.scale ++ natLE 1 t.wire ++ natLE 4 t.stream ++ natLE 2 t.pos ++ natLE 2 t.src ++ natLE 4 t.amax ++ natLE 4 t.sumsq
    ++ natLE 4 t.nans ++ natLE 2 (t.nanRank + 2 ^ 15 * b2n t.nanOk) ++ natLE 2 t.nanElem ++ natLE 4 t.count ++ natLE 28 0

/-- The trailer that 64 bytes spell. -/
def trailerOf (b : List Byte) : Trailer :=
  { block := leAt b 0 3, unit := leAt b 3 1, kind := leAt b 4 1, sat := bit (leAt b 5 1) 0, inv := bit (leAt b 5 1) 1,
    final := bit (leAt b 5 1) 2, scale := leAt b 6 1, wire := leAt b 7 1, stream := leAt b 8 4, pos := leAt b 0xC 2,
    src := bits (leAt b 0xE 2) 0 10, amax := leAt b 0x10 4, sumsq := leAt b 0x14 4, nans := leAt b 0x18 4,
    nanRank := bits (leAt b 0x1C 2) 0 10, nanOk := bit (leAt b 0x1C 2) 15, nanElem := bits (leAt b 0x1E 2) 0 12,
    count := leAt b 0x20 4 }

/-- A record: its codes' bytes with the trailer. -/
def recordBytes (f : Fmt) (codes : List Nat) (t : Trailer) : List Byte := bytesOf f codes ++ t.bytes

/-! Arithmetic, 14 R422 to R426. -/

/-- What a position gathers over the elements of a block. -/
structure HopSum where
  out   : List Nat := []                -- codes, last first
  amax  : Option XVal := none
  sat   : Bool := false
  ovfs  : Nat := 0
  nans  : Nat := 0
  first : Option Nat := none
  sq    : Nat := 0
deriving DecidableEq, Repr

/-- The code of a sum in pass 1 (14 R422): an element that saturated at an earlier position keeps its code 0x7F or 0xFF. keep says that the
block's SAT is set, the one sign that a record carries. Log 121 (DEDUCED). -/
def hopCode (keep : Bool) (scale a : Nat) (xv : XVal) : Nat × Flags :=
  let e := storeScaled false .k8e 4 scale xv
  if keep && (a == 0x7F || a == 0xFF) && xv != .nan then (a, e.2) else e

/-- One element at one position (14 R422, R426): c is the local code, inc the incoming code where there is one. wide says pass 2;
anchor says that SUMSQ is formed; keep says that the incoming block has saturated. -/
def hopElem (wide anchor keep : Bool) (scale : Nat) (h : HopSum) (i : Nat) (c : Nat) (inc : Option Nat) : HopSum :=
  let local_ := (widen false .k8e c scale).1
  let x := match inc with
    | none => local_
    | some a => (k32Add false (if wide then (roundK32 false (decodeVal .k16 a)).1 else (widen false .k8e a scale).1) local_).1
  let xv := decodeFloat .k32 x
  let (o, f) : Nat × Flags :=
    if wide then convert false .k16 .rne false xv
    else match inc with
      | none => (c, {})
      | some a => hopCode keep scale a xv
  let isNan := scale == 0xFF || decodeVal .k8e c == .nan
  let g := if wide then (roundK32 false (decodeVal .k16 o)).1 else (widen false .k8e o scale).1
  { out := o :: h.out, amax := xmaxMag h.amax xv, sat := h.sat || (f.ovf && !wide), ovfs := h.ovfs + b2n f.ovf,
    nans := h.nans + b2n isNan, first := if h.first.isNone && isNan then some i else h.first,
    sq := if anchor then kAdd h.sq (kMul g g) else h.sq }

/-- The elements of a block one after another. -/
def hopElems (wide anchor keep : Bool) (scale : Nat) : Nat → List Nat → List (Option Nat) → HopSum → HopSum
  | _, [], _, h => h
  | i, c :: cs, incs, h => hopElems wide anchor keep scale (i + 1) cs (incs.drop 1) (hopElem wide anchor keep scale h i c (incs.headD none))

/-- A record formed at a position (14 R422 to R426): its codes, its trailer, and what it adds to the flags and counters. -/
def hopRecord (s : State) (wide anchor : Bool) (u b pos stream scale : Nat) (codes : List Nat) (inc : Option (List Nat × Trailer)) :
    List Nat × Trailer × HopSum :=
  let before : Trailer := match inc with
    | some e => e.2
    | none => {}
  let h := hopElems wide anchor before.sat scale 0 codes (match inc with
    | some e => e.1.map some
    | none => []) {}
  let mine := match h.amax with
    | some x => (roundK32 false x).1
    | none => 0
  let t : Trailer :=
    { block := b, unit := u, kind := if wide then 2 else 1, sat := before.sat || h.sat, inv := before.inv || scale == 0xFF,
      final := anchor, scale := scale, stream := stream, pos := pos, src := relayRank s, amax := max before.amax mine,
      sumsq := if anchor then h.sq else 0, nans := min (before.nans + h.nans) (2 ^ 32 - 1),
      nanOk := before.nanOk || h.first.isSome,
      nanRank := if before.nanOk then before.nanRank else if h.first.isSome then relayRank s else 0,
      nanElem := if before.nanOk then before.nanElem else h.first.getD 0 }
  (h.out.reverse, t, h)

/-- Flags and counters that a processed record advances (14 R422, R423, R439). -/
def relayFlags (s : State) (scale : Nat) (h : HopSum) : State :=
  let s := bump s (F.RR_CNT_COUNT 0) 1
  let s := if h.ovfs = 0 then s else bumpOvf (wr s F.RR_FLAGS_OVF 1) (F.RR_CNT_COUNT 7) h.ovfs (some F.RR_FLAGS_CNT_OVF)
  let s := if h.nans = 0 then s else bump (wr s F.RR_FLAGS_NAN_IN 1) (F.RR_CNT_COUNT 3) h.nans
  if scale = 0xFF then wr s F.RR_FLAGS_INV 1 else s

/-! The module's own data. -/

/-- Address of a block's agreed wire scale (14 R418). -/
def wireAddr (s : State) (u b : Nat) : Nat :=
  match s.upd with
  | some t => (match blockAt t u b with
    | some e => e.1.wire + e.2
    | none => 0)
  | none => 0

/-- Address of a block's local contribution. -/
def contribAddr (s : State) (u b : Nat) : Nat := (relayUnit s u).contrib + 4096 * b

/-- The update mode is REPLICATED. -/
def replicatedMode (s : State) : Bool :=
  match s.upd with
  | some t => t.replicated
  | none => false

/-- Address of the OUT slot of a block that this module keeps (14 R416). -/
def outAddr (s : State) (u b : Nat) : Nat :=
  (relayUnit s u).out + 8256 * (if replicatedMode s then b else b - (segBlocks s u (relayRank s)).1)

/-- Local codes of a block. -/
def contribCodes (s : State) (u b : Nat) : List Nat := codes8 (ldBytes s (contribAddr s u b) 4096)

/-- The distance from the current view to the next (12 R364). -/
def viewShift (s : State) (a : Nat) : Nat :=
  match s.upd with
  | some t => a + t.views.2.1 - t.views.1
  | none => a

/-! Sending. -/

/-- A record leaves for its slot in the successor's area (14 R430). -/
def sendRecord (s : State) (ch n k : Nat) (data : List Byte) : State :=
  let d := relayD s
  sendMsg s { vc := relayVc s ch, dst := rankModule s ch ((relayRank s + 1) % d), src := moduleId s, tag := k % 65536, last := true,
              hops := 0, tgt := 0, npost := 0, addr := slotAddr s ch n k, data := data }

/-- A release to the predecessor (14 R429, R430). -/
def sendRelease (s : State) (ch n : Nat) : State :=
  let d := relayD s
  sendMsg s { vc := relayVc s ch, dst := rankModule s ch ((relayRank s + d - 1) % d), src := moduleId s, tag := 0, last := true, hops := 0,
              tgt := 0, npost := 0, addr := s.relay.rel + 8 * ch, data := natLE 8 n }

/-! Completion, 14 R428, R429, R435. -/

/-- Records of a received stream; none while its COUNT has not come. -/
def streamLen (s : State) (ch n : Nat) : Option Nat :=
  let p := streamPos s ch n
  if ch = 0 ∧ relayD s ≤ p then (mapFind s.relay.counts n).map (· + 1)
  else
    let r := segBlocks s (n / perUnit s ch) (segmentAt s ch p)
    some (r.2 - r.1)

/-- Is a received stream forwarded to the successor as the next stream? -/
def forwarded (s : State) (ch n : Nat) : Bool :=
  let p := streamPos s ch n
  if ch = 0 then p != relayD s - 1 && p != 2 * relayD s - 1 else p != relayD s - 1

/-- Records of a stream that this module has processed. -/
def seenOf (s : State) (ch n : Nat) : Nat := (s.relay.seen.filter (fun e => e.1 == ch && e.2.1 == n)).length

/-- Every record of a received stream is forwarded or stored (14 R428). -/
def streamComplete (s : State) (ch n : Nat) : Bool :=
  (match streamLen s ch n with
    | some l => seenOf s ch n == l
    | none => false) && (!forwarded s ch n || decide (n + 1 < s.relay.sent.getD ch 0))

/-- The next stream of a channel completes: DONE advances and the predecessor is released. -/
def settleChannel : Nat → Nat → State → State
  | 0, _, s => s
  | fuel + 1, ch, s =>
    let n := streamsDone s ch
    if armed s && relayD s != 1 && decide (n < s.relay.units.length * perUnit s ch) && streamComplete s ch n then
      let s := wr s (F.RR_STREAM_DONE_DONE (relayVc s ch)) (n + 1)
      let s := { s with relay := { s.relay with seen := s.relay.seen.filter (fun e => !(e.1 == ch && e.2.1 == n)) } }
      settleChannel fuel ch (sendRelease s ch (n + 1))
    else s

/-- A unit is reduced on this module (14 R435). -/
def unitReduced (s : State) (u : Nat) : Bool :=
  if relayD s = 1 then triggered s u && seenOf s 0 u == (relayUnit s u).blocks
  else decide ((u + 1) * perUnit s 0 ≤ streamsDone s 0)
    && (!replicatedMode s || decide ((u + 1) * perUnit s 1 ≤ streamsDone s 1))

/-- Units become reduced in increasing index (14 R433, R435); the update dies hear of each. -/
def settleUnits : Nat → State → State
  | 0, s => s
  | fuel + 1, s =>
    let u := s.relay.ready.length
    if armed s && decide (u < s.relay.units.length) && unitReduced s u then
      settleUnits fuel (bump { s with relay := { s.relay with ready := s.relay.ready ++ [u] } } (F.RR_CNT_COUNT 6) 1)
    else s

/-- Units whose gather streams are complete. -/
def gathered (s : State) : Nat :=
  if relayD s = 1 then s.relay.ready.length else streamsDone s 1 / perUnit s 1

/-- What follows from a record, a send, a trigger or the arming: streams and units complete, RR_STAT shows them. -/
def relaySettle (s : State) : State :=
  if !armed s then s
  else
    let n := s.relay.units.length
    let s := settleChannel (n * perUnit s 0 + 1) 0 s
    let s := settleChannel (n * perUnit s 1 + 1) 1 s
    let s := settleUnits (n + 1) s
    wrAll s [(F.RR_STAT_STARTED, ((List.range n).filter (triggered s)).length), (F.RR_STAT_REDUCED, s.relay.ready.length),
      (F.RR_STAT_GATHERED, gathered s)]

/-- The module's relays of the step are complete (14 R435). -/
def relaysComplete (s : State) : Bool :=
  armed s && s.relay.ready.length == s.relay.units.length && gathered s == s.relay.units.length

/-! Arming, 14 R415 to R419. -/

/-- Failure of RR_ARM: RR_ERR and a program fault of the requesting core. -/
def relayFail (s : State) (r : CcReq) (reason unit : Nat) : State :=
  routineFail (wrAll s [(F.RR_ERR_VALID, 1), (F.RR_ERR_REASON, reason), (F.RR_ERR_UNIT, unit)]) r

/-- The unit entries of a relay table. -/
def relayUnitOf (b : List Byte) : RelayUnit := ⟨leAt b 0 1, leAt b 1 1, leAt b 4 4, leAt b 8 8, leAt b 0x10 8⟩

/-- The state of the relay that a table's header and unit entries give. -/
def relayOf (s : State) (h : List Byte) (units : List RelayUnit) : RelaySt :=
  { calls := s.relay.calls, dvc := leAt h 0 1, gvc := leAt h 1 1, slots := leAt h 4 4, recv := leAt h 8 8, grecv := leAt h 0x10 8,
    rel := leAt h 0x18 8, chain := leAt h 0x20 8, chainLen := leAt h 0x28 4, norm := leAt h 0x30 8, units := units,
    passes := s.relay.passes }

/-- The areas that every member arms at the same addresses (14 R417). Log 113 (DEDUCED). -/
def relayAreas (x : RelaySt) (units : Nat) : List (Nat × Nat) :=
  [(x.recv, 2 * x.slots * 8256), (x.grecv, 2 * x.slots * 8256), (x.rel, 16), (x.chain, units * 2 * x.chainLen), (x.norm, units * 16)]

/-- No range of a list meets a later one or one of the others. -/
def apart : List (Nat × Nat) → List (Nat × Nat) → Bool
  | [], _ => true
  | a :: l, others => (l ++ others).all (fun b => a.2 == 0 || b.2 == 0 || !rangesMeet a.1 a.2 b.1 b.2) && apart l others

/-- Blocks of a unit that this module keeps in OUT. -/
def outKept (d rank blocks : Nat) (repl : Bool) : Nat :=
  if repl then blocks else (segment d rank blocks).2 - (segment d rank blocks).1

/-- Reason for which RR_ARM refuses a table, with the unit concerned (14 R415; 12 R354 asks for
a DATA binding); the codes are tried in increasing order. Log 58 (DEDUCED). -/
def armReason (s : State) (h : List Byte) (units : List RelayUnit) (raw : List (List Byte)) : Option (Nat × Nat) :=
  let x := relayOf s h units
  let n := leAt h 2 1
  let (pa, pb, pl) : Nat × Nat × Nat := match s.upd with
    | some t => t.views
    | none => (0, 0, 0)
  let (d, rank) := groupShape s x.dvc
  let repl := replicatedMode s
  let hc := match s.prog with
    | some p => p.hurdles
    | none => 0
  let areas := relayAreas x n
  let badUnit := (List.range n).find? (fun u =>
    let e := units.getD u ⟨0, 0, 0, 0, 0⟩
    let b := raw.getD u []
    leAt b 2 2 != 0 || leAt b 0x18 8 != 0 || decide (hc ≤ e.hurdle) || e.passno == 0 || e.contrib % 4096 != 0 || e.out % 64 != 0
      || (e.blocks != 0 && !hbmRange e.contrib (4096 * e.blocks))
      || (outKept d rank e.blocks repl != 0 && !hbmRange e.out (8256 * outKept d rank e.blocks repl)))
  let bad1 := decide (5 < x.dvc) || decide (5 < x.gvc) || leAt h 3 1 != 0 || leAt h 0x2C 4 != 0 || leAt h 0x38 72 != 0
    || x.recv % 4096 != 0 || x.grecv % 4096 != 0 || x.rel % 64 != 0 || x.chain % 4096 != 0 || x.chainLen % 64 != 0 || x.norm % 64 != 0
    || areas.any (fun a => a.2 != 0 && !hbmRange a.1 a.2) || !apart areas [(pa, pl), (pb, pl)]
  if bad1 then some (0x01, 0)
  else match badUnit with
    | some u => some (0x01, u)
    | none =>
      if rd s (F.FAB_BIND_W0_KIND x.dvc) ≠ 2 ∨ rd s (F.FAB_BIND_W0_STATE x.dvc) ≠ 2 ∨ rd s (F.FAB_BIND_W0_STATE x.gvc) ≠ 2
        ∨ rd s (F.FAB_BIND_W2_LIST_CRC x.dvc) ≠ rd s (F.FAB_BIND_W2_LIST_CRC x.gvc) then some (0x02, 0)
      else match s.upd with
        | none => some (0x03, 0)
        | some t =>
          if n ≠ t.units then some (0x03, 0)
          else match (List.range n).find? (fun u => (units.getD u ⟨0, 0, 0, 0, 0⟩).blocks != unitBlocks t u) with
            | some u => some (0x03, u)
            | none =>
              (match (List.range n).find? (fun u =>
                  let b := unitBlocks t u
                  let most := ((List.range d).map (fun i => (segment d i b).2 - (segment d i b).1)).foldl max 0
                  let sums := ((unitTensors t u).map (fun e => if e.1.kind = 0 then e.1.rows + e.1.cols else 0)).foldl (· + ·) 0
                  decide (x.slots < most + 1) || decide (x.chainLen < 4 * sums)) with
                | some u => some (0x04, u)
                | none => none)

/-- RR_ARM (14 R415 to R419, R439): the routine at the head of a cluster's queue checks and adopts the relay table. A second call
in the step fails without its table being read; triggers that have passed take effect. -/
def execRrArm (k : ClusterId) (err : ReadErr) (s : State) : Host.Outcome State Fault Refusal :=
  .next (match routineHead s k 0x10 with
    | none => s
    | some r =>
      let before := s
      let s := { s with relay := { s.relay with calls := s.relay.calls + 1 } }
      if s.relay.calls ≠ 1 then relayFail s r 0x05 0
      else match argBlock s k r with
        | none => relayFail s r 0x01 0
        | some a =>
          let addr := leAt a 0x18 8
          if leAt a 0 1 ≠ 0x10 ∨ leAt a 2 22 ≠ 0 ∨ leAt a 0x20 32 ≠ 0 ∨ addr % 64 ≠ 0 ∨ !populatedRun addr 128
            ∨ !populatedRun addr (128 + 32 * ldN s (addr + 2) 1) then relayFail s r 0x01 0
          else
            let n := ldN s (addr + 2) 1
            match readRuns s [(addr, 128 + 32 * n)] err with
            | none => before
            | some (false, t) => t
            | some (true, s) =>
              let h := ldBytes s addr 128
              let raw := rowsOf n 32 (ldBytes s (addr + 0x80) (32 * n))
              let units := raw.map relayUnitOf
              match armReason s h units raw with
              | some e => relayFail s r e.1 e.2
              | none =>
                let s := { clearRelayRegs s with relay := relayOf s h units }
                let s := wr (stN (stN s s.relay.rel 8 0) (s.relay.rel + 8) 8 0) F.RR_STAT_ARMED 1
                relaySettle (routineDone s k r 0))

/-! Sending streams, 14 R429. -/

/-- The relay engines run: a step runs and no replay is under way. -/
def relayRuns (s : State) : Bool := armed s && s.run.isSome && rd s F.ID_REPLAY_PHASE == 0

/-- A feature that every member of the data group serves (13 R396): 0 RELAY8, without which no record is sent or processed; 1 K16PASS,
without which no block is flagged for pass 2. Log 122 (DESIGN CHOICE). -/
def groupFeature (s : State) (f : Nat) : Bool := bit (rd s (F.FAB_BIND_W1_GFEAT s.relay.dvc)) f

/-- Every die has completed a unit's update (12 R356). -/
def unitUpdated (s : State) (u : Nat) : Bool := s.uds.all (fun d => d.done.contains u)

/-- May the first record of the next stream be sent on a channel (14 R429)? The gather of REPLICATED carries the anchors' blocks, so
it waits for the module's own segment. Log 57 (DEDUCED). -/
def streamMayBegin (s : State) (ch n : Nat) : Bool :=
  let per := perUnit s ch
  let u := n / per
  let p := n % per
  relayRuns s && relayD s != 1 && groupFeature s 0 && per != 0 && decide (n < s.relay.units.length * per) && !(s.relay.opened.getD ch false)
    && decide (n ≤ released s ch + 1)
    && (if ch = 0 then (p != 0 || triggered s u) && (p != relayD s - 1 || decide (n ≤ streamsDone s 0))
        else p != 0 || (if replicatedMode s then decide ((u + 1) * perUnit s 0 ≤ streamsDone s 0) else unitUpdated s u))

/-- A whole stream has been sent. -/
def streamSent (s : State) (ch : Nat) : State :=
  { s with relay := { s.relay with
      sent := chSet s.relay.sent ch (s.relay.sent.getD ch 0 + 1)
      opened := chSet s.relay.opened ch false
      nextSlot := chSet s.relay.nextSlot ch 0 } }

/-- The blocks of a range. -/
def blockRange (r : Nat × Nat) : List Nat := (List.range (r.2 - r.1)).map (fun i => r.1 + i)

/-- The head of pass 1 sends its own contribution to a segment (14 R413, R422). -/
def sendHead (s : State) (n : Nat) : State :=
  let u := n / perUnit s 0
  let seg := segBlocks s u (segmentAt s 0 0)
  (blockRange seg).foldl (fun t b =>
    let scale := ldN t (wireAddr t u b) 1
    let (codes, tr, h) := hopRecord t false false u b 0 n scale (contribCodes t u b) none
    sendRecord (relayFlags t scale h) 0 n (b - seg.1) (recordBytes .k8e codes tr)) s

/-- The flagged blocks of this module's own segment: stored records with SAT set (14 R424, R425). -/
def flaggedBlocks (s : State) (u : Nat) : List Nat :=
  if !groupFeature s 1 then []
  else (blockRange (segBlocks s u (relayRank s))).filter (fun b => (trailerOf (ldBytes s (outAddr s u b + 4096) 64)).sat)

/-- The anchor of pass 1 sends the summary and a notice for each flagged block (14 R424). -/
def sendSummary (s : State) (n : Nat) : State :=
  let u := n / perUnit s 0
  let fl := flaggedBlocks s u
  let pos := n % perUnit s 0
  let base : Trailer := { unit := u, stream := n, pos := pos, src := relayRank s }
  let s := bump (sendRecord s 0 n 0 ({ base with kind := 3, count := fl.length } : Trailer).bytes) (F.RR_CNT_COUNT 1) fl.length
  (fl.zipIdx).foldl (fun t e =>
    sendRecord t 0 n (e.2 + 1) ({ block := e.1, unit := u, kind := 6, scale := ldN t (wireAddr t u e.1) 1 } : Trailer).bytes) s

/-- Codes and scale bytes of a block of the working copy in a view, and where they lie (12 R351, R353, R364): (address, length) of
each run of codes, then of scales. -/
def copyRuns (t : TensorRec) (b : Nat) : List (Nat × Nat) × (Nat × Nat) :=
  if t.kind = 0 then
    let rb := b / (t.cols / 32)
    let cb := b % (t.cols / 32)
    ((List.range 128).map (fun i => (t.wc + (128 * rb + i) * t.cols + 32 * cb, 32)), (t.ws + rb * t.cols + 32 * cb, 32))
  else ([(t.wc + 4096 * b, t.blockElems b)], (t.wc + ceilDiv t.cols 64 * 64 + 32 * b, ceilDiv (t.blockElems b) 128))

/-- The gather record of an updated block, from the next view (14 R434). -/
def gatherRecord (s : State) (u b n : Nat) : List Byte :=
  match s.upd.bind (fun t => blockAt t u b) with
  | none => []
  | some (t, tb) =>
    let (cr, sr) := copyRuns t tb
    let codes := cr.flatMap (fun r => ldBytes s (viewShift s r.1) r.2)
    let scales := ldBytes s (viewShift s sr.1) sr.2
    let tr : Trailer := { block := b, unit := u, kind := 4, wire := ldN s (viewShift s (t.wire + tb)) 1, stream := n, pos := 0,
                          src := relayRank s }
    sliceBytes codes 0 4096 ++ sliceBytes scales 0 32 ++ tr.bytes

/-- A trailer that is a final one of a block, of a KIND (12 R362, 14 R420). -/
def Trailer.isFinal (t : Trailer) (kind u b : Nat) : Bool := t.kind == kind && t.final && t.unit == u && t.block == b

/-- Is the record in a block's OUT slot a K16 one (12 R362)? The trailer behind K8E codes is looked at first. -/
def slotWide (s : State) (u b : Nat) : Bool :=
  let a := outAddr s u b
  !(trailerOf (ldBytes s (a + 4096) 64)).isFinal 1 u b && (trailerOf (ldBytes s (a + 8192) 64)).isFinal 2 u b

/-- The anchor's record of a block as the gather of REPLICATED sends it (14 R420, R434): KIND 5. -/
def reducedRecord (s : State) (u b n : Nat) : List Byte :=
  let a := outAddr s u b
  let len := if slotWide s u b then 8192 else 4096
  let t := trailerOf (ldBytes s (a + len) 64)
  ldBytes s a len ++ ({ t with kind := 5, stream := n, pos := 0, src := relayRank s } : Trailer).bytes

/-- The owner sends its segment on the gather channel (14 R434). -/
def sendGather (s : State) (n : Nat) : State :=
  let u := n / perUnit s 1
  let seg := segBlocks s u (segmentAt s 1 0)
  (blockRange seg).foldl (fun t b =>
    sendRecord t 1 n (b - seg.1) (if replicatedMode t then reducedRecord t u b n else gatherRecord t u b n)) s

/-- What a stream that begins at this module reads. -/
def sendRuns (s : State) (ch n : Nat) : List (Nat × Nat) :=
  let u := n / perUnit s ch
  let p := n % perUnit s ch
  if ch = 0 then
    if p = 0 then
      (blockRange (segBlocks s u (segmentAt s 0 0))).flatMap (fun b => [(contribAddr s u b, 4096), (wireAddr s u b, 1)])
    else if p = relayD s - 1 then
      (blockRange (segBlocks s u (relayRank s))).flatMap (fun b => [(outAddr s u b, 8256), (wireAddr s u b, 1)])
    else []
  else if p = 0 then
    (blockRange (segBlocks s u (segmentAt s 1 0))).flatMap (fun b =>
      if replicatedMode s then [(outAddr s u b, 8256)]
      else match s.upd.bind (fun t => blockAt t u b) with
        | some (t, tb) => ((copyRuns t tb).1 ++ [(copyRuns t tb).2, (t.wire + tb, 1)]).map (fun r => (viewShift s r.1, r.2))
        | none => [])
  else []

/-- RELAY_STREAM_SEND (14 R429): the next stream of a channel begins. A stream that begins here (the head of pass 1, the summary and
notices of an anchor, a segment's gather) is sent whole; any other opens, and its records follow as they are processed. -/
def execRelayStreamSend (gather : Bool) (err : ReadErr) (s : State) : Host.Outcome State Fault Refusal :=
  .next (
    let ch := b2n gather
    let n := s.relay.sent.getD ch 0
    if !streamMayBegin s ch n then s
    else match readRuns s (sendRuns s ch n) err with
      | none => s
      | some (false, t) => t
      | some (true, s) =>
        let p := n % perUnit s ch
        let whole := p == 0 || (ch == 0 && p == relayD s - 1)
        relaySettle (
          if whole then
            streamSent (if ch = 1 then sendGather s n else if p = 0 then sendHead s n else sendSummary s n) ch
          else if streamLen s ch (n - 1) = some 0 then streamSent s ch
          else { s with relay := { s.relay with opened := chSet s.relay.opened ch true, nextSlot := chSet s.relay.nextSlot ch 0 } }))

/-! Processing records, 14 R422 to R428, R434. -/

/-- A record of stream n, slot k may be processed: streams are worked on in increasing index, and a forwarded record in slot order
once its stream has begun (14 R428, R429, R438). -/
def recordReady (s : State) (ch n k : Nat) : Bool :=
  relayRuns s && groupFeature s 0 && s.relay.arrived.contains (ch, n, k) && !s.relay.seen.contains (ch, n, k) && streamsDone s ch == n
    && (if forwarded s ch n then
          s.relay.sent.getD ch 0 == n + 1 && s.relay.opened.getD ch false && s.relay.nextSlot.getD ch 0 == k
        else decide (n ≤ s.relay.sent.getD ch 0))

/-- A record is processed; its place in the forwarded stream is used, and the stream is sent when it was the last. -/
def recordDone (s : State) (ch n k : Nat) : State :=
  let s := { s with relay := { s.relay with
      arrived := s.relay.arrived.filter (fun e => !(e == (ch, n, k))), seen := s.relay.seen ++ [(ch, n, k)] } }
  let s := if forwarded s ch n then
      let s := { s with relay := { s.relay with nextSlot := chSet s.relay.nextSlot ch (k + 1) } }
      if streamLen s ch n = some (k + 1) then streamSent s ch else s
    else s
  relaySettle s

/-- An anchor stores its record (14 R424, R426). -/
def storeAnchor (s : State) (u b : Nat) (f : Fmt) (codes : List Nat) (t : Trailer) : State :=
  stBytes s (outAddr s u b) (recordBytes f codes t)

/-- Block concerned by a data record: a pass-1 record's slot is its offset in the segment; in pass 2 the trailer names it. -/
def recordBlock (s : State) (n k : Nat) (t : Trailer) : Nat :=
  let p := streamPos s 0 n
  if p < relayD s then (segBlocks s (n / perUnit s 0) (segmentAt s 0 p)).1 + k else t.block

/-- Bytes of the record in a slot, without its trailer. -/
def recordLen (s : State) (n k : Nat) : Nat :=
  let p := streamPos s 0 n
  if p < relayD s then 4096 else if k = 0 ∨ p = relayD s then 0 else 8192

/-- What processing a data record reads. -/
def recordRuns (s : State) (n k : Nat) : List (Nat × Nat) :=
  let a := slotAddr s 0 n k
  let len := recordLen s n k
  let t := trailerOf (ldBytes s (a + len) 64)
  let u := n / perUnit s 0
  if relayD s ≤ streamPos s 0 n ∧ k = 0 then [(a, 64)]
  else [(a, len + 64), (contribAddr s u (recordBlock s n k t), 4096), (wireAddr s u (recordBlock s n k t), 1)]

/-- A data record is worked on at this module's position. -/
def processRecord (s : State) (n k : Nat) : State :=
  let d := relayD s
  let p := streamPos s 0 n
  let u := n / perUnit s 0
  let a := slotAddr s 0 n k
  let len := recordLen s n k
  let t := trailerOf (ldBytes s (a + len) 64)
  if d ≤ p ∧ k = 0 then
    let s := bump { s with relay := { s.relay with counts := mapPut s.relay.counts n t.count } } (F.RR_CNT_COUNT 0) 1
    if p = 2 * d - 1 then s
    else sendRecord s 0 (n + 1) 0 ({ t with stream := n + 1, pos := p, src := relayRank s } : Trailer).bytes
  else
    let b := recordBlock s n k t
    let scale := ldN s (wireAddr s u b) 1
    let wide := decide (d ≤ p)
    let anchor := p == d - 1 || p == 2 * d - 1
    let f : Fmt := if wide then .k16 else .k8e
    let inc := if p = d then none else some (codesOf f (ldBytes s a len), t)
    let (open_, s) : Nat × State := if anchor then drawFree s 32 else (n + 1, s)
    let (codes, tr, h) := hopRecord s wide anchor u b p open_ scale (contribCodes s u b) inc
    let s := relayFlags s scale h
    if anchor then
      let s := storeAnchor s u b f codes tr
      if wide then bump s (F.RR_CNT_COUNT 2) 1 else s
    else sendRecord s 0 (n + 1) k (recordBytes f codes tr)

/-- A group of one member: block k of unit n is its own anchor record (14 R413). -/
def processAlone (s : State) (n k : Nat) : State :=
  let scale := ldN s (wireAddr s n k) 1
  let (codes, tr, h) := hopRecord s false true n k 0 0 scale (contribCodes s n k) none
  let s := storeAnchor (relayFlags s scale h) n k .k8e codes tr
  relaySettle { s with relay := { s.relay with seen := s.relay.seen ++ [(0, n, k)] } }

/-- RELAY_RECORD_PROCESS (14 R413, R422 to R428): the record in slot k of data stream n, which has arrived, is worked on with the
local block, and the result is sent on or stored. In a group of one, n is the unit and k the block. -/
def execRelayRecordProcess (n k : Nat) (err : ReadErr) (s : State) : Host.Outcome State Fault Refusal :=
  .next (
    if relayD s = 1 then
      if relayRuns s && s.relay.ready.length == n && decide (n < s.relay.units.length) && triggered s n
        && decide (k < (relayUnit s n).blocks) && !s.relay.seen.contains (0, n, k) then
        match readRuns s [(contribAddr s n k, 4096), (wireAddr s n k, 1)] err with
        | none => s
        | some (false, t) => t
        | some (true, t) => processAlone t n k
      else s
    else if recordReady s 0 n k then
      match readRuns s (recordRuns s n k) err with
      | none => s
      | some (false, t) => t
      | some (true, t) => recordDone (processRecord t n k) 0 n k
    else s)

/-- Bytes of the gather record of stream n, slot k without its trailer: under REPLICATED by the trailer that names the slot's block
and stream (14 R420, R434); the place behind K8E codes is looked at first. -/
def gatherLen (s : State) (n k : Nat) : Nat :=
  if !replicatedMode s then 4128
  else
    let t := trailerOf (ldBytes s (slotAddr s 1 n k + 4096) 64)
    let u := n / perUnit s 1
    let b := (segBlocks s u (segmentAt s 1 (streamPos s 1 n))).1 + k
    if t.isFinal 5 u b && t.stream == n then 4096 else 8192

/-- A gather record is written at this module (14 R434): into the next view, or under REPLICATED into OUT, where it keeps the KIND of
its codes. -/
def writeGather (s : State) (n k : Nat) : State :=
  let a := slotAddr s 1 n k
  let len := gatherLen s n k
  let t := trailerOf (ldBytes s (a + len) 64)
  let u := n / perUnit s 1
  let b := (segBlocks s u (segmentAt s 1 (streamPos s 1 n))).1 + k
  if replicatedMode s then
    stBytes s (outAddr s u b) (ldBytes s a len ++ ({ t with kind := if len = 8192 then 2 else 1 } : Trailer).bytes)
  else match s.upd.bind (fun x => blockAt x u b) with
    | none => s
    | some (x, tb) =>
      let codes := ldBytes s a 4096
      let (cr, sr) := copyRuns x tb
      let s := (cr.zipIdx).foldl (fun q e => stBytes q (viewShift q e.1.1) (sliceBytes codes (e.2 * 32) e.1.2)) s
      let s := stBytes s (viewShift s sr.1) (sliceBytes (ldBytes s (a + 4096) 32) 0 sr.2)
      stN s (viewShift s (x.wire + tb)) 1 t.wire

/-- GATHER_RECORD_WRITE (14 R434): the record in slot k of gather stream n is written here, and sent on but at the last position. -/
def execGatherRecordWrite (n k : Nat) (err : ReadErr) (s : State) : Host.Outcome State Fault Refusal :=
  .next (
    if relayD s ≠ 1 ∧ recordReady s 1 n k then
      let a := slotAddr s 1 n k
      let len := gatherLen s n k
      match readRuns s [(a, len + 64)] err with
      | none => s
      | some (false, t) => t
      | some (true, t) =>
        let data := ldBytes t a len
        let tr := trailerOf (ldBytes t (a + len) 64)
        let t := bump (writeGather t n k) (F.RR_CNT_COUNT 5) 1
        let t := if forwarded t 1 n then
            sendRecord t 1 (n + 1) k (data ++ ({ tr with stream := n + 1, pos := streamPos t 1 n, src := relayRank t } : Trailer).bytes)
          else t
        recordDone t 1 n k
    else s)

/-! Messages that arrive, 14 R431, R436, R437. -/

/-- What a message on a relay channel is. -/
inductive RelayMsg where
  | record (ch n k : Nat)
  | duplicate
  | release (ch n : Nat)
  | sums (unit kind : Nat)
  | bad
  | plain
deriving DecidableEq, Repr

/-- Does a run lie wholly within an area; does it meet one? -/
def within (a n : Nat) (r : Nat × Nat) : Bool := r.2 != 0 && decide (r.1 ≤ a ∧ a + n ≤ r.1 + r.2)

/-- A record's trailer agrees with its slot (14 R428, R431). -/
def trailerFits (s : State) (ch n k : Nat) (m : Msg) (t : Trailer) : Bool :=
  let per := perUnit s ch
  let p := streamPos s ch n
  let u := n / per
  let seg := segBlocks s u (segmentAt s ch p)
  let d := relayD s
  let len := m.data.length
  decide (n < s.relay.units.length * per) && (ch == 0 && p == d && k != 0 || (t.stream == n && t.pos == p - 1
      && t.src == (relayRank s + d - 1) % d)) && t.unit == u
    && (if ch = 1 then
          t.block == seg.1 + k && decide (seg.1 + k < seg.2)
            && (if replicatedMode s then t.kind == 5 && (len == 4160 || len == 8256) else t.kind == 4 && len == 4192)
        else if p < d then t.kind == 1 && len == 4160 && t.block == seg.1 + k && decide (seg.1 + k < seg.2)
        else if k = 0 then t.kind == 3 && len == 64
        else decide (seg.1 ≤ t.block ∧ t.block < seg.2 ∧ k ≤ seg.2 - seg.1)
          && (if p = d then t.kind == 6 && len == 64 else t.kind == 2 && len == 8256))

/-- The stream number of a record; a notice, which carries none, is of the stream that its unit's position D receives (14 R425, R428). -/
def streamOf (s : State) (t : Trailer) : Nat := if t.kind = 6 then t.unit * perUnit s 0 + (relayD s - 1) else t.stream

/-- Classify a message of a relay channel (14 R431): by the areas of its channel that its run lies in. -/
def relayClass (s : State) (m : Msg) : RelayMsg :=
  let x := s.relay
  let len := m.data.length
  let units := x.units.length
  if m.vc ≠ x.dvc ∧ m.vc ≠ x.gvc then .plain
  else
    let recs := (if m.vc = x.dvc then [(0, (x.recv, 2 * x.slots * 8256))] else [])
      ++ (if m.vc = x.gvc then [(1, (x.grecv, 2 * x.slots * 8256))] else [])
    let others := (if m.vc = x.dvc then [(x.chain, units * 2 * x.chainLen), (x.norm, units * 16)] else []) ++ [(x.rel, 16)]
    match recs.find? (fun e => within m.addr len e.2) with
    | some (ch, base, _) =>
      let off := m.addr - base
      let h := off / 8256 / x.slots
      let k := off / 8256 % x.slots
      let t := trailerOf (m.data.drop (len - 64))
      let n := streamOf s t
      if off % 8256 ≠ 0 ∨ len < 64 ∨ n % 2 ≠ h then .bad
      else if n < streamsDone s ch ∨ x.seen.contains (ch, n, k) then .duplicate
      else if trailerFits s ch n k m t then .record ch n k else .bad
    | none =>
      if within m.addr len (x.rel, 16) then
        if len = 8 ∧ m.addr = x.rel ∧ m.vc = x.dvc then .release 0 (leNat m.data)
        else if len = 8 ∧ m.addr = x.rel + 8 ∧ m.vc = x.gvc then .release 1 (leNat m.data)
        else .bad
      else if m.vc = x.dvc ∧ x.chainLen ≠ 0 ∧ within m.addr len (x.chain, units * 2 * x.chainLen) then
        .sums ((m.addr - x.chain) / (2 * x.chainLen)) ((m.addr - x.chain) / x.chainLen % 2)
      else if m.vc = x.dvc ∧ within m.addr len (x.norm, units * 16) then
        .sums ((m.addr - x.norm) / 16) (2 + (m.addr - x.norm) / 8 % 2)
      else if (recs.map (fun e => e.2) ++ others).any (fun r => r.2 != 0 && rangesMeet m.addr len r.1 r.2) then .bad
      else .plain

end Sys2Proof.Machine
end

