-- ==== Sys2Proof/Machine/Messages.lean ====
section
/-!
DEFINITION. What arrives from other modules during a step: data messages, relay messages, hurdle arrivals, step aborts; the pass of a
hurdle; the copy into a spare core (01 R22, 04 R113, R114, R118, 13 R398 to R400, 14 R429, R431, R436, R437, 18 R527).
-/

namespace Sys2Proof.Machine

open Sys2Proof

/-! Data messages. -/

/-- The messages of a descriptor arrive in order (13 R398): the message at a place of the inbox has none of its own descriptor
before it. -/
def firstOfKind (l : List Msg) (i : Nat) (m : Msg) : Bool :=
  (l.take i).all (fun e => !(e.vc == m.vc && e.src == m.src && e.tag == m.tag))

/-- The message that may be delivered from a place of the inbox. -/
def inboxMsg (s : State) (i : Nat) : Option Msg :=
  match s.inbox[i]? with
  | some m => if firstOfKind s.inbox i m then some m else none
  | none => none

/-- The channel has no binding, or one whose group the sender is no member of (13 R399). -/
def strangerOn (s : State) (vc src : Nat) : Bool := rd s (F.FAB_BIND_W0_KIND vc) == 0 || !(members s vc).contains src

/-- A message of a DATA or GATHER channel waits until the relay of its step is armed (14 R431). A module that has sent its first
COMMIT message, or that runs no step, gets such messages for the next step only (DEDUCED, log 30 and log 63). -/
def heldForArm (s : State) (m : Msg) : Bool :=
  (rd s (F.FAB_BIND_W0_KIND m.vc) == 2 || rd s (F.FAB_BIND_W0_KIND m.vc) == 3) &&
    (!armed s || (match s.run with
      | some r => r.sentCommit
      | none => true))

/-- The run leaves populated HBM or reaches a firmware area (13 R399). -/
def badRun (m : Msg) : Bool := !(m.data != [] && hbmRange m.addr m.data.length) || reachesFirmware m.addr m.data.length

/-- FAB_ERR captures the first message that failed (13 R399). -/
def captureFab (s : State) (m : Msg) : State :=
  if rdb s F.FAB_ERR_VALID then s else wrAll s [(F.FAB_ERR_VALID, 1), (F.FAB_ERR_SRC, m.src), (F.FAB_ERR_ADDR, m.addr)]

/-- The slot that NPOST_TGT names (11 R334): [8:6] slot, [12:9] cluster, [15:13] die. -/
def npostSlot (tgt : Nat) : Option SlotId := slotOfBits (bits tgt 13 3 * 128 + bits tgt 9 4 * 8 + bits tgt 6 3)

/-- A message outside populated HBM stops the step as if the core named by NPOST_TGT had recorded ADDR_RANGE (13 R399); the
address base, instruction and engine that CO_FAULT would name are free values (DESIGN CHOICE, log 6). -/
def messageFault (s : State) (m : Msg) : State :=
  if s.run.isNone then s
  else
    match (npostSlot m.tgt).bind (slotCore s) with
    | some c =>
      let (n, s) := drawFree s 4
      let (i, s) := drawFree s 12
      let (e, s) := drawFree s 4
      programFault s c 0x05 n i e
    | none => abortStep s 0x30

/-- A relay message that fits no slot stops the step with reason 0x06 (14 R431); RR_ERR's UNIT is a free value (log 6). -/
def relayMessageFault (s : State) : State :=
  let (u, s) := drawFree s 8
  abortStep (wrAll s [(F.RR_ERR_VALID, 1), (F.RR_ERR_REASON, 0x06), (F.RR_ERR_UNIT, u)]) 0x30

/-- The inbox without the message at a place. -/
def takeMsg (s : State) (i : Nat) : State := { s with inbox := dropAt s.inbox i }

/-- The message at a place of the inbox is delivered or discarded: its buffer is freed. -/
def dropMsg (s : State) (i : Nat) (m : Msg) : State := freeMsg (takeMsg s i) m

/-- A message is held until its drain set ends (18 R527); it keeps its buffer. -/
def holdMsg (s : State) (m : Msg) : State :=
  bump { s with replay := { s.replay with held := s.replay.held ++ [m], dirty := true } } (F.ID_FLT_CNT_COUNT 4) 1

/-- A message is discarded unwritten before the module's drain report (18 R527). -/
def discardMsg (s : State) : State := bump { s with replay := { s.replay with dirty := true } } (F.ID_FLT_CNT_COUNT 5) 1

/-- The post of a LAST message (04 R106, 13 R398). -/
def messagePost (s : State) (m : Msg) : State :=
  if m.last && m.npost != 0 then
    match npostSlot m.tgt with
    | some x => { s with posts := s.posts ++ [⟨x, false, m.tgt % 64, m.npost⟩] }
    | none => s
  else s

/-- What a message that passes R399 is. -/
def classOf (s : State) (m : Msg) : RelayMsg := if armed s then relayClass s m else .plain

/-- MESSAGE_DELIVER (13 R398, R399; 14 R431, R437; 18 R527): a message that has arrived whole is checked and written, and the last of
a descriptor makes its post. Releases and chain values have commands of their own. -/
def execMessageDeliver (i : Nat) (s : State) : Host.Outcome State Fault Refusal :=
  .next (match inboxMsg s i with
    | none => s
    | some m =>
      let rest := dropMsg s i m
      if replaying s then (if s.replay.reported then holdMsg (takeMsg s i) m else discardMsg rest)
      else if strangerOn s m.vc m.src then bump rest (F.FAB_CNT_COUNT 2) 1
      else if heldForArm s m then s
      else if badRun m then messageFault (captureFab rest m) m
      else
        match classOf s m with
        | .record ch n k =>
          let s := stBytes rest m.addr m.data
          { s with relay := { s.relay with
              arrived := if s.relay.arrived.contains (ch, n, k) then s.relay.arrived else s.relay.arrived ++ [(ch, n, k)] } }
        | .duplicate => bump rest (F.RR_CNT_COUNT 4) 1
        | .bad => relayMessageFault (captureFab rest m)
        | .plain => messagePost (stBytes rest m.addr m.data) m
        | .release _ _ => s
        | .sums _ _ => s)

/-- A message of a relay channel that may be taken by its own command. -/
def relayMsg (s : State) (i : Nat) : Option (Msg × RelayMsg) :=
  match inboxMsg s i with
  | none => none
  | some m =>
    if replaying s || strangerOn s m.vc m.src || heldForArm s m || badRun m then none else some (m, classOf s m)

/-- RELAY_RELEASE_RECEIVE (14 R429): the REL word keeps the larger of its value and the successor's count. -/
def execRelayReleaseReceive (i : Nat) (s : State) : Host.Outcome State Fault Refusal :=
  .next (match relayMsg s i with
    | some (m, .release ch n) =>
      let v := max n (released s ch)
      let s := stN (dropMsg s i m) (s.relay.rel + 8 * ch) 8 v
      relaySettle (wr s (F.RR_STREAM_RELEASED_RELEASED (relayVc s ch)) v)
    | _ => s)

/-- CHAIN_SUMS_RECEIVE (14 R436): chain values from another rank are written; the LAST message completes their slot. -/
def execChainSumsReceive (i : Nat) (s : State) : Host.Outcome State Fault Refusal :=
  .next (match relayMsg s i with
    | some (m, .sums u kind) =>
      let s := stBytes (dropMsg s i m) m.addr m.data
      if m.last && !s.relay.chains.contains (u, kind) then
        { s with relay := { s.relay with chains := s.relay.chains ++ [(u, kind)] } }
      else s
    | _ => s)

/-! HURDLE flits. -/

/-- The first HURDLE flit of a KIND among those that have arrived. -/
def firstHurdle (s : State) (kind : Nat) : Option CtrlFlit := s.ctrlIn.find? (fun e => e.typ == 5 && leAt e.payload 4 1 == kind)

/-- Is a hurdle used by the loaded program? -/
def hurdleUsed (s : State) (h : Nat) : Bool :=
  match s.prog with
  | some p => decide (h < p.hurdles) && rd s (F.HD_CFG_LOCAL_EXPECT 0 h) != 0
  | none => false

/-- HD_STALE of every copy advances (04 R113). -/
def hurdleStale (s : State) : State :=
  (List.range 8).foldl (fun t d => raise (bump t (F.HD_STALE_COUNT d) 1) (dieSrc d 6)) s

/-- A member's arrival is counted in its epoch, or discarded (04 R113, 13 R400). -/
def countArrival (s : State) (h epoch rank : Nat) : State :=
  let e := hdEpoch s h
  let later := (e + 1) % 65536
  if epoch ≠ e ∧ epoch ≠ later then hurdleStale s
  else if s.hurdleBits.contains (h, epoch, rank) then bump s (F.FAB_CNT_COUNT 3) 1
  else
    let s := { s with hurdleBits := s.hurdleBits ++ [(h, epoch, rank)] }
    if epoch = e then hdSet s (fun d => F.HD_ARR_MEMBER_ARR d h) (rd s (F.HD_ARR_MEMBER_ARR 0 h) + 1)
    else hdSet s (fun d => F.HD_ARR_NEXT_ARR d h) (rd s (F.HD_ARR_NEXT_ARR 0 h) + 1)

/-- A HURDLE flit as a message a replay holds (18 R527). -/
def hurdleMsg (f : CtrlFlit) : Msg :=
  { vc := 6, dst := leAt f.payload 0 2, src := leAt f.payload 2 2, tag := 0, last := true, hops := leAt f.payload 11 1, tgt := 0, npost := 0,
    addr := 0, data := f.payload, cred := some (f.inPort, 12, 1) }

/-- What a replay does with a VC_6 flit that has arrived (18 R527). -/
def replayHurdle (s : State) (f : CtrlFlit) : State :=
  if s.replay.reported then holdMsg { s with ctrlIn := s.ctrlIn.erase f } (hurdleMsg f) else discardMsg (takeCtrl s f)

/-- A module that arrives at a hurdle runs its step again: its report of a replay is over (04 R119; DEDUCED, log 93). -/
def notReporting (s : State) (m : Nat) : State := { s with reporting := s.reporting.filter (fun x => x != m) }

/-- HURDLE_FLIT_RECEIVE (04 R113, 13 R400, 18 R527): an ARRIVE that has come is counted or discarded. A sender that is not the group's
member of its rank counts as the stranger of 13 R399 (DEDUCED, log 31). -/
def execHurdleFlitReceive (s : State) : Host.Outcome State Fault Refusal :=
  .next (match firstHurdle s 1 with
    | none => s
    | some f =>
      let p := f.payload
      let rest := takeCtrl s f
      let h := leAt p 5 1
      let vc := bits (leAt p 10 1) 0 3
      let rank := leAt p 8 2 % 1024
      if replaying s then replayHurdle s f
      else if !hurdleUsed s h || rd s (F.HD_CFG_SCOPE 0 h) != 1 || rd s (F.HD_CFG_VC 0 h) != vc then hurdleStale rest
      else if (members s vc)[rank]? ≠ some (leAt p 2 2 % 1024) then bump rest (F.FAB_CNT_COUNT 2) 1
      else countArrival (notReporting rest (leAt p 2 2 % 1024)) h (leAt p 6 2) rank)

/-- Have a hurdle's arrivals completed (04 R111)? -/
def hurdleFull (s : State) (h : Nat) : Bool :=
  hurdleUsed s h && rd s (F.HD_CFG_LOCAL_EXPECT 0 h) == rd s (F.HD_STAT_LOCAL_ARR 0 h) &&
    (rd s (F.HD_CFG_SCOPE 0 h) == 0 || rd s (F.HD_ARR_MEMBER_ARR 0 h) == rd s (F.HD_MEM_MEMBERS 0 h))

/-- HURDLE_PASS (04 R114; 14 R419; 17 R510): the epoch advances, the counts move on, TB_SYNC captures where it names the hurdle, and a
relay's triggers see the pass. -/
def execHurdlePass (h : Fin 256) (s : State) : Host.Outcome State Fault Refusal :=
  .next (if !hurdleFull s h.val || replaying s then s
    else
      let n := h.val
      let e := (hdEpoch s n + 1) % 65536
      let members := rd s (F.HD_ARR_NEXT_ARR 0 n)
      let s := hdSet s (fun d => F.HD_STAT_EPOCH d n) e
      let s := hdSet s (fun d => F.HD_STAT_LOCAL_ARR d n) 0
      let s := hdSet s (fun d => F.HD_ARR_MEMBER_ARR d n) members
      let s := hdSet s (fun d => F.HD_ARR_NEXT_ARR d n) 0
      let s := { s with hurdleBits := s.hurdleBits.filter (fun b => b.1 != n || b.2.1 == e)
                        relay := { s.relay with passes := mapPut s.relay.passes n (mapGet 0 s.relay.passes n + 1) } }
      let s := if rdb s F.TB_SYNC_CFG_EN && rd s F.TB_SYNC_CFG_HURDLE == n && rd s (F.HD_CFG_SCOPE 0 n) == 1 then
          wrAll s [(F.TB_SYNC_TIME, now s), (F.TB_SYNC_EPOCH_EPOCH, e)]
        else s
      relaySettle s)

/-- STEP_ABORT_RECEIVE (04 R118, 13 R400, 18 R527): an ABORT for the step that runs or awaits commit stops it and is passed on; one for
another step has no step to stop. During a replay it is discarded or held like every message of VC_6. Log 28 (DEDUCED). -/
def execStepAbortReceive (s : State) : Host.Outcome State Fault Refusal :=
  .next (match firstHurdle s 2 with
    | none => s
    | some f =>
      let rest := takeCtrl s f
      if replaying s then replayHurdle s f
      else
        match s.run with
        | some r => if r.step = leAt f.payload 12 4 then abortStep rest 0x32 else rest
        | none => rest)

/-! The copy into a spare, 01 R22. -/

/-- A core whose start waited for a copy goes on, unless it was stopped meanwhile. -/
def releaseCore (s : State) (c : CoreId) : State :=
  let x := core s c
  if !x.held then s
  else
    let s := setCore s c { x with held := false }
    if rd s (F.CO_SEQ_STAT_STATE c) = 0 then wr s (F.CO_SEQ_STAT_STATE c) 1 else s

/-- SPARE_COPY_DONE (01 R22): the copies of a cluster are complete, and its cores start where a step waits for them. -/
def execSpareCopyDone (k : ClusterId) (s : State) : Host.Outcome State Fault Refusal :=
  .next (
    let x := cluster s k
    if !x.copying then s
    else (coresOf k).foldl releaseCore (setCluster s k { x with copying := false, copies := [] }))

end Sys2Proof.Machine
end

