-- ==== Sys2Proof/Machine/Image.lean ====
section
/-!
DEFINITION. A program image: its header, records and tables, and the load checks that concern them alone (04 R123 to R128).
-/

namespace Sys2Proof.Machine

open Sys2Proof

/-! Parts of an image. -/

/-- A core stream (04 R124): the SLOT field, the instruction words, pacer limits, initial address bases. -/
structure ImgStream where
  slot   : Nat
  instrs : List Nat
  limits : List Nat
  ab     : List (Nat × Nat)
deriving DecidableEq, Repr

/-- A range record (04 R125). -/
structure ImgRange where
  base    : Nat
  len     : Nat
  access  : Nat
  initOff : Nat
  initLen : Nat
deriving DecidableEq, Repr

/-- A counter declaration (04 R127). -/
structure ImgDecl where
  slot    : Nat
  counter : Nat
  source  : Nat
  count   : Nat
deriving DecidableEq, Repr

/-- A parsed image. Routine and hurdle records are kept as their bytes. -/
structure Image where
  hdr      : List Byte
  streams  : List ImgStream
  routines : List (List Byte)
  hurdles  : List (List Byte)
  ranges   : List ImgRange
  decls    : List ImgDecl
deriving DecidableEq, Repr

/-- A field of the header. -/
def Image.h (m : Image) (off n : Nat) : Nat := leAt m.hdr off n

/-- n records of a size from an offset on. -/
def records (b : List Byte) (off n size : Nat) : List (List Byte) := (List.range n).map (fun i => sliceBytes b (off + size * i) size)

/-- The stream that a record describes. -/
def streamOfRec (b r : List Byte) : ImgStream :=
  { slot := leAt r 0 2
    instrs := (records b (leAt r 8 8) (min (leAt r 4 4) 4096) 16).map leNat
    limits := (List.range 16).map (fun i => leAt r (0x10 + 2 * i) 2)
    ab := (List.range 16).map (fun i => (leAt r (0x30 + 16 * i) 6, leAt r (0x38 + 16 * i) 6)) }

/-- Counts of an image's tables: streams, routines, hurdles, ranges, declarations. -/
def tableCounts (b : List Byte) : Nat × Nat × Nat × Nat × Nat :=
  (min (leAt b 0x10 4) 640, leAt b 0x18 4, min (leAt b 0x2C 2) 256, min (leAt b (leAt b 0x3C 4) 4) 4096,
   if leAt b 0x38 4 = 0 then 0 else min (leAt b (leAt b 0x38 4) 4) 65536)

/-- The image that bytes spell (04 R123 to R127). -/
def imageOf (b : List Byte) : Image :=
  let (ns, nr, nh, ng, nd) := tableCounts b
  { hdr := sliceBytes b 0 64
    streams := (records b (leAt b 0x14 4) ns 320).map (streamOfRec b)
    routines := records b (leAt b 0x1C 4) nr 16
    hurdles := records b (leAt b 0x30 4) nh 8
    ranges := (records b (leAt b 0x3C 4 + 8) ng 32).map (fun r => ⟨leAt r 0 6, leAt r 8 6, leAt r 0x10 1, leAt r 0x14 4, leAt r 0x18 4⟩)
    decls := (records b (leAt b 0x38 4 + 8) nd 8).map (fun r => ⟨leAt r 0 2, leAt r 2 1, leAt r 3 1, leAt r 4 4⟩) }

/-- The slot that a SLOT field names: [10:8] die, [7:4] cluster, [2:0] slot (04 R124); none where the cluster is none of ten. -/
def slotOfField (v : Nat) : Option SlotId := slotOfBits (bits v 8 3 * 128 + bits v 4 4 * 8 + bits v 0 3)

/-- The cluster that a CLUSTER field names: [10:8] die, [7:4] cluster (04 R126). -/
def clusterOfField (v : Nat) : Option ClusterId := (slotOfField (v / 16 * 16)).map SlotId.cluster

/-! Detail 0x01: bounds. -/

/-- n bytes from an offset lie within the image. -/
def insideImg (b : List Byte) (off n : Nat) : Bool := decide (off + n ≤ b.length)

/-- Check 0x01 of 04 R128; len is the LEN of the command. -/
def bounds01 (b : List Byte) (len : Nat) : Bool :=
  insideImg b 0 64 && leAt b 0 4 == 0x4B594D31 && leAt b 4 2 == 1 && leAt b 8 8 == len && b.length == len
    && decide (1 ≤ leAt b 0x10 4 ∧ leAt b 0x10 4 ≤ 640) && decide (leAt b 0x28 4 ≤ 65536) && decide (leAt b 0x2C 2 ≤ 256)
    && leAt b 0x34 4 != 0
    && insideImg b (leAt b 0x14 4) (320 * leAt b 0x10 4) && insideImg b (leAt b 0x1C 4) (16 * leAt b 0x18 4)
    && insideImg b (leAt b 0x30 4) (8 * leAt b 0x2C 2)
    && (leAt b 0x38 4 == 0 || (insideImg b (leAt b 0x38 4) 8 && decide (leAt b (leAt b 0x38 4) 4 ≤ 65536)
          && insideImg b (leAt b 0x38 4) (8 + 8 * leAt b (leAt b 0x38 4) 4)))
    && insideImg b (leAt b 0x3C 4) 8 && decide (1 ≤ leAt b (leAt b 0x3C 4) 4 ∧ leAt b (leAt b 0x3C 4) 4 ≤ 4096)
    && insideImg b (leAt b 0x3C 4) (8 + 32 * leAt b (leAt b 0x3C 4) 4)
    && (records b (leAt b 0x14 4) (tableCounts b).1 320).all (fun r =>
        decide (1 ≤ leAt r 4 4 ∧ leAt r 4 4 ≤ 4096) && insideImg b (leAt r 8 8) (16 * leAt r 4 4))
    && (imageOf b).routines.all (fun r => leAt r 1 1 != 0 || insideImg b (leAt r 8 4) (leAt r 0xC 4))
    && (imageOf b).ranges.all (fun r => r.len != 0 && decide (r.initLen ≤ r.len) && insideImg b r.initOff r.initLen)

/-! Detail 0x02: reserved fields. -/

/-- Operand bits that an opcode uses, as (lowest bit, width) of the word (04 R101; 05 R140 to R143; 06 R175, R176; 10 R315; 11 R333). -/
def usedBits (eng op : Nat) : List (Nat × Nat) :=
  match eng, op with
  | 0, 0x03 => [(64, 12)]
  | 0, 0x04 => [(64, 3), (96, 32)]
  | 0, 0x05 => [(64, 3), (76, 12)]
  | 0, 0x06 => [(64, 4), (80, 48)]
  | 0, 0x07 => [(64, 4), (72, 24), (96, 32)]
  | 0, 0x08 => [(64, 8), (72, 2)]
  | 0, 0x09 => [(64, 32)]
  | 0, 0x0A => [(64, 10)]
  | 1, 0x01 => [(64, 58)]
  | 1, 0x02 => [(64, 3), (80, 32)]
  | 2, 0x01 => [(64, 31)]
  | 3, 0x01 => [(64, 57)]
  | 3, 0x02 => [(64, 6), (80, 48)]
  | 3, 0x03 => [(64, 4), (96, 32)]
  | 4, 0x01 => [(64, 14)]
  | 5, 0x01 => [(64, 17), (96, 32)]
  | 5, 0x02 => [(64, 4), (73, 4)]
  | 5, 0x03 => [(64, 4)]
  | 5, 0x04 => [(64, 48)]
  | _, _ => []

/-- Bits in use of each word of a chain configuration slot (06 R177). -/
def cfgBits (word : Nat) : Nat :=
  match word with
  | 0 => 34
  | 1 => 18
  | 2 => 30
  | _ => 36

/-- Is the opcode one of an engine's (04 R101; 05 R139; 06 R176; 10 R315; 11 R333)? -/
def opcodeOk (eng op : Nat) : Bool :=
  match eng with
  | 0 => decide (op ≤ 0x0B)
  | 1 => op == 1 || op == 2
  | 2 => op == 1
  | 3 => decide (1 ≤ op ∧ op ≤ 3)
  | 4 => op == 1
  | 5 => decide (1 ≤ op ∧ op ≤ 4)
  | _ => false

/-- Every reserved field of an instruction word is 0 (04 R100). -/
def instrClean (w : Nat) : Bool :=
  bits w 12 4 == 0 && bits w 31 1 == 0 && bits w 58 6 == 0 &&
    (!opcodeOk (engOf w) (opc w) ||
      ((usedBits (engOf w) (opc w)).foldl (fun v e => setBits v e.1 e.2 0) w / 2 ^ 64 == 0
        && !(engOf w == 3 && opc w == 2 && bits w 80 48 / 2 ^ cfgBits (bits w 68 2) != 0)))

/-- A SLOT field's other bits are 0. -/
def slotClean (v : Nat) : Bool := bit v 3 == false && v / 2 ^ 11 == 0

/-- Check 0x02 of 04 R128. -/
def reserved02 (b : List Byte) (m : Image) : Bool :=
  m.h 6 2 / 2 == 0 && m.h 0x2E 2 == 0
    && (records b (leAt b 0x14 4) (tableCounts b).1 320).all (fun r =>
        slotClean (leAt r 0 2) && leAt r 2 2 == 0 && leAt r 0x130 16 == 0
          && (List.range 32).all (fun i => leAt r (0x36 + 8 * i) 2 == 0))
    && m.streams.all (fun s => s.instrs.all instrClean)
    && leAt b (leAt b 0x3C 4 + 4) 4 == 0
    && (records b (leAt b 0x3C 4 + 8) (tableCounts b).2.2.2.1 32).all (fun r =>
        leAt r 6 2 == 0 && leAt r 0xE 2 == 0 && leAt r 0x10 1 / 32 == 0 && leAt r 0x11 3 == 0 && leAt r 0x1C 4 == 0
          && (leAt r 0x18 4 != 0 || leAt r 0x14 4 == 0))
    && m.routines.all (fun r => leAt r 0 1 / 64 == 0 && leAt r 3 1 == 0 && leAt r 4 2 % 16 == 0 && leAt r 4 2 / 2 ^ 11 == 0
        && leAt r 6 2 == 0)
    && m.hurdles.all (fun r => leAt r 0 1 / 4 == 0 && leAt r 1 1 / 8 == 0 && leAt r 4 4 == 0)
    && (leAt b 0x38 4 == 0 || leAt b (leAt b 0x38 4 + 4) 4 == 0)
    && m.decls.all (fun d => slotClean d.slot && !bit d.counter 7)

/-! Detail 0x03: codes that need no walk. -/

/-- The firmware OP codes that a routine record may name (08 R238, 14 R415). -/
def fwOp (v : Nat) : Bool := decide (1 ≤ v ∧ v ≤ 8) || v == 0x10

/-- A record has the number and cluster of another. -/
def sameRoutine (a b : List Byte) : Bool := leAt a 0 1 == leAt b 0 1 && leAt a 4 2 == leAt b 4 2

/-- The routine records of 04 R126. -/
def routinesOk (m : Image) : Bool :=
  m.routines.all (fun r =>
    (clusterOfField (leAt r 4 2)).isSome && (m.routines.filter (sameRoutine r)).length == 1 &&
      (if leAt r 1 1 = 0 then
          leAt r 2 1 == 0 && leAt r 8 4 % 4 == 0 && leAt r 0xC 4 % 4 == 0 && decide (4 ≤ leAt r 0xC 4 ∧ leAt r 0xC 4 ≤ 32768)
            && decide (((m.routines.filter (fun q => leAt q 1 1 == 0 && leAt q 4 2 == leAt r 4 2)).map (fun q => leAt q 0xC 4)).sum ≤ 32768)
        else leAt r 1 1 == 1 && fwOp (leAt r 2 1) && leAt r 8 4 == 0 && leAt r 0xC 4 == 0))

/-- The hurdle records of 04 R127. -/
def hurdlesOk (m : Image) : Bool :=
  m.hurdles.all (fun r =>
    decide (leAt r 2 2 ≤ 640) && (if leAt r 0 1 % 4 = 0 then leAt r 1 1 % 8 == 0 else leAt r 0 1 % 4 == 1 && decide (leAt r 1 1 % 8 ≤ 5)))

/-- The counter declarations of 04 R127. -/
def declsOk (m : Image) : Bool := m.decls.all (fun d => decide (d.source ≤ 1) && (d.source == 1 || !bit d.counter 6))

/-- A routine record for a number and a cluster. -/
def routineFor (m : Image) (k : ClusterId) (n : Nat) : Option (List Byte) :=
  m.routines.find? (fun r => leAt r 0 1 == n && clusterOfField (leAt r 4 2) == some k)

/-- A TB_CFG's fields (05 R145, R146; 03 R77). -/
def tbCfgOk (v : Nat) : Bool :=
  decide (tbSfmt v ≤ 3) && decide (tbFfmt v ≤ 3)
    && (match tbSfmt v, tbFfmt v with
        | 1, 0 => false
        | 2, 0 => false
        | 3, 0 => false
        | 3, 1 => false
        | 3, 2 => false
        | _, _ => true)
    && (tbSfmt v != tbFfmt v || tbShift v == 0) && decide (tbSmode v ≤ 5)
    && (if tbSmode v = 1 then tbFixed v != 0xFF else tbFixed v == 0) && !(tbGaxis v && decide (tbSmode v < 3))

/-- A MAC's fields that its word alone decides (05 R145): KLEN, MASK, an address base without a mask or record, a depth-wise pass with a mask. -/
def macWordOk (w : Nat) : Bool :=
  let mask := bits w 115 2
  bits w 81 4 != 0 && mask != 3 && (mask != 0 || bit w 121 || bits w 117 4 == 0) && !(bit w 121 && mask != 0)

/-- The codes of one word of a configuration slot (06 R177, R183, R184, R206; 02 R40, R51; 03 R77, R86), whether or not a VX uses them. -/
def chWordOk (word v : Nat) : Bool :=
  let sel := fun (lo : Nat) => bits v lo 3 != 7
  match word with
  | 0 => bits v 10 2 != 3 && fmtWidth (bits v 12 4) != 0 && decide (bits v 16 3 ≤ 5) && decide (bits v 20 3 ≤ 4)
      && decide (bits v 23 3 ≤ 4) && (bits v 16 3 == 0 || decide (bits v 12 4 ≤ 3))
  | 1 => [0, 3, 6, 9, 12, 15].all sel
  | 2 => sel 5 && sel 20 && bits v 8 2 != 3 && bits v 10 2 != 3 && decide (bits v 16 4 ≤ 8) && decide (bits v 24 3 ≤ 4) && decide (bits v 27 2 ≤ 1)
  | _ => cvtPlainOk (bits v 4 3) && fmtWidth (bits v 0 4) != 0 && decide (bits v 7 3 ≤ 5) && (bits v 7 3 == 0 || decide (bits v 0 4 ≤ 3))
      && (if bits v 7 3 = 1 then bits v 10 8 != 0xFF else bits v 10 8 == 0) && (bits v 7 3 != 2 || bit v 18) && (bit v 18 || bits v 19 16 == 0)

/-- The codes of one instruction that its word alone decides (04 R101, 05 R145, 06 R206, 10 R316). -/
def instrCodesOk (m : Image) (x : Option SlotId) (w : Nat) : Bool :=
  opcodeOk (engOf w) (opc w) &&
    (match engOf w, opc w with
     | 0, 0x08 => hurdleMode w != 0
     | 0, 0x0A => (match x with
        | some y => (routineFor m y.cluster (bits w 64 6)).isSome
        | none => true)
     | 1, 0x01 => macWordOk w
     | 2, 0x01 => tbCfgOk (w / 2 ^ 64)
     | 3, 0x02 => chWordOk (bits w 68 2) (bits w 80 48)
     | 5, 0x01 => decide (bits w 68 4 ≤ 3) && bits w 96 32 != 0
     | 5, 0x04 => decide (bits w 68 4 ≤ 3) && bits w 104 8 != 0
     | _, _ => true)

/-- The part of check 0x03 that needs no walk. -/
def codes03 (m : Image) : Bool :=
  m.streams.all (fun s => s.instrs.all (instrCodesOk m (slotOfField s.slot))) && routinesOk m && hurdlesOk m && declsOk m

/-! Details 0x04 to 0x06. -/

/-- A slot that is mapped (01 R24). -/
def slotMapped (s : State) (x : Option SlotId) : Bool :=
  match x with
  | some y => (slotCore s y).isSome
  | none => false

/-- Check 0x04 of 04 R128. -/
def slots04 (s : State) (m : Image) : Bool :=
  m.streams.all (fun t => slotMapped s (slotOfField t.slot) && (m.streams.filter (fun u => u.slot == t.slot)).length == 1
      && t.instrs.all (fun w => !postRemote w || slotMapped s (slotOfBits (postSlot w))))
    && m.decls.all (fun d => slotMapped s (slotOfField d.slot))

/-- The pacer of a slot may be used: its index is below 16 and its limit in the image is not 0. -/
def pacerUsable (m : Image) (x : Option SlotId) (n : Nat) : Bool :=
  decide (n ≤ 15) && (match m.streams.find? (fun t => slotOfField t.slot == x) with
    | some t => t.limits.getD n 0 != 0
    | none => false)

/-- The slot that an instruction posts to. -/
def postTarget (x : Option SlotId) (w : Nat) : Option SlotId := if postRemote w then slotOfBits (postSlot w) else x

/-- Check 0x05 of 04 R128. -/
def pacers05 (m : Image) : Bool :=
  m.streams.all (fun t => t.instrs.all (fun w =>
      (!waitPacer w || (decide (waitIdx w ≤ 15) && (waitCnt w == 0 || pacerUsable m (slotOfField t.slot) (waitIdx w))))
        && (!postPacer w || (decide (postIdx w ≤ 15) && (postCnt w == 0 || pacerUsable m (postTarget (slotOfField t.slot) w) (postIdx w))))))
    && m.decls.all (fun d => !bit d.counter 6 || pacerUsable m (slotOfField d.slot) (d.counter % 64))

/-- Check 0x06 of 04 R128: one engine waits on a baton counter. -/
def batons06 (m : Image) : Bool :=
  m.streams.all (fun t =>
    let ws := (t.instrs.filter (fun w => waitCnt w != 0 && !waitPacer w)).map (fun w => (waitIdx w, engOf w))
    ws.all (fun e => ws.all (fun g => e.1 != g.1 || e.2 == g.2)))

/-! Detail 0x07, the part that needs no walk. -/

/-- Is the instruction at an index a LAP_SET or a LOOP of a counter? -/
def lapOp (ws : List Nat) (op lap i : Nat) : Bool :=
  match ws[i]? with
  | some w => engOf w == 0 && opc w == op && bits w 64 3 == lap
  | none => false

/-- A LOOP at an index is closed by its own LAP_SET (04 R109). -/
def loopClosed (ws : List Nat) (at_ : Nat) (w : Nat) : Bool :=
  let lap := bits w 64 3
  let t := bits w 76 12
  decide (t ≤ at_) && (List.range (at_ - t)).all (fun i => !lapOp ws 0x04 lap (t + i) && !lapOp ws 0x05 lap (t + i)) &&
    (match ((List.range t).reverse).find? (lapOp ws 0x04 lap) with
     | none => false
     | some p =>
       (List.range (t - p - 1)).all (fun i => !lapOp ws 0x05 lap (p + 1 + i))
         && (ws.mapIdx (fun i v => (i, v))).all (fun e =>
              !(engOf e.2 == 0 && opc e.2 == 0x03) || decide (p < e.1 ∧ e.1 ≤ at_) || !decide (p < bits e.2 64 12 ∧ bits e.2 64 12 ≤ at_)))

/-- JUMP and LOOP targets lie within the stream, and every LOOP is closed (04 R128). -/
def targets07 (m : Image) : Bool :=
  m.streams.all (fun t => (t.instrs.mapIdx (fun i w => (i, w))).all (fun e =>
    if engOf e.2 = 0 ∧ opc e.2 = 0x03 then decide (bits e.2 64 12 < t.instrs.length)
    else if engOf e.2 = 0 ∧ opc e.2 = 0x05 then decide (bits e.2 76 12 < t.instrs.length) && loopClosed t.instrs e.1 e.2
    else true))

/-! Details 0x0B and 0x0C. -/

/-- A history record as the host placed it is valid (03 R90), its reserved bits 0 (00 R9). Log 38 (DESIGN CHOICE: detail 0x0B for the
reserved bits). -/
def historyOk (r : List Byte) : Bool :=
  decide (leAt r 0x47 1 % 16 ≤ 3) && leAt r 0x44 1 != 0xFF && leAt r 0x47 1 / 128 == 0 && leAt r 0x45 1 / 32 == 0
    && leAt r 0x46 1 / 16 == 0 && leAt r 0x6C 20 == 0

/-- The history table may be used (03 R90): in populated HBM outside firmware areas, no line that is read poisoned, every record
valid. -/
def history0B (s : State) (m : Image) : Bool :=
  let base := m.h 0x20 8
  let n := m.h 0x28 4
  n == 0 || (hbmRange base (128 * n) && !reachesFirmware base (128 * n)
    && (List.range n).all (fun i => !poisonedAt s (base + 128 * i + 0x44) && !poisonedAt s (base + 128 * i + 0x7F))
    && (List.range n).all (fun i => historyOk (ldBytes s (base + 128 * i) 128)))

/-- A run reaches a stack at or above its limit once a retirement is pending or done, or any address of a FAILING stack
(11 R326, R327). -/
def lostHbm (s : State) (a n : Nat) : Bool :=
  match regionOf a with
  | .hbm i off => rdb s (F.HBM_STAT_FAILING i) ||
      ((rdb s (F.HBM_STAT_RET_PENDING i) || rdb s (F.HBM_STAT_RET_VALID i)) && decide (rd s (F.HBM_LIMIT_LIMIT i) < off + n))
  | _ => false

/-- A run meets the range that a staged firmware image locks (19 R550). -/
def stagedMeets (s : State) (a n : Nat) : Bool :=
  match s.staged with
  | some l => rangesMeet a n l.1 l.2
  | none => false

/-- Check 0x0C of 04 R128. -/
def ranges0C (s : State) (m : Image) : Bool :=
  m.ranges.all (fun r =>
    (bit r.access 0 || bit r.access 1 || bit r.access 3) && populatedRun r.base r.len && !reachesFirmware r.base r.len
      && (match regionOf r.base with
          | .coreStore x _ => (slotCore s x).isSome
          | _ => true)
      && (m.ranges.filter (fun q => rangesMeet r.base r.len q.base q.len)).length == 1
      && !lostHbm s r.base r.len
      && !stagedMeets s r.base r.len
      && !(bit r.access 1 && (match s.pair with
            | some (pa, _, pl) => rangesMeet r.base r.len pa pl
            | none => false)))

end Sys2Proof.Machine
end

