-- ==== Sys2Proof/Machine/Walk.lean ====
section
/-!
DEFINITION. The loader's walk: each stream followed with loops unrolled, its configuration checks, its accesses, and the counts of
posts, waits and hurdles over the step (04 R112, R128; 05 R145; 06 R206; 09 R257 to R261, R274; 10 R296, R316; 11 R340).
-/

namespace Sys2Proof.Machine

open Sys2Proof

/-! The flow of a stream. -/

/-- One executed instruction of a walk: its index, its word, the address bases as it is dispatched. -/
structure WOcc where
  idx  : Nat
  word : Nat
  ab   : List Nat
deriving DecidableEq, Repr

/-- Where a walk stands. -/
structure WPos where
  pc   : Nat
  laps : NMap Nat
  cur  : List Nat
  base : List Nat
deriving DecidableEq, Repr

/-- The place after an instruction (04 R101, R109, R110). -/
def walkNext (p : WPos) (w : Nat) : WPos :=
  let q := { p with pc := p.pc + 1 }
  if engOf w ≠ 0 then q
  else
    match opc w with
    | 0x03 => { p with pc := bits w 64 12 }
    | 0x04 => { q with laps := mapPut p.laps (bits w 64 3) (bits w 96 32) }
    | 0x05 =>
      let n := mapGet 0 p.laps (bits w 64 3)
      if n = 0 then q
      else
        let q := { q with laps := mapPut p.laps (bits w 64 3) (n - 1) }
        if n = 1 then q else { q with pc := bits w 76 12 }
    | 0x06 => { q with cur := p.cur.set (bits w 64 4) (bits w 80 48), base := p.base.set (bits w 64 4) (bits w 80 48) }
    | 0x07 =>
      let a := bits w 64 4
      { q with cur := p.cur.set a (abAdd (p.cur.getD a 0) (p.base.getD a 0) (bits w 72 24) (signed 32 (bits w 96 32))) }
    | _ => q

/-- Follow a stream: the executed instructions, last first, and whether the flow reached an END_STEP. -/
def walkFrom (ws : List Nat) : Nat → WPos → List WOcc → List WOcc × Bool
  | 0, _, out => (out, false)
  | fuel + 1, p, out =>
    match ws[p.pc]? with
    | none => (out, false)
    | some w =>
      let out := ⟨p.pc, w, p.cur⟩ :: out
      if engOf w = 0 ∧ opc w = 0x0B then (out, true) else walkFrom ws fuel (walkNext p w) out

/-- More instructions than there are places and values of the lap counters: a flow that goes on so long never ends. -/
def walkFuel : Nat := 2 ^ 268 + 1

/-- The walk of a stream (04 R128, check 0x07). -/
def walkStream (t : ImgStream) : List WOcc × Bool :=
  let r := walkFrom t.instrs walkFuel ⟨0, [], t.ab.map (fun e => e.1), t.ab.map (fun e => e.2)⟩ []
  (r.1.reverse, r.2)

/-! What each executed instruction reads, writes and posts. -/

/-- An executed instruction with what the loader derives of it. -/
structure WOp where
  stream : Nat
  slot   : SlotId
  pos    : Nat
  word   : Nat
  reads  : List (Nat × Nat) := []
  early  : List (Nat × Nat) := []        -- source reads of a marked descriptor (10 R312)
  atDispatch : List (Nat × Nat) := []
  writes : List (Nat × Nat) := []
  posts  : List Post := []               -- NPOST posts of MCAST (11 R338)
  vcs    : List Nat := []                -- channel of a REMOTE descriptor (11 R339)
  good   : Bool := true                  -- check 0x03
  hist   : List Nat := []                -- history indices named (check 0x0B)
  expands : Bool := false                -- an expanding descriptor without the early mark (10 R312)
  packs  : Option Nat := none            -- plain bytes that a CX_PACK claims (10 R315)
  handoff : Option (Nat × Nat) := none   -- format and bytes handed to the packer
deriving DecidableEq, Repr

/-- The location that stands for a codec table slot in the check of accesses (10 R296). -/
def slotPlace (k : ClusterId) (n : Nat) : Nat × Nat := (2 ^ 60 + 16 * k.key + n, 1)

/-- Bytes that the image holds: the initial contents of a range that no step and no other module writes (11 R340). -/
def heldInImage (m : Image) (a n : Nat) : Bool :=
  m.ranges.any (fun r => decide (r.base ≤ a ∧ a + n ≤ r.base + r.initLen) && !bit r.access 1 && !bit r.access 3)

/-! Check 0x03 of a MAC, 05 R145, 09 R257, R274. -/

/-- Greatest KLEN of a fed format in elements (05 R140): the reduction length of a pass. -/
def klenMax (ffmt : Nat) : Nat := if ffmt = 0 then 256 else if ffmt = 3 then 64 else 128

/-- The ring after a depth-wise pass, and whether every tap finds its position (09 R274). -/
def ringAfter (ffmt : Nat) (r : WRec) (d : DwRec) (ring : NMap Nat) : NMap Nat × Bool :=
  let n := ringSize ffmt
  if outCount r ≤ d.first then (ring, true)
  else
  let ring := if d.reset then [] else ring
  let ring := (List.range d.count).foldl (fun (m : NMap Nat) i => mapPut m ((d.start + i) % n) (d.start + i)) ring
  (ring, (dwReads r d).all (fun l => l.all (fun e => match e with
    | some p => mapFind ring (p % n) == some p
    | none => true)))

/-- A depth-wise record's own fields (09 R257, R274). -/
def dwOk (b : List Byte) (ffmt : Nat) : Bool :=
  leAt b 6 2 == 0 && leAt b 0 6 % 64 == 0 && decide (leAt b 0x10 2 ≤ ringSize ffmt) && leAt b 0x12 1 / 2 == 0 && leAt b 0x13 13 == 0

/-- Two operands with groups along the reduction have the same G (03 R85). -/
def groupsAgree (ca cb : Nat) : Bool :=
  let ga := groupSize (tbSmode ca)
  let gb := groupSize (tbSmode cb)
  ga == 0 || gb == 0 || !alignedOp ca || !alignedOp cb || ga == gb

/-- A MAC's fields under its two configurations (05 R145). -/
def macOk (w ca cb : Nat) : Bool :=
  let dw := bit w 121
  let mask := bits w 115 2
  let k := 32 * bits w 81 4
  tbFfmt ca == tbFfmt cb && groupsAgree ca cb && decide (1 ≤ k ∧ k ≤ klenMax (tbFfmt ca)) && mask != 3
    && (mask != 0 || dw || bits w 117 4 == 0)
    && (decide (2 ≤ tbSmode ca) || bits w 95 10 == 0) && (decide (2 ≤ tbSmode cb) || bits w 105 10 == 0)
    && (!dw || (mask == 0 && k == klenMax (tbFfmt ca)))

/-! Check 0x03 of a VX, 06 R180 to R206. -/

/-- Placement of a vector register operand (06 R180, R206). -/
def vrPlaced (v : VxIns) (idx : Nat) : Bool :=
  if v.cols then idx == 0 && decide (v.vstart + v.vlen ≤ 64) else v.vstart == 0 && decide (idx + v.vlen ≤ 64)

/-- Placement of source and destination (06 R175, R180). DESIGN CHOICE, log 38: what the spec leaves open of the index fields is refused: a
bit above an address base in the index of a core-store operand, an index where there is no destination. -/
def vxPlaced (v : VxIns) : Bool :=
  (match v.src with
   | 0 => vrPlaced v v.srcIdx
   | 1 => !v.cols && v.vstart == 0 && decide (v.srcIdx < 16)
   | _ => decide (v.vstart + v.vlen ≤ 64) && v.srcIdx == 0)
  && (match v.dst with
   | 1 => vrPlaced v v.dstIdx
   | 2 => !v.cols && v.vstart == 0 && decide (v.dstIdx < 16)
   | 3 => decide (2 ≤ v.src) && v.dstIdx == 0
   | _ => v.dstIdx == 0)
  && (!v.uses 1 || bits v.w0 20 3 != 0 || vrPlaced v v.uVr) && (!v.uses 2 || bits v.w0 23 3 != 0 || vrPlaced v v.wVr)

/-- Banks that a VX needs held once its TAKE is made (06 R183, R199, R206): BANK mode names one whether or not a stage uses the operand. -/
def banksNeeded (v : VxIns) : Nat :=
  let bank := bits v.w0 20 3 == 4 || bits v.w0 23 3 == 4
  max (max (if v.src = 2 then 1 else if v.src = 3 then 2 else 0) (if bank then (if v.src = 2 then 2 else 1) else 0))
    (if v.rel = 3 then 0 else v.rel)

/-- The codes of a configuration are defined (06 R177, R183, R184, R206). -/
def vxCodes (v : VxIns) : Bool :=
  let sels := [bits v.w1 0 3, bits v.w1 3 3, bits v.w1 6 3, bits v.w1 9 3, bits v.w1 12 3, bits v.w1 15 3, bits v.w2 5 3, bits v.w2 20 3]
  sels.all (fun x => x != 7) && v.itype != 3 && decide (bits v.w0 20 3 ≤ 4) && decide (bits v.w0 23 3 ≤ 4)
    && bits v.w2 8 2 != 3 && bits v.w2 10 2 != 3 && decide (bits v.w2 16 4 ≤ 8) && decide (bits v.w2 24 3 ≤ 4)
    && decide (bits v.w2 27 2 ≤ 1) && decide (bits v.w0 16 3 ≤ 5) && fmtWidth (bits v.w0 12 4) != 0
    && decide (bits v.w3 7 3 ≤ 5) && fmtWidth (bits v.w3 0 4) != 0 && v.rel != 3

/-- The destination's format and scale (03 R77, R86; 02 R51; 06 R197, R206). -/
def vxDest (v : VxIns) : Bool :=
  if !v.en 8 then v.w3 % 2 ^ 35 == 0
  else
    let sm := bits v.w3 7 3
    let fmt := bits v.w3 0 4
    cvtPlainOk (bits v.w3 4 3) && (sm == 0 || decide (fmt ≤ 3)) && (if sm = 1 then bits v.w3 10 8 != 0xFF else bits v.w3 10 8 == 0)
      && (sm != 2 || bit v.w3 18) && (bit v.w3 18 || bits v.w3 19 16 == 0)
      && (v.dst == 2 || v.dst == 0 || (sm == 0 && (match Fmt.ofCode fmt with
            | some f => f == .k32 || f == .i32 || f == .u32
            | none => false)))

/-- Is a function table empty (06 R189)? -/
def tableEmpty (s : State) (v : VxIns) : Bool :=
  let p := mapGet ⟨0, []⟩ s.ftabs (bits v.w2 0 4)
  leAt (p.data.drop (if bit v.w2 4 then ftBytes else 0)) 0 2 == 0

/-- A floating format code. -/
def floatCode (c : Nat) : Bool :=
  match Fmt.ofCode c with
  | some f => !f.isInt
  | none => false

/-- The conditions of 06 R206; held counts the banks held before the VX. -/
def vxOk (s : State) (v : VxIns) (held : Nat) : Bool :=
  let int := v.itype != 0
  let csop := bits v.w2 16 4
  let g := groupSize (bits v.w0 16 3)
  v.en 1 && (v.en 0 == (v.src == 1)) && (v.en 9 == (v.dst == 2)) && vxDest v && vxPlaced v && vxCodes v
    && bits v.w0 16 3 != 1 && (bits v.w0 16 3 == 0 || decide (bits v.w0 12 4 ≤ 3))
    && (!bit v.w0 19 || g == 0 || 2 * v.vlen % g == 0)
    && !(v.take && held == 2) && decide (banksNeeded v ≤ held + b2n v.take)
    && !(v.en 4 && int) && !(v.en 7 && int && (bits v.w2 24 3 == 1 || bits v.w2 24 3 == 4)) && !(v.en 4 && tableEmpty s v)
    && !(v.src == 1 && int && floatCode (bits v.w0 12 4))
    && (!(v.en 6 && decide (2 ≤ csop ∧ csop ≤ 7)) || bit v.w2 23)
    && (!(v.en 5 && bit v.w2 15) || (if v.cols then bits v.w0 23 3 == 2 else bits v.w0 23 3 == 1))

/-! Check 0x03 of a descriptor, 11 R340. -/

/-- What a descriptor held in the image must meet before any step runs (11 R340; 09 R257); s has the image's ranges in force. What depends
on the run (a gather's indices and so its rows, the bindings) is checked when it is taken. -/
def descLoadOk (s : State) (m : Image) (c : CoreId) (d : Desc) : Bool :=
  let w := descWindow s d
  let reads := (if d.kind = 2 then [] else dataRuns s d w) ++ scaleRuns d w ++ auxRuns d
  (headReason s c d).isNone && !windowBad s d w && !addrBad s c d reads && !mcastBad c d (loadData s d w)
    && !(d.remote && (decide (5 < d.vc) || d.dmod == moduleId s || !(dstRuns c d).all hbmRun || decide (2 ^ 30 < remoteLen c d)))
    && !overlapBad c d reads && (d.kind != 3 || heldInImage m d.aux 64)

/-- The descriptors that a CALL_CC routine builds at run time count as accesses of every range that run-time descriptors reach, in the directions
its record declares, but for the stores of other clusters (04 R125). RR_ARM builds none (14 R415). Log 32 (DEDUCED). -/
def runtimeRanges (m : Image) (k : ClusterId) (w : Nat) : List (Nat × Nat) × List (Nat × Nat) :=
  match routineFor m k (bits w 64 6) with
  | none => ([], [])
  | some r =>
    if leAt r 1 1 = 1 ∧ leAt r 2 1 = 0x10 then ([], [])
    else
      let l := m.ranges.filter (fun q => bit q.access 4 && clusterReaches k q.base)
      ((l.filter (fun q => bit q.access 0)).map (fun q => (q.base, q.len)), (l.filter (fun q => bit q.access 1)).map (fun q => (q.base, q.len)))

/-- The whole range that holds an address, in the directions that its record declares: reads, writes (04 R125). -/
def wholeRange (m : Image) (a : Nat) : List (Nat × Nat) × List (Nat × Nat) :=
  match m.ranges.find? (fun r => decide (r.base ≤ a ∧ a < r.base + r.len)) with
  | some r => (if bit r.access 0 then [(r.base, r.len)] else [], if bit r.access 1 && bit r.access 4 then [(r.base, r.len)] else [])
  | none => ([], [])

/-- The rows of a GATHER count as a read of the whole range that holds SRC (04 R125; DEDUCED, log 32). -/
def derivedReads (s : State) (m : Image) (d : Desc) (w : WRec) : List (Nat × Nat) :=
  if d.kind = 2 then
    (wholeRange m d.src).1 ++ [(d.aux, 4 * d.n1)] ++ (if d.ssc.smode < 2 then [] else [(d.ssc.addr, scaleLen d.ssc (srcDims d w))])
  else srcRuns s d w

/-- What the loader derives of a DX. -/
def walkDx (s : State) (m : Image) (c : CoreId) (o : WOp) (ab : List Nat) : WOp :=
  let a := ab.getD (bits o.word 64 4) 0
  let d := descOf (ldBytes s a 128) (dxAdd { seq := 0, idx := 0, word := o.word, ab := ab })
  if !heldInImage m a 128 then { o with good := false }
  else
    let w := descWindow s d
    let reads := derivedReads s m d w
    { o with
      good := descLoadOk s m c d
      atDispatch := [(a, 128)]
      reads := (if d.early then [] else reads) ++ (if d.mode = 1 ∨ d.mode = 2 then [slotPlace c.cluster d.tslot] else [])
      early := if d.early then reads else []
      writes := if d.remote then [] else dstRuns c d
      posts := mcastPosts c d
      vcs := if d.remote then [d.vc] else []
      expands := d.mode == 2 && !d.early
      hist := (if d.ssc.amax then [d.ssc.hist] else []) ++ (if d.dsc.amax then [d.dsc.hist] else []) }

/-! The walk of one stream with its configuration. -/

/-- State of the walk's checks: slots of the turn buffer that have been written, banks held, the window ring. -/
structure WCfg where
  tbSet : List Nat := []
  held  : Nat := 0
  ring  : NMap Nat := []
deriving DecidableEq, Repr

/-- Runs of operands. -/
def operandRuns (l : List Operand) : List (Nat × Nat) := (l.filter (fun o => o.len != 0)).map (fun o => (o.addr, o.len))

/-- One executed instruction of a stream; s carries the configuration registers of core c as the walk leaves them. -/
def walkOp (m : Image) (c : CoreId) (x : SlotId) (n : Nat) (acc : State × WCfg × List WOp) (e : Nat × WOcc) : State × WCfg × List WOp :=
  let (s, g, out) := acc
  let w := e.2.word
  let ab := e.2.ab
  let o : WOp := { stream := n, slot := x, pos := e.1, word := w }
  match engOf w, opc w with
  | 0, 0x0A =>
    let r := wholeRange m (ab.getD (bits w 70 4) 0)
    let q := runtimeRanges m c.cluster w
    (s, g, { o with reads := r.1 ++ q.1, writes := r.2 ++ q.2 } :: out)
  | 1, 1 =>
    let sa := bits w 71 5
    let sb := bits w 76 5
    let ca := rd s (F.TB_CFG_CFG c sa)
    let cb := rd s (F.TB_CFG_CFG c sb)
    let ma := ab.getD (bits w 117 4) 0
    let db := ldBytes s ma 32
    let wa := leAt db 0 6
    let dw := bit w 121
    let held := dw && heldInImage m ma 32
    let (ring, found) := if dw then ringAfter (tbFfmt ca) (windowOf (ldBytes s wa 64)) (dwOf db) g.ring else (g.ring, true)
    let good := g.tbSet.contains sa && g.tbSet.contains sb && macOk w ca cb
      && (!held || (dwOk db (tbFfmt ca) && heldInImage m wa 64 && windowOk (ldBytes s wa 64) && leAt (ldBytes s wa 64) 1 1 == 2 && found))
    (s, { g with ring := ring }, { o with good := good, reads := operandRuns (macOperands s c w ab) ++ (if dw then [(wa, 64)] else []) } :: out)
  | 2, 1 => (wr s (F.TB_CFG_CFG c (bits w 64 5)) (w / 2 ^ 64), { g with tbSet := bits w 64 5 :: g.tbSet }, o :: out)
  | 3, 1 =>
    let v := vxIns s c { seq := 0, idx := 0, word := w, ab := ab }
    let tiles := vxOperands s c w ab
    let src := if v.src = 1 then operandRuns (tiles.take 2) else []
    let dst := if v.dst = 2 then operandRuns (tiles.drop (if v.src = 1 then 2 else 0)) else []
    let held := g.held + b2n v.take - (if v.rel = 3 then 0 else v.rel)
    (s, { g with held := held },
     { o with good := vxOk s v g.held, reads := src, writes := if v.handoff then dst.drop 1 else dst,
              hist := if v.en 8 && bit v.w3 18 then [bits v.w3 19 16] else [],
              handoff := if v.handoff then some (v.dfmt.code, fmtBytes v.dfmt.code (256 * v.vlen)) else none } :: out)
  | 3, 2 => (wr s (F.CH_CFG_WORD c (bits w 64 4) (bits w 68 2)) (bits w 80 48), g, o :: out)
  | 4, 1 => (s, g, walkDx s m c o ab :: out)
  | 5, 1 => (s, g, { o with reads := [(ab.getD (bits w 73 4) 0, buildLen w)],
                            writes := [(ab.getD (bits w 77 4) 0, 144), slotPlace c.cluster (bits w 64 4)] } :: out)
  | 5, 2 => (s, g, { o with reads := [(ab.getD (bits w 73 4) 0, 144)], writes := [slotPlace c.cluster (bits w 64 4)] } :: out)
  | 5, 3 => (s, g, { o with writes := [slotPlace c.cluster (bits w 64 4)] } :: out)
  | _, _ => (s, g, { o with reads := if engOf w = 5 then [slotPlace c.cluster (bits w 64 4)] else [] } :: out)

/-- The handoff VX instructions of a stream are claimed by its CX_PACK instructions in chain order (10 R315): give each CX_PACK the
areas it writes and judge the formats. The ABs of the walk give the addresses. -/
def claimPacks : List WOp → List WOcc → List (Nat × Nat) → List WOp
  | o :: ops, e :: es, hs =>
    if engOf o.word = 5 ∧ opc o.word = 4 then
      let n := bits o.word 104 8
      let mine := hs.take n
      let len := (mine.map (fun h => h.2)).sum
      let f := bits o.word 80 24
      let blocks := ceilDiv len 4096
      { o with
        good := o.good && mine.all (fun h => h.1 == bits o.word 68 4)
        packs := some len
        writes := [(e.ab.getD (bits o.word 76 4) 0 + 4096 * f, 4096 * blocks), (e.ab.getD (bits o.word 72 4) 0 + 16 * f, 16 * blocks)] }
        :: claimPacks ops es (hs.drop n)
    else o :: claimPacks ops es hs
  | ops, _, _ => ops

/-- The executed instructions of a stream with what the loader derives; banks held at the end. -/
def walkOps (s : State) (m : Image) (n : Nat) (t : ImgStream) : List WOp × Nat :=
  match slotOfField t.slot with
  | none => ([], 0)
  | some x =>
    match slotCore s x with
    | none => ([], 0)
    | some c =>
      let occs := (walkStream t).1
      let r := (occs.mapIdx (fun i e => (i, e))).foldl (walkOp m c x n) (startCore s c, {}, [])
      let ops := r.2.2.reverse
      (claimPacks ops occs (ops.filterMap (fun o => o.handoff)), r.2.1.held)

/-! Counts, 04 R128, check 0x08. -/

/-- Units that the walks take from a counter of a slot. -/
def unitsTaken (ops : List WOp) (x : SlotId) (pacer : Bool) (n : Nat) : Nat :=
  ((ops.filter (fun o => o.slot == x && waitCnt o.word != 0 && waitPacer o.word == pacer && waitIdx o.word == n)).map (fun o => waitCnt o.word)).sum

/-- The posts of one executed instruction. -/
def opPosts (o : WOp) : List Post :=
  (if postCnt o.word = 0 then []
   else match postTarget (some o.slot) o.word with
     | some x => [⟨x, postPacer o.word, postIdx o.word, postCnt o.word⟩]
     | none => []) ++ o.posts

/-- Units that the walks post to a counter. -/
def unitsPosted (ops : List WOp) (x : SlotId) (pacer : Bool) (n : Nat) : Nat :=
  (((ops.flatMap opPosts).filter (fun p => p.x == x && p.pacer == pacer && p.idx == n)).map (fun p => p.n)).sum

/-- Units that the declarations give a counter. -/
def unitsDeclared (m : Image) (x : SlotId) (pacer : Bool) (n : Nat) : Nat :=
  ((m.decls.filter (fun d => slotOfField d.slot == some x && bit d.counter 6 == pacer && d.counter % 64 == n)).map (fun d => d.count)).sum

/-- Every slot of the module. -/
def allSlots : List SlotId := allClusters.flatMap (fun k => (List.finRange 8).map (fun j => ⟨k.die, k.cl, j⟩))

/-- Posts equal waits and returns equal takes at every counter (04 R127, R128). -/
def countsOk (m : Image) (ops : List WOp) : Bool :=
  allSlots.all (fun x =>
    (List.range 64).all (fun n => unitsPosted ops x false n + unitsDeclared m x false n == unitsTaken ops x false n)
      && (List.range 64).all (fun n => unitsPosted ops x true n == unitsTaken ops x true n + unitsDeclared m x true n))

/-- Tokens, banks and handoffs of a stream match (06 R206, 10 R316). -/
def tokensOk (ops : List WOp) (held : Nat) : Bool :=
  let emits := (ops.filter (fun o => engOf o.word == 1 && opc o.word == 2)).length
  let takes := (ops.filter (fun o => engOf o.word == 3 && opc o.word == 1 && bit o.word 112)).length
  let claimed := ((ops.filter (fun o => engOf o.word == 5 && opc o.word == 4)).map (fun o => bits o.word 104 8)).sum
  emits == takes && held == 0 && (ops.filterMap (fun o => o.handoff)).length == claimed

/-! Hurdles, check 0x09. -/

/-- Arrivals (true) and waits (false) of a stream at a hurdle, in order. -/
def hurdleEvents (ops : List WOp) (n h : Nat) : List Bool :=
  (ops.filter (fun o => o.stream == n && engOf o.word == 0 && opc o.word == 0x08 && bits o.word 64 8 == h)).flatMap (fun o =>
    (if bit (hurdleMode o.word) 0 then [true] else []) ++ (if bit (hurdleMode o.word) 1 then [false] else []))

/-- Events begin with an arrival, alternate and end with a wait (04 R112). -/
def alternates : List Bool → Bool
  | [] => true
  | true :: false :: l => alternates l
  | _ => false

/-- Check 0x09 of 04 R128. -/
def hurdles09 (m : Image) (ops : List WOp) : Bool :=
  m.streams.all (fun t => t.instrs.all (fun w =>
      !(engOf w == 0 && opc w == 0x08) ||
        (decide (bits w 64 8 < m.hurdles.length) && leAt (m.hurdles.getD (bits w 64 8) []) 2 2 != 0)))
    && (List.range m.streams.length).all (fun n => (List.range 256).all (fun h => alternates (hurdleEvents ops n h)))

/-- A table slot is built, loaded and released by one stream (10 R296). -/
def slotOwners (ops : List WOp) : Bool :=
  let own := ops.filter (fun o => engOf o.word == 5 && decide (1 ≤ opc o.word ∧ opc o.word ≤ 3))
  own.all (fun o => own.all (fun q => !(o.slot.cluster == q.slot.cluster && bits o.word 64 4 == bits q.word 64 4) || o.stream == q.stream))

end Sys2Proof.Machine
end

