-- ==== Sys2Proof/Machine/Order.lean ====
section
/-!
DEFINITION. The order of a program's accesses: what happens before what by the relations of 04 R115, and the load check 0x0A of
04 R116 (10 R296, R312).
-/

namespace Sys2Proof.Machine

open Sys2Proof

/-- A point of the step: an executed instruction, by its place in the list of all, and the moment: 0 its dispatch, 1 its wait is
satisfied (of an ARRIVE_WAIT: the hurdle has passed), 2 it executes and retires, 3 its early reads; or the pass of a hurdle, 4, by
hurdle * 2^32 + pass. -/
abbrev Point := Nat × Nat

/-- An executed instruction with its place in the list of all. -/
abbrev NOp := Nat × WOp

/-- Is it a HURDLE of one of some modes? -/
def isHurdle (o : WOp) (modes : List Nat) : Bool := engOf o.word == 0 && opc o.word == 0x08 && modes.contains (hurdleMode o.word)

/-- Is it a CALL_CC? -/
def isCall (o : WOp) : Bool := engOf o.word == 0 && opc o.word == 0x0A

/-- Where dispatch goes on from after an instruction. -/
def outPoint (e : NOp) : Point := (e.1, if isHurdle e.2 [3] then 1 else 0)

/-- Where an instruction's post is made (04 R101, R105, R112). -/
def postPoint (e : NOp) : Point :=
  (e.1, if engOf e.2.word != 0 || isCall e.2 || isHurdle e.2 [1] then 2 else if isHurdle e.2 [3] then 1 else 0)

/-- Where an instruction's wait is satisfied. -/
def waitPoint (e : NOp) : Point := (e.1, if engOf e.2.word != 0 then 1 else 0)

/-- The earlier executed instructions of the same stream, nearest first. -/
def before (l : List NOp) (e : NOp) : List NOp := ((l.filter (fun f => f.2.stream == e.2.stream && decide (f.1 < e.1)))).reverse

/-- Has the instruction a point of execution of its own? -/
def executes (o : WOp) : Bool := engOf o.word != 0 || isCall o || isHurdle o [1, 3]


/-- Which arrival, counted from 0, an arrival or a wait concerns at its hurdle. -/
def hurdlePass (l : List NOp) (e : NOp) (arrival : Bool) : Nat :=
  let h := bits e.2.word 64 8
  ((before l e).filter (fun f => isHurdle f.2 (if arrival then [1, 3] else [2, 3]) && bits f.2.word 64 8 == h)).length

/-- The point of a pass of a hurdle. -/
def passPoint (h k : Nat) : Point := (h * 2 ^ 32 + k, 4)

/-- Order within a core and at hurdles (04 R99, R101, R112, R115). -/
def coreEdges (l : List NOp) (e : NOp) : List (Point × Point) :=
  let prev := before l e
  let i := e.1
  let o := e.2
  let same := prev.find? (fun f => engOf f.2.word == engOf o.word && (engOf o.word != 0 || isCall f.2))
  (match prev with
   | p :: _ => [(outPoint p, (i, 0))]
   | [] => [])
  ++ (if engOf o.word != 0 then
        [((i, 0), (i, 1)), ((i, 1), (i, 2)), ((i, 0), (i, 3)), ((i, 3), (i, 2))]
          ++ (match same with
              | some f => [((f.1, 1), (i, 1)), ((f.1, 2), (i, 2))]
              | none => [])
          ++ (match prev.find? (fun f => f.2.expands) with
              | some f => [((f.1, 1), (i, 3))]
              | none => [])
      else [])
  ++ (if isCall o then [((i, 0), (i, 2))] ++ (match same with
        | some f => [((f.1, 2), (i, 2))]
        | none => []) else [])
  ++ (if engOf o.word == 0 && opc o.word == 0x02 then (prev.filter (fun f => executes f.2)).map (fun f => ((f.1, 2), (i, 0))) else [])
  ++ (if isHurdle o [1, 3] then
        ((i, 0), (i, 2)) :: ((i, 2), passPoint (bits o.word 64 8) (hurdlePass l e true))
          :: (prev.filter (fun f => executes f.2)).map (fun f => ((f.1, 2), (i, 2)))
      else [])
  ++ (if isHurdle o [2] then [(passPoint (bits o.word 64 8) (hurdlePass l e false), (i, 0))] else [])
  ++ (if isHurdle o [3] then [(passPoint (bits o.word 64 8) (hurdlePass l e true), (i, 1))] else [])

/-! Posts and waits, 04 R116. -/

/-- The posts that the walks make to a counter, with who makes them. -/
def postsTo (l : List NOp) (x : SlotId) (pacer : Bool) (n : Nat) : List (NOp × Nat) :=
  l.flatMap (fun e => ((opPosts e.2).filter (fun p => p.x == x && p.pacer == pacer && p.idx == n)).map (fun p => (e, p.n)))

/-- Posts with the units that came before each. -/
def runningUnits : Nat → List (NOp × Nat) → List (NOp × Nat × Nat)
  | _, [] => []
  | u, (e, n) :: ps => (e, u, u + n) :: runningUnits (u + n) ps

/-- The position at which a stream goes on past a pass of a hurdle, its WAIT or ARRIVE_WAIT; none where it does not. What it posts between its
arrival and that point may come before the pass. -/
def passedAt (l : List NOp) (stream h k : Nat) : Option Nat :=
  ((l.filter (fun f => f.2.stream == stream && isHurdle f.2 [2, 3] && bits f.2.word 64 8 == h))[k]?).map (fun f => f.1)

/-- The next hurdle pass after an instruction that its stream arrives at and every posting stream passes (04 R116). -/
def commonPass (l : List NOp) (e : NOp) (posters : List Nat) : Option (Nat × Nat) :=
  ((l.filter (fun f => f.2.stream == e.2.stream && decide (e.1 ≤ f.1) && isHurdle f.2 [1, 3])).map (fun f =>
      (bits f.2.word 64 8, hurdlePass l f true))).find? (fun p => posters.all (fun n => (passedAt l n p.1 p.2).isSome))

/-- A counter is named by a declaration of the image. -/
def declared (m : Image) (x : SlotId) (pacer : Bool) (n : Nat) : List ImgDecl :=
  m.decls.filter (fun d => slotOfField d.slot == some x && bit d.counter 6 == pacer && d.counter % 64 == n)

/-- Units a pacer starts with. -/
def startUnits (m : Image) (x : SlotId) (pacer : Bool) (n : Nat) : Nat :=
  if pacer then
    (match m.streams.find? (fun t => slotOfField t.slot == some x) with
     | some t => t.limits.getD n 0
     | none => 0)
  else 0

/-- Order from posts to a wait, in the two cases of 04 R116. -/
def waitEdges (m : Image) (l : List NOp) (e : NOp) : List (Point × Point) :=
  let w := e.2.word
  if waitCnt w = 0 then []
  else
    let x := e.2.slot
    let p := waitPacer w
    let n := waitIdx w
    let ps := postsTo l x p n
    let ds := declared m x p n
    let start := startUnits m x p n
    let u0 := (((before l e).filter (fun f => waitCnt f.2.word != 0 && waitPacer f.2.word == p && waitIdx f.2.word == n)).map
      (fun f => waitCnt f.2.word)).sum
    let u1 := u0 + waitCnt w
    let streams := (ps.map (fun f => f.1.2.stream)).dedup
    let paired :=
      if ds = [] ∧ streams.length ≤ 1 then
        ((runningUnits start ps).filter (fun f => decide (f.2.1 < u1 ∧ u0 < f.2.2))).map (fun f => (postPoint f.1, waitPoint e))
      else []
    let pass := if ds = [] then commonPass l e streams else none
    let mine := match pass with
      | none => ps
      | some (h, k) => ps.filter (fun f => match passedAt l f.1.2.stream h k with
          | some a => decide (f.1.1 < a)
          | none => true)
    let total := (mine.map (fun f => f.2)).sum + (if p then 0 else (ds.map (fun d => d.count)).sum)
    let covered :=
      if start + total ≤ u1 then
        mine.map (fun f => (postPoint f.1, waitPoint e))
          ++ (if ds.any (fun d => d.source == 1) then
                (l.filter (fun f => isCall f.2 && f.2.slot.cluster == x.cluster)).map (fun f => ((f.1, 2), waitPoint e))
              else [])
      else []
    paired ++ covered

/-! The check. -/

/-- Points reached from a frontier. -/
def reachFrom (es : List (Point × Point)) : Nat → List Point → List Point → List Point
  | 0, _, seen => seen
  | fuel + 1, front, seen =>
    let new := (((es.filter (fun e => front.contains e.1)).map (fun e => e.2)).filter (fun p => !seen.contains p)).dedup
    if new = [] then seen else reachFrom es fuel new (seen ++ new)

/-- The accesses of an executed instruction: point, run, whether it writes. -/
def accesses (e : NOp) : List (Point × (Nat × Nat) × Bool) :=
  e.2.atDispatch.map (fun r => ((e.1, 0), r, false)) ++ e.2.reads.map (fun r => ((e.1, 2), r, false))
    ++ e.2.early.map (fun r => ((e.1, 3), r, false)) ++ e.2.writes.map (fun r => ((e.1, 2), r, true))

/-- Check 0x0A: every two accesses to one location of which one writes are ordered (04 R116). Writes of other modules, and the atomic
merges of 03 R89 and R94, are not among them. Log 29 (DEDUCED). -/
def order0A (m : Image) (ops : List WOp) : Bool :=
  let l : List NOp := ops.mapIdx (fun i o => (i, o))
  let es := l.flatMap (fun e => coreEdges l e ++ waitEdges m l e)
  let acc := l.flatMap accesses
  let ordered := fun (p q : Point) => (reachFrom es (es.length + 1) [p] [p]).contains q
  acc.all (fun a => acc.all (fun b =>
    !(a.2.2 && runsMeet a.2.1 b.2.1) || a.1 == b.1 || ordered a.1 b.1 || ordered b.1 a.1))

/-- No executed instruction writes bytes that a DX of the program reads as its descriptor (11 R340). -/
def descriptorsKept (ops : List WOp) : Bool :=
  (ops.flatMap (fun o => if engOf o.word = 4 then o.atDispatch else [])).all (fun r => ops.all (fun o => o.writes.all (fun w => !runsMeet r w)))

end Sys2Proof.Machine
end

