-- ==== Sys2Proof/Machine/Rings.lean ====
section
/-!
DEFINITION. The command rings: doorbells, taking and judging entries, completions, enabling; the marshal's restart
(16 R457 to R471, 18 R514).
-/

namespace Sys2Proof.Machine

open Sys2Proof

/-! Indices. -/

/-- The host link is up in a CXL mode with Bus Master Enable 1 (15 R442, R444; 16 R459). -/
def hostReady (s : State) : Bool := rd s F.HA_STAT_WIDTH != 0 && rd s F.HA_STAT_FLIT != 0 && rdb s F.HA_STAT_BME

/-- Slots of a ring (16 R457). -/
def ringSlots (s : State) (r : Nat) : Nat := rd s (F.CMD_RING_CFG_SIZE r) + 1

/-- Entries are offered on a ring (16 R459). -/
def offered (s : State) (r : Nat) : Bool := rd s (F.CMD_SQ_HEAD_INDEX r) != rd s (F.CMD_SQ_TAIL_INDEX r)

/-- Completions written and not consumed. -/
def unconsumed (s : State) (r : Nat) : Nat :=
  (rd s (F.CMD_CQ_TAIL_INDEX r) + ringSlots s r - rd s (F.CMD_CQ_HEAD_INDEX r)) % ringSlots s r

/-- Completions owed by a ring. -/
def owedBy (s : State) (r : Nat) : List Owed := s.owed.filter (fun o => o.ring == r)

/-- A ring has an entry to take and a completion slot for it (16 R460). -/
def takeable (s : State) (r : Nat) : Bool :=
  ringOn s r && offered s r && decide ((owedBy s r).length + unconsumed s r < rd s (F.CMD_RING_CFG_SIZE r))

/-- The ring that is next in round robin: the first takeable one after the ring taken from last (16 R459). -/
def nextRing (s : State) : Option Nat := ((List.range 16).map (fun i => (s.lastRing + 1 + i) % 16)).find? (takeable s)

/-- SQ_DOORBELL (16 R459): a write to CMD_SQ_TAIL; an index above SIZE is discarded and recorded. -/
def execSqDoorbell (r : Fin 16) (tail : Fin 4096) (s : State) : Host.Outcome State Fault Refusal :=
  .next (if rd s (F.CMD_RING_CFG_SIZE r.val) < tail.val then recordRsvd s ((F.CMD_SQ_TAIL_INDEX r.val).at_ / 8)
    else wr s (F.CMD_SQ_TAIL_INDEX r.val) tail.val)

/-- CQ_HEAD_WRITE (16 R460): completions are consumed; a write past the tail is discarded and recorded. -/
def execCqHeadWrite (r : Fin 16) (head : Fin 4096) (s : State) : Host.Outcome State Fault Refusal :=
  .next (
    let n := ringSlots s r.val
    let h := rd s (F.CMD_CQ_HEAD_INDEX r.val)
    if n ≤ head.val ∨ unconsumed s r.val < (head.val + n - h) % n then recordRsvd s ((F.CMD_CQ_HEAD_INDEX r.val).at_ / 8)
    else wr s (F.CMD_CQ_HEAD_INDEX r.val) head.val)

/-- RING_ENABLE (16 R458): CMD_RING_CFG written with ENABLE 1 and a SIZE. On an enabled ring, or with SIZE 0, it is discarded and
recorded. -/
def execRingEnable (r : Fin 16) (size : Fin 4096) (s : State) : Host.Outcome State Fault Refusal :=
  .next (
    let n := r.val
    if ringOn s n ∨ size.val = 0 then recordRsvd s ((F.CMD_RING_CFG_ENABLE n).at_ / 8 / 4 * 4)
    else
      let s := { s with journal := s.journal.filter (fun c => c.ring != n), owed := s.owed.filter (fun o => o.ring != n) }
      wrAll s [(F.CMD_RING_CFG_SIZE n, size.val), (F.CMD_RING_CFG_ENABLE n, 1), (F.CMD_SQ_HEAD_INDEX n, 0), (F.CMD_SQ_TAIL_INDEX n, 0),
        (F.CMD_CQ_HEAD_INDEX n, 0), (F.CMD_CQ_TAIL_INDEX n, 0), (F.CMD_CQ_TAIL_PHASE n, 1),
        (F.CMD_SEQ_NEXT_SEQ n, rd s (F.CMD_SEQ_INIT_SEQ n)), (F.CMD_RING_STAT_VER_MAJ n, 1), (F.CMD_RING_STAT_VER_MIN n, 0),
        (F.CMD_RING_STAT_INFLIGHT n, 0)])

/-- RING_DISABLE (16 R458): CMD_RING_CFG written with ENABLE 0 and a SIZE: on a disabled ring it sets SIZE; an enabled one is
disabled, unless commands or completions are outstanding or the word holds another SIZE, which discards and records the write. Log 105 (DEDUCED). -/
def execRingDisable (r : Fin 16) (size : Fin 4096) (s : State) : Host.Outcome State Fault Refusal :=
  .next (
    let n := r.val
    if !ringOn s n then wr s (F.CMD_RING_CFG_SIZE n) size.val
    else if rd s (F.CMD_RING_CFG_SIZE n) ≠ size.val ∨ rd s (F.CMD_RING_STAT_INFLIGHT n) ≠ 0 ∨ owedBy s n ≠ [] then recordRsvd s ((F.CMD_RING_CFG_ENABLE n).at_ / 8 / 4 * 4)
    else wr s (F.CMD_RING_CFG_ENABLE n) 0)

/-! Taking entries, 16 R459 to R464. -/

/-- The opcodes of R472. -/
def knownOp (op : Nat) : Bool :=
  [0x00, 0x01, 0x10, 0x11, 0x12, 0x13, 0x20, 0x21, 0x22, 0x30, 0x31, 0x32, 0x40, 0x41, 0x50, 0x51, 0x52, 0x60, 0x61, 0x62, 0x70, 0x71].contains op

/-- A journal mirror is in service. -/
def mirrorUp (s : State) : Bool := mirrorOk s 0 || mirrorOk s 2

/-- How an entry is judged (16 R463): the status of one that is not accepted, or none. -/
def judge (s : State) (r seq : Nat) : Option Nat :=
  if !rdb s F.CMD_STAT_READY then some 0x02
  else
    let d := serialDiff 32 seq (rd s (F.CMD_SEQ_NEXT_SEQ r))
    if 0 < d then some 0x05 else if d < 0 then some 0x04 else none

/-- The counter of CMD_CNT that a status advances. -/
def judgeCnt (st : Nat) : Nat :=
  match st with
  | 0x04 => 2
  | 0x05 => 3
  | _ => 4

/-- A reserved opcode, and FW_RECOVER on a ring, end without an effect (16 R472). -/
def endUnserved (s : State) (r seq : Nat) (c : Cmd) : State :=
  if !knownOp c.opcode then finish s r seq 0x10 0 []
  else if c.opcode = 0x62 then
    (if (c.param 3 1, c.param 2 1) ≠ c.ver then finish s r seq 0x12 0 [] else badParam s r seq 0x20)
  else s

/-- ENTRY_TAKE (16 R459, R460, R463, R464): the marshal reads the entry at the head of the ring that is next in turn; entry is what
that read returns. An entry that would be accepted waits in its ring while neither mirror is in service, and the turn passes; in
RECOVERY and HALT none is taken (19 R555). -/
def execEntryTake (r : Fin 16) (entry : List Byte) (s : State) : Host.Outcome State Fault Refusal :=
  .next (
    let n := r.val
    let entry := sliceBytes entry 0 64
    let seq := leAt entry 4 4
    if !s.powered ∨ 4 ≤ rd s F.SEC_BOOT_STAGE ∨ !hostReady s ∨ nextRing s ≠ some n then s
    else if (judge s n seq).isNone ∧ !mirrorUp s then { s with lastRing := n }
    else
      let verdict := judge s n seq
      let head := (rd s (F.CMD_SQ_HEAD_INDEX n) + 1) % ringSlots s n
      let s := bump (wr { s with lastRing := n } (F.CMD_SQ_HEAD_INDEX n) head) (F.CMD_CNT_COUNT 0) 1
      let o : Owed := { ring := n, seq := seq, head := head, opcode := leAt entry 0 1, irq := bit (leAt entry 1 1) 2,
                        accepted := verdict.isNone, status := verdict.getD 0, info := 0 }
      match verdict with
      | some st =>
        let info := if st = 0x02 then readyIn s else if st = 0x05 then rd s (F.CMD_SEQ_NEXT_SEQ n) else 0
        bump { s with owed := s.owed ++ [{ o with info := info }] } (F.CMD_CNT_COUNT (judgeCnt st)) 1
      | none =>
        let c : Cmd := { ring := n, seq := seq, entry := entry, time := now s, entryIn := mirrors s, ver := ringVersion s n }
        let s := bump { s with journal := s.journal ++ [c], owed := s.owed ++ [o] } (F.CMD_CNT_COUNT 1) 1
        let s := wr s (F.CMD_SEQ_NEXT_SEQ n) (seq + 1)
        endUnserved (wr s (F.CMD_RING_STAT_INFLIGHT n) (openCount s.journal n)) n seq c)

/-! Completions, 16 R460, R462. -/

/-- The completion entry of an owed completion, given its phase; none while its command has no terminal status. -/
def completionOf (s : State) (o : Owed) (phase : Nat) : Option (List Byte) :=
  let build := fun (st flags detail ost odet info : Nat) (res : List Byte) =>
    natLE 4 o.seq ++ natLE 2 o.head ++ natLE 1 st ++ natLE 1 (phase + flags) ++ natLE 1 o.opcode ++ natLE 1 detail ++ natLE 1 ost
      ++ natLE 1 odet ++ natLE 4 info ++ sliceBytes res 0 16
  if o.accepted then
    match cmdOf s o.ring o.seq with
    | some c => c.status.map (fun st => build st.1 2 st.2 0 0 0 c.result)
    | none => none
  else if o.status = 0x04 then
    match (cmdOf s o.ring o.seq).bind (fun c => c.status) with
    | some st => some (build 0x04 4 0 st.1 st.2 0 [])
    | none => some (build 0x04 0 0 0 0 0 [])
  else some (build o.status 0 0 0 0 o.info [])

/-- Bytes written to host memory. -/
def hostWrite (s : State) (a : Nat) (bs : List Byte) : State := { s with hostOut := s.hostOut ++ [(a, bs)] }

/-- COMPLETION_WRITE (16 R460, R462, R465): the oldest completion a ring owes is written at its completion ring's tail, once its
command has a terminal status; PHASE inverts when the tail wraps; IRQ raises the ring's event source. -/
def execCompletionWrite (r : Fin 16) (s : State) : Host.Outcome State Fault Refusal :=
  .next (
    let n := r.val
    match owedBy s n with
    | [] => s
    | o :: _ =>
      match hostReady s, completionOf s o (rd s (F.CMD_CQ_TAIL_PHASE n)) with
      | true, some bs =>
        let t := rd s (F.CMD_CQ_TAIL_INDEX n)
        let s := hostWrite { s with owed := s.owed.erase o } (rd s (F.CMD_CQ_BASE_ADDR n) * 4096 + 32 * t) bs
        let s := wr s (F.CMD_CQ_TAIL_INDEX n) ((t + 1) % ringSlots s n)
        let s := if t + 1 = ringSlots s n then wr s (F.CMD_CQ_TAIL_PHASE n) (1 - rd s (F.CMD_CQ_TAIL_PHASE n)) else s
        if o.irq then raise s (hubSrc n) else s
      | _, _ => s)

/-! The marshal's restart, 18 R514, R515, R516. -/

/-- MARSHAL_RESTART (18 R514): a management core fails while two or more others are in service; it is out of service, the journal
is kept, and the commands that execute, but for those of the step, run again from their start and end RECOVERED. -/
def execMarshalRestart (s : State) : Host.Outcome State Fault Refusal :=
  .next (if !rdb s F.CMD_STAT_READY ∨ 2 ≤ rd s F.ID_HEALTH_MC_OUT then s
    else
      let s := logFault s 4 0x0F hubUnit
      let s := markPart (wr s F.ID_HEALTH_MC_OUT (rd s F.ID_HEALTH_MC_OUT + 1)) hubUnit 0x0F
      let keep := fun (c : Cmd) => match s.run with
        | some q => (c.ring == q.ring && c.seq == q.seq) || (q.committing && c.ring == q.cRing && c.seq == q.cSeq)
        | none => false
      { s with journal := s.journal.map (fun c =>
          if c.status.isSome then c
          else if keep c || !c.executing then { c with replayed := c.executing || c.replayed }
          else { c with started := false, replayed := true }) })

end Sys2Proof.Machine
end

