-- ==== Sys2Proof/Machine/Load.lean ====
section
/-!
DEFINITION. LOAD_PROGRAM: the checks of 04 R128 in the order of their detail codes, and what an accepted image sets up
(16 R475; 02 R67, R72; 03 R90; 04 R113, R125, R129; 05 R170; 10 R302; 19 R560).
-/

namespace Sys2Proof.Machine

open Sys2Proof

/-- A module address or a host address with a length breaks the 64-byte rule (16 R473). -/
def misaligned64 (l : List Nat) : Bool := l.any (fun a => a % 64 != 0)

/-- The program's parts that are used after the load. -/
def programOf (b : List Byte) (m : Image) : Program :=
  { ranges := m.ranges.map (fun r => (r.base, r.len, r.access))
    routines := m.routines.filterMap (fun r => (clusterOfField (leAt r 4 2)).map (fun k => (k.key, leAt r 0 1, leAt r 1 1, leAt r 2 1)))
    hurdles := m.hurdles.length
    amaxBase := m.h 0x20 8
    amaxLen := m.h 0x28 4
    stall := m.h 0x34 4
    vcs := ((m.hurdles.filter (fun r => leAt r 0 1 % 4 == 1)).map (fun r => leAt r 1 1 % 8)).dedup
    flush := bit (m.h 6 2) 0
    image := b }

/-- The initial contents of the ranges are written, in table order (04 R125). -/
def writeInit (s : State) (b : List Byte) (m : Image) : State :=
  m.ranges.foldl (fun t r => stBytes t r.base (sliceBytes b r.initOff r.initLen)) s

/-- A state in which the loader reads what the image holds: its ranges in force, its initial contents in place. -/
def loaderView (s : State) (b : List Byte) (m : Image) : State :=
  writeInit { s with prog := some { programOf b m with amaxLen := 65536 }, cores := [] } b m

/-- The executed instructions of every stream, in the order of the streams; the banks held at each stream's end. -/
def allOps (s : State) (b : List Byte) (m : Image) : List (List WOp × Nat) :=
  let v := loaderView s b m
  m.streams.mapIdx (fun n t => walkOps v m n t)

/-- The lowest detail code of 04 R128 that an image fails; none where it passes every check. Log 38 (DESIGN CHOICE). -/
def loadDetail (s : State) (b : List Byte) (len : Nat) : Option Nat :=
  let m := imageOf b
  let walks := allOps s b m
  let ops := walks.flatMap (fun w => w.1)
  if !bounds01 b len then some 0x01
  else if !reserved02 b m then some 0x02
  else if !(codes03 m && ops.all (fun o => o.good) && slotOwners ops && descriptorsKept ops) then some 0x03
  else if !slots04 s m then some 0x04
  else if !pacers05 m then some 0x05
  else if !batons06 m then some 0x06
  else if !(targets07 m && m.streams.all (fun t => (walkStream t).2)) then some 0x07
  else if !(countsOk m ops && walks.all (fun w => tokensOk w.1 w.2)) then some 0x08
  else if !hurdles09 m ops then some 0x09
  else if !order0A m ops then some 0x0A
  else if !(history0B s m && ops.all (fun o => o.hist.all (fun h => decide (h < m.h 0x28 4)))) then some 0x0B
  else if !ranges0C s m then some 0x0C
  else none

/-- Some walk calls RR_ARM (14 R415, 16 R479). -/
def callsArm (m : Image) (ops : List WOp) : Bool :=
  ops.any (fun o => isCall o && (match routineFor m o.slot.cluster (bits o.word 64 6) with
    | some r => leAt r 1 1 == 1 && leAt r 2 1 == 0x10
    | none => false))

/-- Some range that the program reads is written (16 R480): by its declared directions or by what the loader derives. -/
def rewritesRange (m : Image) (ops : List WOp) : Bool :=
  m.ranges.any (fun r =>
    let meets := fun (q : Nat × Nat) => runsMeet (r.base, r.len) q
    (bit r.access 0 || ops.any (fun o => (o.reads ++ o.early ++ o.atDispatch).any meets))
      && (bit r.access 1 || bit r.access 3 || ops.any (fun o => o.writes.any meets)))

/-- The history table as it is rewritten whole: the three fields as the loader read and checked them, zero in every other byte (03 R90). -/
def newHistory (s : State) (m : Image) : List Byte :=
  (List.range (m.h 0x28 4)).flatMap (fun i =>
    let r := ldBytes s (m.h 0x20 8 + 128 * i) 128
    List.replicate 0x44 0 ++ sliceBytes r 0x44 1 ++ [0, 0] ++ natLE 1 (leAt r 0x47 1 % 128) ++ List.replicate 0x38 0)

/-- Registers whose BAR0 offset satisfies a test take their reset values. -/
def dropRegs (s : State) (p : Nat → Bool) : State := { s with regs := s.regs.filter (fun e => !p (e.1 / 8)) }

/-- Registers in service that a load clears wherever they are: CO_SEQ_STAT (idle), CO_FAULT (04 R131), the exception logs (05 R170) and
CX_ERR (10 R318) of the clusters. -/
def loadClears (s : State) (off : Nat) : Bool :=
  match inCluster off with
  | some (_, t) => !inRetired s off &&
      (if 0x8000 ≤ t then decide (t % 0x1000 < 4) || decide (8 ≤ t % 0x1000 ∧ t % 0x1000 < 12)
       else decide (0x1000 ≤ t ∧ t < 0x1060) || decide (0x2900 ≤ t ∧ t < 0x2904))
  | none => false

/-- Registers that a load clears in the cores and clusters that the program occupies: flags and overflow counts (02 R72), codec slots
(10 R302). -/
def occupiedClears (cs : List CoreId) (off : Nat) : Bool :=
  cs.any (fun c => decide (coreBase c + 0x104 ≤ off ∧ off < coreBase c + 0x110)
    || decide (clusterBase c.cluster + 0x2800 ≤ off ∧ off < clusterBase c.cluster + 0x2900))

/-- Every core in service shows the image's STALL_LIMIT, and no entry of its split ring is overwritten (04 R131). -/
def showLoaded (s : State) (p : Program) : State :=
  allCores.foldl (fun t c =>
    if inRetired t (coreBase c) then t else wrAll t [(F.CO_STALL_LIMIT_LIMIT c, p.stall), (F.CO_SPLIT_NEXT_WRAPPED c, 0)]) s

/-- A hurdle record shows in every copy; epoch and counts are 0 (04 R113, R127, R133). -/
def setHurdle (s : State) (h : Nat) (r : List Byte) : State :=
  let vc := leAt r 1 1 % 8
  let group := leAt r 0 1 % 4 == 1
  (List.range 8).foldl (fun t d => wrAll t [(F.HD_CFG_SCOPE d h, leAt r 0 1 % 4), (F.HD_CFG_VC d h, vc), (F.HD_CFG_LOCAL_EXPECT d h, leAt r 2 2),
    (F.HD_MEM_MEMBERS d h, if group then rd t (F.FAB_BIND_W0_MEMBERS vc) else 0)]) s

/-- The hurdle windows of every die. -/
def isHurdleReg (off : Nat) : Bool :=
  decide (0x1000000 ≤ off) && decide (0x150000 ≤ (off - 0x1000000) % 0x200000 ∧ (off - 0x1000000) % 0x200000 < 0x151000)

/-- The core of a stream. -/
def streamCore (s : State) (t : ImgStream) : Option CoreId := (slotOfField t.slot).bind (slotCore s)

/-- A stream is placed in its core: the instruction buffer, address bases, pacer limits, the denormal mode, and the lengths of its packed
tensors. -/
def placeStream (p : Program) (s : State) (e : ImgStream × List Nat) : State :=
  let t := e.1
  match streamCore s t with
  | none => s
  | some c =>
    let s := setCore s c { occupied := true, instrs := t.instrs, abInit := t.ab, limits := t.limits, packLens := e.2 }
    let s := (List.range 16).foldl (fun u n => wr u (F.CO_PA_LIMIT c n) (t.limits.getD n 0)) s
    wrAll s [(F.CO_FMT_CTL_DENORM_FLUSH c, b2n p.flush), (F.CO_FMT_CTL_FLUSH_ACTIVE c, b2n p.flush)]

/-- Nothing is loaded (16 R475): a refused image leaves the module with no program. -/
def unload (s : State) : State :=
  setStepState { s with prog := none, cores := s.cores.map (fun (e : Nat × CoreSt) => (e.1, { e.2 with occupied := false })) } 0

/-- The code of a cluster's program routines stands in the upper 32 KiB of its control core's instruction memory, one record after another
(04 R121, R126; DESIGN CHOICE, log 25: where). -/
def placeRoutines (s : State) (b : List Byte) (m : Image) (k : ClusterId) : State :=
  let mine := m.routines.filter (fun r => leAt r 1 1 == 0 && clusterOfField (leAt r 4 2) == some k)
  let code := mine.flatMap (fun r => sliceBytes b (leAt r 8 4) (leAt r 0xC 4))
  let x := cluster s k
  setCluster s k { x with imem := putData (x.imem.filter (fun e => decide (e.1 < 0x8000))) 0x8000 code }

/-- An accepted image takes the place of any other; clusters that sleep wake (20 R572). -/
def loadImage (s : State) (b : List Byte) : State :=
  let m := imageOf b
  let walks := allOps s b m
  let ops := walks.flatMap (fun w => w.1)
  let q := programOf b m
  let p := { q with arms := callsArm m ops, rewrites := rewritesRange m ops, vcs := (q.vcs ++ ops.flatMap (fun o => o.vcs)).dedup }
  let cs := m.streams.filterMap (streamCore s)
  let h := newHistory s m
  let s := stBytes (writeInit s b m) (m.h 0x20 8) h
  let s := dropRegs s (fun off => loadClears s off || occupiedClears cs off || isHurdleReg off)
  let s := { s with prog := some p, cores := [], posts := [], hurdleBits := [], firstRun := true, failedStep := none,
                    clusters := s.clusters.map (fun (e : Nat × ClusterSt) =>
                      (e.1, { e.2 with ccq := [], chains := List.replicate 16 (List.replicate 64 0),
                                       tabs := if cs.any (fun c => c.cluster.key == e.1) then List.replicate 16 [] else e.2.tabs })) }
  let s := (m.streams.zip (walks.map (fun w => w.1.filterMap (fun o => o.packs)))).foldl (placeStream p) (showLoaded s p)
  let s := allClusters.foldl (fun t k => placeRoutines t b m k) s
  let s := (m.hurdles.mapIdx (fun h r => (h, r))).foldl (fun t e => setHurdle t e.1 e.2) s
  wakeAll (takeSnapshot (setStepState (wr s F.ID_HEALTH_FATAL 0) 1))

/-- LOAD_PROGRAM (16 R473, R475; 04 R128): image holds the LEN bytes that the module reads at IMAGE. -/
def execLoadProgram (r : Fin 16) (seq : Nat) (image : List Byte) (s : State) : Host.Outcome State Fault Refusal :=
  .next (beginCmd s r.val seq 0x10 (fun c =>
    let len := c.param 0x18 8
    if !zeroBytes c 0x20 32 then badParam s r.val seq 0x20
    else if c.param 0x10 8 % 64 ≠ 0 ∨ len < 64 then badParam s r.val seq 0x21
    else if s.run.isSome then badParam s r.val seq 0x23
    else if image.length ≠ len ∨ (imageOf image).ranges.any (fun q => parkedRun s q.base q.len) then s
    else match loadDetail s image len with
      | some d => badParam (unload s) r.val seq d
      | none => let t := loadImage s image
                finishOk t r.val seq (natLE 4 (leAt image 0x10 4) ++ natLE 4 0 ++ natLE 8 (now t))))

end Sys2Proof.Machine
end

