-- ==== Sys2Proof/Machine/Update.lean ====
section
/-!
DEFINITION. The update dies: taking units, statistics and norm chains, the rule, outputs and generations (12 R346 to R376, 03 R91).
-/

namespace Sys2Proof.Machine

open Sys2Proof

/-! What a die owns, 12 R354, R357. -/

/-- An update die's holdings. -/
def ud (s : State) (m : Nat) : UdSt := s.uds.getD m {}

/-- The state with a die's holdings replaced. -/
def setUd (s : State) (m : Nat) (x : UdSt) : State := { s with uds := s.uds.set m x }

/-- The module's blocks of a unit under the armed relay (12 R354). -/
def moduleBlocks (s : State) (u : UpdTables) (n : Nat) : Nat × Nat := ownBlocks s u s.relay.dvc n

/-- A die's blocks of a unit. -/
def dieBlocks (s : State) (u : UpdTables) (n m : Nat) : List Nat := blockRange (quarter (moduleBlocks s u n) m)

/-- Buffer bytes of a block (12 R357). -/
def blockCost (s : State) (n b : Nat) : Nat := if slotWide s n b then 8192 else 4097

/-- The chunks of a share: each the longest run that fits in a half of 16 MiB; the first chunk so far comes last first. -/
def chunksFrom (s : State) (n : Nat) : List Nat → List Nat → Nat → List (List Nat)
  | [], cur, _ => [cur.reverse]
  | b :: bs, cur, used =>
    let c := blockCost s n b
    if used + c ≤ 2 ^ 24 ∨ cur = [] then chunksFrom s n bs (b :: cur) (used + c)
    else cur.reverse :: chunksFrom s n bs [b] c

/-- The chunks of a die's share of a unit; one when the share fits in a half. -/
def dieChunks (s : State) (u : UpdTables) (n m : Nat) : List (List Nat) := chunksFrom s n (dieBlocks s u n m) [] 0

/-- The share fits in a half. -/
def shareFits (s : State) (u : UpdTables) (n m : Nat) : Bool := (dieChunks s u n m).length == 1

/-! Sums, 12 R358, R359. -/

/-- K32 values of a unit's running sums: rsum and csum of each MATRIX tensor, in table order. -/
def sumsLen (u : UpdTables) (n : Nat) : Nat :=
  ((unitTensors u n).map (fun e => if e.1.kind = 0 then e.1.rows + e.1.cols else 0)).foldl (· + ·) 0

/-- Where the sums of a unit's tensors begin in that list: (tensor, first block, place of rsum). -/
def sumPlaces (u : UpdTables) (n : Nat) : List (TensorRec × Nat × Nat) :=
  ((unitTensors u n).foldl (fun (acc : List (TensorRec × Nat × Nat) × Nat) e =>
    (acc.1 ++ [(e.1, e.2, acc.2)], acc.2 + (if e.1.kind = 0 then e.1.rows + e.1.cols else 0))) ([], 0)).1

/-- K32 codes stored in memory. -/
def k32List (s : State) (a n : Nat) : List Nat := codes32 (ldBytes s a (4 * n))

/-- Does the chain leave the module (12 R359, 14 R436)? -/
def chainShape (s : State) (u : UpdTables) : Nat × Nat := ownShape s u s.relay.dvc

/-- Address of a unit's running (0) or final (1) sums in the chain area. -/
def chainAddr (s : State) (n kind : Nat) : Nat := s.relay.chain + (2 * n + kind) * s.relay.chainLen

/-- A die has added all its partials of a unit. -/
def sumsDone (s : State) (u : UpdTables) (n m : Nat) : Bool :=
  mapGet 0 (ud s m).chunks n == (dieChunks s u n m).length

/-- The running sums that a die adds to, once they have come (12 R359). -/
def sumsIn (s : State) (u : UpdTables) (n m : Nat) : Option (List Nat) :=
  let len := sumsLen u n
  if m ≠ 0 then (if sumsDone s u n (m - 1) then some (mapGet [] (ud s (m - 1)).sums n) else none)
  else if (chainShape s u).2 = 0 ∨ len = 0 then some (List.replicate len 0)
  else if s.relay.chains.contains (n, 0) then some (k32List s (chainAddr s n 0) len) else none

/-- The final sums of a unit, once they have come. -/
def sumsFinal (s : State) (u : UpdTables) (n : Nat) : Option (List Nat) :=
  let (d, rank) := chainShape s u
  if rank + 1 = d then (if sumsDone s u n 3 then some (mapGet [] (ud s 3).sums n) else none)
  else if sumsLen u n = 0 then some []
  else if s.relay.chains.contains (n, 1) then some (k32List s (chainAddr s n 1) (sumsLen u n)) else none

/-! Gradients, 12 R362, R363, R367. -/

/-- The reduced block in an OUT slot, read by its trailer (12 R362): K8E or K16 codes, or none of this block. -/
structure Reduced where
  codes : Option (Fmt × List Nat)
  scale : Nat
  amax  : XVal
  sumsq : Nat
deriving DecidableEq, Repr

/-- Read an OUT slot by its trailer. -/
def readBlock (s : State) (n b : Nat) : HeldBlock :=
  let a := outAddr s n b
  let t1 := trailerOf (ldBytes s (a + 4096) 64)
  let t2 := trailerOf (ldBytes s (a + 8192) 64)
  if t1.isFinal 1 n b then ⟨1, ldBytes s a 4096, t1.scale, t1.amax, t1.sumsq⟩
  else if t2.isFinal 2 n b then ⟨2, ldBytes s a 8192, t2.scale, t2.amax, t2.sumsq⟩
  else ⟨0, [], 0, Fmt.k32.nanCode, Fmt.k32.nanCode⟩

/-- The gradient that a held block stands for. -/
def reducedOf (h : HeldBlock) : Reduced :=
  { codes := match h.kind with
      | 1 => some (.k8e, codes8 h.data)
      | 2 => some (.k16, codes16 h.data)
      | _ => none
    scale := h.scale, amax := decodeFloat .k32 h.amax, sumsq := h.sumsq }

/-- The gradient of a block in a buffer half (12 R357, R362): it is read once into the half, and every use sees that. -/
def heldGrad (h : UdHalf) (b : Nat) : Reduced := reducedOf (mapGet ⟨0, [], 0, Fmt.k32.nanCode, Fmt.k32.nanCode⟩ h.blocks b)

/-- The rows of a tensor that are frozen (12 R363). -/
def frozenRow (s : State) (t : TensorRec) (g : GroupRec) (row : Nat) : Bool :=
  bit g.flags 0 || (t.kind == 0 && t.fmap != 0 && bit (ldN s (t.fmap + row / 8) 1) (row % 8))

/-- An element's gradient widened, under the policy (12 R362, R367): its code, its flags, and whether it was not finite. -/
def gradRaw (u : UpdTables) (r : Reduced) (e : Nat) : Nat × Flags × Bool :=
  let (c, f) : Nat × Flags := match r.codes with
    | none => (Fmt.k32.nanCode, { inv := true })
    | some (.k16, l) => roundK32 false (decodeVal .k16 (l.getD e 0))
    | some (_, l) => widen false .k8e (l.getD e 0) r.scale
  let fin := (decodeFloat .k32 c).isFin
  (if !fin && u.policy == 1 then 0 else c, f, !fin)

/-- The norm pass runs, and κ (12 R360). -/
def kappaOf (s : State) (u : UpdTables) : Option Nat := if u.normed then some (rd s (F.UD_KAPPA_VALUE 0)) else none

/-- The gradient g of an element (12 R362). Log 61 (DEDUCED). -/
def gradOf (s : State) (u : UpdTables) (r : Reduced) (e : Nat) : Nat × Flags × Bool :=
  let (c, f0, nf) := gradRaw u r e
  let (g, f1) := k32Mul false c u.gmul
  match kappaOf s u with
  | none => (g, f0.or f1, nf)
  | some k =>
    let (g2, f2) := k32Mul false g k
    (g2, (f0.or f1).or f2, nf)

/-- Sticky flags of a die (12 R374). -/
def udFlags (s : State) (m : Nat) (f : Flags) : State :=
  let s := if f.ovf then wr s (F.UD_FLAGS_OVF m) 1 else s
  let s := if f.inv then wr s (F.UD_FLAGS_INV m) 1 else s
  if f.nanIn then wr s (F.UD_FLAGS_NAN_IN m) 1 else s

/-- Arithmetic overflows of a pass advance UD_CNT_5, one for each element or sum that overflows (02 R70, 12 R374). -/
def countUdOvf (s : State) (m n : Nat) : State := bumpOvf s (F.UD_CNT_COUNT m 5) n (some (F.UD_FLAGS_CNT_OVF m))

/-- UD_STAT.BUF shows a die's buffer halves (12 R376). -/
def showUd (s : State) (m : Nat) : State := wr s (F.UD_STAT_BUF m) (ud s m).halves.length

/-! Taking units, 12 R356, R357. -/

/-- A step runs that takes units to the update dies. -/
def updating (s : State) : Bool :=
  relayRuns s && (match s.run with
    | some r => !r.program
    | none => false)

/-- What a die reads next of a unit: a chunk of the statistics reading, or of the second reading of a share that does not fit. -/
def nextChunk (s : State) (u : UpdTables) (n m : Nat) : Option UdHalf :=
  let x := ud s m
  let chunks := (dieChunks s u n m).length
  let held := fun (b : Bool) => (x.halves.filter (fun h => h.unit == n && h.second == b)).length
  let c1 := mapGet 0 x.chunks n
  let c2 := mapGet 0 x.read2 n
  if x.done.contains n then none
  else if chunks = 1 then (if c1 = 0 ∧ held false = 0 then some ⟨n, 0, false, false, []⟩ else none)
  else if c1 + held false < chunks then some ⟨n, c1 + held false, false, false, []⟩
  else if c1 = chunks ∧ (sumsFinal s u n).isSome ∧ c2 + held true < chunks then some ⟨n, c2 + held true, true, false, []⟩
  else none

/-- The order in which a die takes units: as they became ready, or under the norm pass in increasing index once it has run. -/
def unitOrder (s : State) (u : UpdTables) : List Nat :=
  if u.normed then (if s.normDone then List.range u.units else []) else s.relay.ready

/-- A half with the blocks it is filled with. -/
def fillHalf (s : State) (u : UpdTables) (m : Nat) (h : UdHalf) : UdHalf :=
  { h with blocks := ((dieChunks s u h.unit m).getD h.chunk []).map (fun b => (b, readBlock s h.unit b)) }

/-- UNIT_TAKE (12 R356, R357): a die reads its share of the next unit, or a chunk of it, with the wire scales into a free half. -/
def execUnitTake (m : Fin 4) (err : ReadErr) (s : State) : Host.Outcome State Fault Refusal :=
  .next (match s.upd with
    | none => s
    | some u =>
      let x := ud s m.val
      if !updating s ∨ 2 ≤ x.halves.length then s
      else match (unitOrder s u).findSome? (fun n => nextChunk s u n m.val) with
        | none => s
        | some h =>
          let blocks := (dieChunks s u h.unit m.val).getD h.chunk []
          match readRuns s (blocks.map (fun b => (outAddr s h.unit b, 8256))) err with
          | none => s
          | some (false, t) => t
          | some (true, t) => showUd (setUd t m.val { x with halves := x.halves ++ [fillHalf t u m.val h] }) m.val)

/-! Statistics, 12 R358, R359. -/

/-- Add to one place of a list of K32 sums. -/
def sumAt (l : List Nat) (i v : Nat) : List Nat × Flags :=
  let (c, f) := k32Add false (l.getD i 0) v
  (l.set i c, f)

/-- A sum of squares of some elements of a block, from +0 in their order; the elements whose square, or whose joining, overflows. -/
def squareSum (g : Nat → Nat) (es : List Nat) : Nat × Flags × List Nat :=
  es.foldl (fun (acc : Nat × Flags × List Nat) e =>
    let (q, f1) := k32Mul false (g e) (g e)
    let (c, f2) := k32Add false acc.1 q
    (c, (acc.2.1.or f1).or f2, if f1.ovf || f2.ovf then e :: acc.2.2 else acc.2.2)) (0, {}, [])

/-- What joins the running sums: the sums, flags, the elements that overflowed, and how many running sums did. -/
structure Partials where
  sums : List Nat
  flags : Flags := {}
  over_ : List Nat := []
  sumOvf : Nat := 0
deriving DecidableEq, Repr

/-- One partial joins its running sum. -/
def Partials.join (p : Partials) (place : Nat) (q : Nat × Flags × List Nat) : Partials :=
  let (l, f) := sumAt p.sums place q.1
  { sums := l, flags := (p.flags.or q.2.1).or f, over_ := p.over_ ++ q.2.2, sumOvf := p.sumOvf + b2n f.ovf }

/-- The partials of one block of a MATRIX join the running sums (12 R358). -/
def blockPartials (s : State) (u : UpdTables) (t : TensorRec) (h : UdHalf) (b tb place : Nat) (l : List Nat) : Partials :=
  let gr := u.groupAt t.group
  let r := heldGrad h b
  let g := fun (e : Nat) => (gradOf s u r e).1
  let frozen := (List.range 128).map (fun i => frozenRow s t gr (128 * (tb / (t.cols / 32)) + i))
  let live := (List.range 128).filter (fun i => !frozen.getD i false)
  let row0 := 128 * (tb / (t.cols / 32))
  let col0 := 32 * (tb % (t.cols / 32))
  let rows := live.foldl (fun (acc : Partials) i =>
    acc.join (place + row0 + i) (squareSum g ((List.range 32).map (fun j => 32 * i + j)))) { sums := l }
  (List.range 32).foldl (fun (acc : Partials) j =>
    acc.join (place + t.rows + col0 + j) (squareSum g (live.map (fun i => 32 * i + j)))) rows

/-- Non-finite gradient elements of a block (12 R367), and the flags of its gradients. -/
def blockScan (s : State) (u : UpdTables) (t : TensorRec) (h : UdHalf) (b tb : Nat) : Nat × Flags :=
  let gr := u.groupAt t.group
  let r := heldGrad h b
  (List.range (t.blockElems tb)).foldl (fun (acc : Nat × Flags) e =>
    if frozenRow s t gr (t.place tb e).1 then acc
    else
      let (_, f, nf) := gradOf s u r e
      (acc.1 + b2n nf, acc.2.or f)) (0, {})

/-- The tensor of a unit's block with the place of its sums. -/
def sumPlaceOf (u : UpdTables) (n b : Nat) : Option (TensorRec × Nat × Nat) :=
  ((sumPlaces u n).find? (fun e => decide (e.2.1 ≤ b ∧ b < e.2.1 + e.1.blocks))).map (fun e => (e.1, b - e.2.1, e.2.2))

/-- What the statistics of a half give: the running sums, non-finite elements, flags, and elements and sums that overflowed. An element
whose gradient overflows counts in the update pass. Log 118. -/
structure StatsOut where
  sums  : List Nat
  nonFin : Nat := 0
  flags : Flags := {}
  ovf   : Nat := 0
deriving DecidableEq, Repr

/-- The statistics of one block join those of a half. -/
def blockStats (s : State) (u : UpdTables) (h : UdHalf) (acc : StatsOut) (b : Nat) : StatsOut :=
  match sumPlaceOf u h.unit b with
  | none => acc
  | some (t, tb, place) =>
    let (nf, f1) := blockScan s u t h b tb
    let p : Partials := if t.kind = 0 then blockPartials s u t h b tb place acc.sums else { sums := acc.sums }
    { sums := p.sums, nonFin := acc.nonFin + nf, flags := (acc.flags.or f1).or p.flags,
      ovf := acc.ovf + p.over_.eraseDups.length + p.sumOvf }

/-- The statistics of the blocks of a half, from the running sums before it. -/
def halfStats (s : State) (u : UpdTables) (m : Nat) (h : UdHalf) (l : List Nat) : StatsOut :=
  ((dieChunks s u h.unit m).getD h.chunk []).foldl (blockStats s u h) { sums := l }

/-- One descriptor's messages to another member: a run of bytes in pieces of 16,384 (13 R397, 14 R436). -/
def sendPieces (s : State) (dst addr : Nat) (data : List Byte) : State :=
  if data = [] then s
  else
    let v := s.relay.dvc
    let tag := mapGet 0 s.tags v
    let s := { s with tags := mapPut s.tags v ((tag + 1) % 65536) }
    let n := ceilDiv data.length 16384
    (rowsOf n 16384 data).zipIdx.foldl (fun t e =>
      sendMsg t { vc := v, dst := dst, src := moduleId t, tag := tag, last := e.2 + 1 == n, hops := 0, tgt := 0, npost := 0,
                  addr := addr + 16384 * e.2, data := e.1 }) s

/-- The last die of the module hands a chain's values on: to the next rank, or the final values to every other member (14 R436). -/
def handOn (s : State) (u : UpdTables) (running final : Nat) (data : List Byte) : State :=
  let (d, rank) := chainShape s u
  if d = 1 then s
  else if rank + 1 < d then sendPieces s (rankModule s 0 (rank + 1)) running data
  else (List.range (d - 1)).foldl (fun t r => sendPieces t (rankModule t 0 r) final data) s

/-- STATISTICS_PASS (12 R358, R359, R367): a die adds the partials of the unit or chunk in its oldest half without statistics to the
running sums of the previous die or rank, once these have come, and hands the sums on after its last chunk. -/
def execStatisticsPass (m : Fin 4) (s : State) : Host.Outcome State Fault Refusal :=
  .next (match s.upd with
    | none => s
    | some u =>
      let x := ud s m.val
      match x.halves.find? (fun h => !h.stat && !h.second) with
      | none => s
      | some h =>
        let n := h.unit
        let done := mapGet 0 x.chunks n
        let before := if done = 0 then sumsIn s u n m.val else some (mapGet [] x.sums n)
        match updating s, before with
        | true, some l =>
          let chunks := dieChunks s u n m.val
          let o := halfStats s u m.val h l
          let halves := if chunks.length = 1 then x.halves.map (fun g => if g = h then { g with stat := true } else g)
            else x.halves.filter (fun g => g != h)
          let s := setUd s m.val { x with halves := halves, sums := mapPut x.sums n o.sums, chunks := mapPut x.chunks n (done + 1) }
          let s := countUdOvf (udFlags s m.val o.flags) m.val o.ovf
          let s := if o.nonFin = 0 then s else bump (wr s (F.UD_STAT_SKIP_SEEN m.val) 1) (F.UD_CNT_COUNT m.val 2) o.nonFin
          let s := if m.val = 3 ∧ done + 1 = chunks.length then
              handOn s u (chainAddr s n 0) (chainAddr s n 1) (o.sums.flatMap (natLE 4))
            else s
          showUd s m.val
        | _, _ => s)

/-! The norm pass, 12 R360. -/

/-- The running sum of squares that a die adds to. -/
def normIn (s : State) (u : UpdTables) (n m : Nat) : Option Nat :=
  if m ≠ 0 then mapFind (ud s (m - 1)).norms n
  else if (chainShape s u).2 = 0 then some 0
  else if s.relay.chains.contains (n, 2) then some (ldN s (s.relay.norm + 16 * n) 4) else none

/-- The final sum of squares of a unit. -/
def normFinal (s : State) (u : UpdTables) (n : Nat) : Option Nat :=
  let (d, rank) := chainShape s u
  if rank + 1 = d then mapFind (ud s 3).norms n
  else if s.relay.chains.contains (n, 3) then some (ldN s (s.relay.norm + 16 * n + 8) 4) else none

/-- The first unit and die whose part of the norm chain is open and whose running value has come. -/
def normNext (s : State) (u : UpdTables) : Option (Nat × Nat × Nat) :=
  ((List.range u.units).flatMap (fun n => (List.range 4).map (fun m => (n, m)))).findSome? (fun e =>
    if (mapFind (ud s e.2).norms e.1).isSome then none else (normIn s u e.1 e.2).map (fun v => (e.1, e.2, v)))

/-- A sum of K32 codes in their order: the sum, its flags, and how many of the additions overflowed. -/
def chainSum (from_ : Nat) (l : List Nat) : Nat × Flags × Nat :=
  l.foldl (fun (acc : Nat × Flags × Nat) v =>
    let (c, f) := k32Add false acc.1 v
    (c, acc.2.1.or f, acc.2.2 + b2n f.ovf)) (from_, {}, 0)

/-- Norm and κ from the units' values (12 R360), their flags, and how many operations overflowed. -/
def normKappa (u : UpdTables) (vals : List Nat) : Nat × Nat × Flags × Nat :=
  let (n2, f1, o1) := chainSum 0 vals
  let (q, f2) := k32Sqrt false n2
  let mag := (convFloat .k32 .rne false (xabs (decodeFloat .k32 u.gmul))).1
  let (norm, f3) := k32Mul false mag q
  let x := decodeFloat .k32 norm
  let c := decodeFloat .k32 u.clipnorm
  let f := (f1.or f2).or f3
  let o := o1 + b2n f2.ovf + b2n f3.ovf
  if x ≠ .nan ∧ (xless x c ∨ xequal x c) then (norm, k32OfNat 1, f, o)
  else
    let (k, f4) := k32Div false u.clipnorm norm
    (norm, k, f.or f4, o + b2n f4.ovf)

/-- NORM_PASS (12 R360): once every unit is reduced, the next part of the norm chain that can run: a die adds the sums of squares of
its blocks of a unit, in block order, to the running value; when the final values of all units have come, every module forms the
norm and κ. -/
def execNormPass (s : State) : Host.Outcome State Fault Refusal :=
  .next (match s.upd with
    | none => s
    | some u =>
      if !updating s ∨ !u.normed ∨ s.normDone ∨ s.relay.ready.length ≠ u.units then s
      else match normNext s u with
        | some (n, m, v) =>
          let (sum, f, o) := chainSum v ((dieBlocks s u n m).map (fun b => (readBlock s n b).sumsq))
          let x := ud s m
          let s := countUdOvf (udFlags (setUd s m { x with norms := mapPut x.norms n sum }) m f) m o
          if m = 3 then handOn s u (s.relay.norm + 16 * n) (s.relay.norm + 16 * n + 8) (natLE 4 sum) else s
        | none =>
          let vals := (List.range u.units).filterMap (normFinal s u)
          if vals.length ≠ u.units then s
          else
            let (norm, kappa, f, o) := normKappa u vals
            (List.range 4).foldl (fun t m =>
                countUdOvf (udFlags (wrAll t [(F.UD_NORM_VALUE m, norm), (F.UD_KAPPA_VALUE m, kappa)]) m f) m o)
              { s with normDone := true })

/-! The rule, 12 R361, R362. -/

/-- K32 operations whose flags are gathered. -/
abbrev Kf := Nat × Flags

/-- Sum. -/
def kfAdd (a b : Kf) : Kf := let (c, f) := k32Add false a.1 b.1; (c, (a.2.or b.2).or f)
/-- Difference. -/
def kfSub (a b : Kf) : Kf := let (c, f) := k32Sub false a.1 b.1; (c, (a.2.or b.2).or f)
/-- Product. -/
def kfMul (a b : Kf) : Kf := let (c, f) := k32Mul false a.1 b.1; (c, (a.2.or b.2).or f)
/-- Quotient. -/
def kfDiv (a b : Kf) : Kf := let (c, f) := k32Div false a.1 b.1; (c, (a.2.or b.2).or f)
/-- Square root. -/
def kfSqrt (a : Kf) : Kf := let (c, f) := k32Sqrt false a.1; (c, a.2.or f)
/-- Maximum. -/
def kfMax (a b : Kf) : Kf := let (c, f) := floatMax .k32 false a.1 b.1; (c, (a.2.or b.2).or f)
/-- Minimum. -/
def kfMin (a b : Kf) : Kf := let (c, f) := floatMin .k32 false a.1 b.1; (c, (a.2.or b.2).or f)
/-- Quotient by a whole number. -/
def kfDivNat (a : Kf) (n : Nat) : Kf := let (c, f) := k32DivNat a.1 n; (c, a.2.or f)
/-- A value without flags. -/
def kf (c : Nat) : Kf := (c, {})

/-- 1 − β, rounded (12 R361). -/
def oneLess (b : Nat) : Kf := kf (kSub (k32OfNat 1) b)

/-- A statistics value moved towards a mean (12 R362). -/
def emaStat (b2 old mean : Kf) (ob2 : Kf) : Kf := kfAdd (kfMul b2 old) (kfMul ob2 mean)

/-- What the rule needs of a tensor beside its elements: r and c as they become, and their mean. -/
structure Factors where
  r    : List Nat
  c    : List Nat
  mr   : Nat
deriving DecidableEq, Repr

/-- r and c of a MATRIX tensor in one die, from its own copy and the final sums (12 R355, R362). -/
def factorsOf (s : State) (u : UpdTables) (t : TensorRec) (m shareN place : Nat) (final : List Nat) : Factors × Flags × Nat :=
  let g := u.groupAt t.group
  let base := stateBase u t m (genCur s) + 24576 * shareN
  let r0 := k32List s base t.rows
  let c0 := k32List s (base + 4 * t.rows) t.cols
  let live := (List.range t.rows).filter (fun i => !frozenRow s t g i)
  let b2 := kf g.b2
  let ob2 := oneLess g.b2
  let rs := (r0.zipIdx).map (fun e =>
    if frozenRow s t g e.2 then kf e.1
    else emaStat b2 (kf e.1) (kfDivNat (kf (final.getD (place + e.2) 0)) t.cols) ob2)
  let cs := if live = [] then c0.map kf
    else (c0.zipIdx).map (fun e => emaStat b2 (kf e.1) (kfDivNat (kf (final.getD (place + t.rows + e.2) 0)) live.length) ob2)
  let mean := kfDivNat (rs.foldl (fun acc x => kfAdd acc (kf x.1)) (kf 0)) t.rows
  (⟨rs.map (fun x => x.1), cs.map (fun x => x.1), mean.1⟩,
   (rs ++ cs).foldl (fun f x => f.or x.2) mean.2, ((mean :: rs ++ cs).filter (fun x => x.2.ovf)).length)

/-- The new values of an element: master, momentum before its narrowing, second moment, with the flags on the way (12 R362). -/
def ruleElem (u : UpdTables) (g : GroupRec) (eta lam : Nat) (grad : Kf) (m0 v0 w0 : Nat) (fac : Option (Nat × Nat × Nat)) :
    Nat × Nat × Nat × Flags :=
  let _ := u
  let mNew := kfAdd (kfMul (kf g.b1) (kf m0)) (kfMul (oneLess g.b1) grad)
  let v : Kf := match fac with
    | some (r, c, mr) => if mr = 0 then kf 0 else kfDiv (kfMul (kf r) (kf c)) (kf mr)
    | none => kfAdd (kfMul (kf g.b2) (kf v0)) (kfMul (oneLess g.b2) (kfMul grad grad))
  let q := kfDiv mNew (kfAdd (kfSqrt v) (kf g.eps))
  let negClip := g.clip + 2 ^ 31
  let q := kfMin (kfMax q (kf negClip)) (kf g.clip)
  let w := kfSub (kf w0) (kfMul (kf eta) (kfAdd q (kfMul (kf lam) (kf w0))))
  (w.1, mNew.1, v.1, w.2)

/-- What updating one block gives: new master codes, momentum and second-moment codes, flags, and counts. -/
structure BlockOut where
  w      : List Nat := []
  m      : List Nat := []
  v      : List Nat := []
  ovf    : List Bool := []
  flags  : Flags := {}
  upd    : Nat := 0
  frozen : Nat := 0
  sr     : Nat := 0
deriving DecidableEq, Repr

/-- Update one element of a block and join it to what the block gives (12 R362, R363). Lists grow at the front. -/
def updateElem (s : State) (u : UpdTables) (t : TensorRec) (g : GroupRec) (r : Reduced) (eta lam tb : Nat) (fac : Option Factors)
    (acc : BlockOut) (e : Nat) (m0 v0 w0 : Nat) : BlockOut :=
  let (row, col, idx) := t.place tb e
  if frozenRow s t g row then
    { acc with w := w0 :: acc.w, m := m0 :: acc.m, v := v0 :: acc.v, ovf := false :: acc.ovf, frozen := acc.frozen + 1 }
  else
    let (gc, gf, _) := gradOf s u r e
    let f3 := fac.map (fun x => (x.r.getD row 0, x.c.getD col 0, x.mr))
    let mWide := (roundK32 false (decodeVal .k16 m0)).1
    let (w, m, v, f) := ruleElem u g eta lam (gc, gf) mWide v0 w0 f3
    let sr := g.mcvt % 4 == 2
    let rnd := srBits u.seed t.id (stepNum s) idx
    let (mc, f2) := convert false .k16 (cvtRnd g.mcvt rnd) (cvtSat g.mcvt) (decodeFloat .k32 m)
    let f := f.or f2
    { acc with w := w :: acc.w, m := mc :: acc.m, v := (if fac.isSome then v0 else v) :: acc.v, ovf := f.ovf :: acc.ovf,
               flags := acc.flags.or f, upd := acc.upd + 1, sr := acc.sr + b2n sr }

/-- The elements of a block one after another. -/
def updateElems (s : State) (u : UpdTables) (t : TensorRec) (g : GroupRec) (r : Reduced) (eta lam tb : Nat) (fac : Option Factors) :
    Nat → List Nat → List Nat → List Nat → BlockOut → BlockOut
  | e, w :: ws, ms, vs, acc =>
    updateElems s u t g r eta lam tb fac (e + 1) ws (ms.drop 1) (vs.drop 1)
      (updateElem s u t g r eta lam tb fac acc e (ms.headD 0) (vs.headD 0) w)
  | _, [], _, _, acc => acc

/-! Outputs, 12 R364 to R366. -/

/-- The groups of a block: places of their elements (12 R353, R364). -/
def blockGroups (t : TensorRec) (n : Nat) : List (List Nat) :=
  if t.kind = 0 then (List.range 32).map (fun j => (List.range 128).map (fun i => 32 * i + j))
  else (List.range (ceilDiv n 128)).map (fun q => (List.range (min 128 (n - 128 * q))).map (fun i => 128 * q + i))

/-- What the working copy of a block gives: codes by place, scales, flags, elements that overflowed, amax, saturations and NaNs. -/
structure CopyOut where
  codes  : NMap Nat := []
  scales : List Nat := []
  flags  : Flags := {}
  ovf    : List Nat := []
  amax   : Option XVal := none
  sat    : Nat := 0
  nan    : Nat := 0
deriving DecidableEq, Repr

/-- One group of the working copy (12 R364, 03 R87). -/
def copyGroup (wcvt : Nat) (w : List Nat) (acc : CopyOut) (es : List Nat) : CopyOut :=
  let vals := es.map (fun e => decodeFloat .k32 (w.getD e 0))
  let a := vals.foldl xmaxMag none
  let (scale, f) := groupScale .k8m a
  let conv := (es.zip vals).map (fun e => (e.1, e.2, storeScaled false .k8m wcvt scale e.2))
  let ovfs := (conv.filter (fun e => e.2.2.2.ovf)).map (fun e => e.1)
  { codes := conv.foldl (fun m e => mapPut m e.1 e.2.2.1) acc.codes
    scales := acc.scales ++ [scale]
    flags := conv.foldl (fun g e => g.or e.2.2.2) (acc.flags.or f)
    ovf := acc.ovf ++ ovfs
    amax := match a with
      | some x => xmaxMag acc.amax x
      | none => acc.amax
    sat := acc.sat + ovfs.length
    nan := acc.nan + (vals.filter (fun x => x == .nan)).length }

/-- The next step's wire scale of a block (12 R365). -/
def nextWire (s : State) (t : TensorRec) (tb : Nat) (a : XVal) : Nat :=
  match a with
  | .fin _ n d =>
    if n = 0 then ldN s (t.wire + tb) 1 else (convKs8 true (xdiv (.fin false 114688 1) (.fin false (n * 2 ^ t.wh) d)).1).1
  | _ => ldN s (t.wire + tb) 1

/-- Write the outputs of a block: the next generation of its state, the next view's codes, scales and wire scale, its amax. -/
def writeBlock (s : State) (u : UpdTables) (t : TensorRec) (g : GroupRec) (m tb k shareN : Nat) (r : Reduced) (o : BlockOut) :
    State × CopyOut :=
  let base := stateBase u t m (1 - genCur s)
  let pad := fun (l : List Nat) (w : Nat) => l.flatMap (natLE w)
  let s := stBytes s (base + 16384 * k) (pad o.w 4)
  let s := stBytes s (base + 16384 * shareN + 8192 * k) (pad o.m 2)
  let s := if t.kind = 0 then s else stBytes s (base + 24576 * shareN + 16384 * k) (pad o.v 4)
  let n := t.blockElems tb
  let c := (blockGroups t n).foldl (copyGroup g.wcvt o.w) {}
  let codes := (List.range n).map (fun e => mapGet 0 c.codes e)
  let (cr, sr) := copyRuns t tb
  let s := (cr.zipIdx).foldl (fun q e => stBytes q (viewShift q e.1.1)
    ((if t.kind = 0 then (codes.drop (32 * e.2)).take 32 else codes).flatMap (natLE 1))) s
  let s := stBytes s (viewShift s sr.1) (c.scales.flatMap (natLE 1))
  let s := stN s (viewShift s (t.wire + tb)) 1 (nextWire s t tb r.amax)
  let inTable := match s.prog with
    | some p => decide (t.hist < p.amaxLen)
    | none => false
  let s := if t.hist = 0xFFFF ∨ !inTable then s
    else mergeAmax s ⟨t.hist, (match c.amax with
      | some x => (roundK32 false x).1
      | none => 0), c.sat, c.nan⟩
  (s, c)

/-- η and λ of a group at the step (12 R350). -/
def stepRates (s : State) (g : GroupRec) : Nat × Nat :=
  (curveOp xmul g.eta (s.curves.getD g.etaC 0), curveOp xmul g.lambda (s.curves.getD g.decayC 0))

/-- One block of a half is updated (12 R362 to R366). -/
def updateBlock (u : UpdTables) (h : UdHalf) (m : Nat) (final : List Nat) (s : State) (b : Nat) : State :=
  let n := h.unit
  match sumPlaceOf u n b with
  | none => s
  | some (t, tb, place) =>
    let g := u.groupAt t.group
    let share := tensorShare t (b - tb) (quarter (moduleBlocks s u n) m)
    let k := tb - share.2
    let base := stateBase u t m (genCur s)
    let count := t.blockElems tb
    let (fac, ff, fo) : Option Factors × Flags × Nat :=
      if t.kind = 0 then (let e := factorsOf s u t m share.1 place final; (some e.1, e.2)) else (none, {}, 0)
    let (eta, lam) := stepRates s g
    let r := heldGrad h b
    let w := k32List s (base + 16384 * k) count
    let mo := codes16 (ldBytes s (base + 16384 * share.1 + 8192 * k) (2 * count))
    let v := if t.kind = 0 then [] else k32List s (base + 24576 * share.1 + 16384 * k) count
    let o := updateElems s u t g r eta lam tb fac 0 w mo v {}
    let o := { o with w := o.w.reverse, m := o.m.reverse, v := o.v.reverse, ovf := o.ovf.reverse }
    let s := match fac with
      | some f =>
        let nb := stateBase u t m (1 - genCur s) + 24576 * share.1
        stBytes (stBytes s nb (f.r.flatMap (natLE 4))) (nb + 4 * t.rows) (f.c.flatMap (natLE 4))
      | none => s
    let (s, c) := writeBlock s u t g m tb k share.1 r o
    let ovfs := ((List.range count).filter (fun e => o.ovf.getD e false || c.ovf.contains e)).length
    let s := udFlags s m ((o.flags.or ff).or c.flags)
    let s := bump (bump s (F.UD_CNT_COUNT m 0) o.upd) (F.UD_CNT_COUNT m 1) o.frozen
    bump (countUdOvf s m (ovfs + if k = 0 then fo else 0)) (F.UD_CNT_COUNT m 6) o.sr   -- r and c once a tensor

/-- The slow-tier and bitmap bytes that an update pass reads (12 R355, R363). -/
def updateRuns (s : State) (u : UpdTables) (n m : Nat) (blocks : List Nat) : List (Nat × Nat) :=
  blocks.flatMap (fun b => match sumPlaceOf u n b with
    | none => []
    | some (t, tb, _) =>
      let share := tensorShare t (b - tb) (quarter (moduleBlocks s u n) m)
      let k := tb - share.2
      let base := stateBase u t m (genCur s)
      [(base + 16384 * k, 16384), (base + 16384 * share.1 + 8192 * k, 8192)]
        ++ (if t.kind = 0 then [(base + 24576 * share.1, 4 * (t.rows + t.cols))] else [(base + 24576 * share.1 + 16384 * k, 16384)])
        ++ (if t.kind = 0 ∧ t.fmap ≠ 0 then [(t.fmap, ceilDiv t.rows 8)] else []))

/-- UPDATE_PASS (12 R357, R362 to R367): a die updates the blocks of the oldest half that waits for it, once the final sums have come,
and frees the half; with the last of its share the unit is complete in this die. -/
def execUpdatePass (m : Fin 4) (err : ReadErr) (s : State) : Host.Outcome State Fault Refusal :=
  .next (match s.upd with
    | none => s
    | some u =>
      let x := ud s m.val
      match x.halves.find? (fun h => (h.stat || h.second) && (sumsFinal s u h.unit).isSome) with
      | none => s
      | some h =>
        if !updating s then s
        else
          let n := h.unit
          let chunks := dieChunks s u n m.val
          let blocks := chunks.getD h.chunk []
          match readRuns s (updateRuns s u n m.val blocks) err with
          | none => s
          | some (false, t) => t
          | some (true, t) =>
            let t := blocks.foldl (updateBlock u h m.val ((sumsFinal s u n).getD [])) t
            let y := ud t m.val
            let c := mapGet 0 y.read2 n + 1
            let whole := c == chunks.length
            let t := setUd t m.val { y with halves := y.halves.filter (fun g => g != h), read2 := mapPut y.read2 n c,
                                            done := if whole then y.done ++ [n] else y.done }
            let t := if whole then bump t (F.UD_CNT_COUNT m.val 3) 1 else t
            relaySettle (showUd t m.val))

/-- UD_STAT.PHASE and UNIT (12 R376): a half whose update can run, one whose partials can be added, one that waits for a chain, a unit that
waits for the norm pass or for its final sums, a unit that is being read, in this order. Log 119. -/
def udPhase (s : State) (m : Nat) : Nat × Nat :=
  match s.upd with
  | none => (0, 0)
  | some u =>
    let x := ud s m
    if !updating s then (0, 0)
    else match x.halves.find? (fun h => (h.stat || h.second) && (sumsFinal s u h.unit).isSome) with
    | some h => (4, h.unit)
    | none =>
      let adds := fun (h : UdHalf) => !h.stat && !h.second && (mapGet 0 x.chunks h.unit != 0 || (sumsIn s u h.unit m).isSome)
      if x.halves.any adds then (2, 0)
      else if x.halves ≠ [] ∨ (u.normed ∧ !s.normDone ∧ s.relay.ready ≠ []) then (3, 0)
      else if (unitOrder s u).any (fun n => (nextChunk s u n m).isSome) then (1, 0)
      else if (unitOrder s u).any (fun n => !x.done.contains n) then (3, 0)
      else (0, 0)

/-- UD_STAT (12 R376). -/
def udStatView (s : State) (m v : Nat) : Nat :=
  let e := udPhase s m
  setBits (setBits v 0 4 e.1) 16 8 e.2

/-! The step, 12 R350, R356, R368, R370. -/

/-- The update dies and the relay engines at the start of a step or replay (12 R356, 14 R439): nothing is held; the curves are
evaluated at the step's number; SKIP_SEEN is of the step. -/
def startUpdates (s : State) (step : Nat) : State :=
  let s := clearRelayRegs { s with relay := {}, uds := [{}, {}, {}, {}], normDone := false,
                                   curves := match s.upd with
                                     | some u => curveVals u step
                                     | none => [] }
  (List.range 4).foldl (fun t m =>
    wrAll t [(F.UD_STAT_SKIP_SEEN m, 0), (F.UD_STAT_BUF m, 0)]) s

/-- Every unit of every die is complete (16 R481). -/
def updatesComplete (s : State) : Bool :=
  match s.upd with
  | some u => (List.range u.units).all (unitUpdated s)
  | none => true

/-- The module's own skip flag (12 R367, R368). -/
def skipFlag (s : State) : Bool :=
  match s.upd with
  | some u => u.policy == 0 && (List.range 4).any (fun m => rdb s (F.UD_STAT_SKIP_SEEN m))
  | none => false

/-- The generations flip in one act (12 R370). -/
def flipGenerations (s : State) : State :=
  (List.range 4).foldl (fun t m => wr t (F.UD_GEN_CUR m) (1 - rd t (F.UD_GEN_CUR m))) s

/-! Amax records at a commit, 03 R91. -/

/-- fmt_max of a record's format. -/
def recordMax (code : Nat) : XVal :=
  match Fmt.ofCode code with
  | some f => fmtMax f
  | none => .nan

/-- An entry of a record's ring as the maximum takes it: a negative, infinite or NaN entry counts as 0. -/
def ringValue (c : Nat) : XVal :=
  match decodeFloat .k32 c with
  | .fin false n d => .fin false n d
  | _ => .fin false 0 1

/-- One record at a commit (03 R91). -/
def commitRecord (step : Nat) (skip : Bool) (s : State) (i : Nat) : State :=
  let a := amaxAddr s i
  if skip then stN (stN s (a + 0x40) 4 0) (a + 0x60) 8 0
  else
    let at_ := ldN s (a + 0x46) 1 % 16
    let count := min (ldN s (a + 0x45) 1 % 32 + 1) 16
    let s := stN s (a + 4 * at_) 4 (ldN s (a + 0x40) 4)
    let s := stN (stN (stN s (a + 0x46) 1 ((at_ + 1) % 16)) (a + 0x45) 1 count) (a + 0x68) 4 step
    let s := if ldN s (a + 0x60) 8 = 0 then s else bumpMem s (a + 0x58) 1
    let top := (List.range count).foldl (fun acc j =>
      let x := ringValue (ldN s (a + 4 * j) 4)
      if xless acc x then x else acc) (XVal.fin false 0 1)
    let s := match top with
      | .fin _ n d =>
        if n = 0 then s
        else
          let b := ldN s (a + 0x47) 1
          stN s (a + 0x44) 1 (convKs8 true (xdiv (recordMax (bits b 0 4)) (.fin false (n * 2 ^ bits b 4 3) d)).1).1
      | _ => s
    stN (stN s (a + 0x40) 4 0) (a + 0x60) 8 0

/-- Every record at a commit. -/
def commitAmax (s : State) (step : Nat) (skip : Bool) : State :=
  match s.prog with
  | some p => (List.range p.amaxLen).foldl (commitRecord step skip) s
  | none => s

end Sys2Proof.Machine
end

