-- ==== Sys2Proof/Machine/View.lean ====
section
/-!
DEFINITION. What a register read returns (00 R5 to R7, 01 R31 to R36): stored fields, and fields that show what a unit holds; the
windows of units; parts held in reset and retired parts.
-/

namespace Sys2Proof.Machine

open Sys2Proof

/-! Units, 01 R26. -/

/-- Is a unit address valid (01 R26)? -/
def unitValid (u : Nat) : Bool :=
  let i := u % 0x1000
  match u / 0x1000 with
  | 0 => i / 256 < 8 && i / 16 % 16 < 10 && i % 16 < 9
  | 1 => i / 256 < 8 && i / 16 % 16 < 10 && i % 16 == 0
  | 2 => i < 8
  | 3 => i == 0
  | 4 => i < 4
  | 5 => i < 16
  | 6 => i < 24
  | 7 => i < 16
  | 8 => i < 12
  | 9 => i < 8
  | _ => false

/-- The core of a unit address of kind 0x0. -/
def unitCore (u : Nat) : CoreId := coreOfKey ((u / 256 % 8 * 10 + u / 16 % 16 % 10) * 9 + u % 16 % 9)

/-- The cluster of a unit address of kind 0x0 or 0x1. -/
def unitCluster (u : Nat) : ClusterId := (unitCore (u / 16 * 16 % 0x1000)).cluster

/-- The compute die of a panel link's first end and the link's place in that die's EDGE region (01 R13, R29): DE_0 to DE_9, HL_0,
HL_1. No register of the manual lies there (DESIGN CHOICE, log 33: which end the unit's window is). -/
def edgePlace (i : Nat) : Nat × Nat :=
  [(0, 0), (1, 1), (2, 1), (4, 0), (5, 1), (6, 1), (0, 1), (1, 2), (2, 2), (3, 1), (0, 2), (4, 2)].getD i (0, 0)

/-- Base of that place's window. -/
def edgeBase (i : Nat) : Nat := 0x1160000 + (edgePlace i).1 * 0x200000 + (edgePlace i).2 * 0x4000

/-- A unit's BAR0 window: base and size (01 R28 to R30); the hub's window holds the ID to HA blocks. -/
def unitWindow (u : Nat) : Nat × Nat :=
  let i := u % 0x1000
  match u / 0x1000 with
  | 0 => (coreBase (unitCore u), 0x1000)
  | 1 => (clusterBase (unitCluster u), 0x20000)
  | 2 => (0x1000000 + i * 0x200000, 0x200000)
  | 3 => (0, 0x70000)
  | 4 => (0x200000 + i * 0x40000, 0x40000)
  | 5 => (0x300000 + i * 0x4000, 0x4000)
  | 6 => (0x340000 + i * 0x2000, 0x2000)
  | 7 => (0x100000 + i * 0x10000, 0x10000)
  | 8 => (edgeBase i, 0x4000)
  | _ => (0x1180000 + i * 0x200000, 0x10000)

/-- Does an offset lie in a unit's window? A port's window holds the module-wide FAB registers too, which are not its own. -/
def inWindow (u off : Nat) : Bool :=
  let w := unitWindow u
  decide (w.1 ≤ off ∧ off < w.1 + w.2) && !(u / 0x1000 == 7 && 0x8000 ≤ off % 0x10000)

/-- Is a unit under a part command of this opcode (18 R535)? -/
def underCommand (s : State) (op u : Nat) : Bool := s.partCmds.any (fun p => p.1 == op && p.2.1 == u)

/-- Does an offset lie in the window of a part that RESET_PART holds in reset (01 R35)? -/
def heldInReset (s : State) (off : Nat) : Bool := s.partCmds.any (fun p => p.1 == 0x52 && inWindow p.2.1 off)

/-- Is a unit retired (18 R516)? HBM stacks, packages and panel links stay in service with a part of them lost. -/
def unitRetired (s : State) (u : Nat) : Bool :=
  match u / 0x1000 with
  | 0 => coreRetired s (unitCore u)
  | 1 => clusterRetired s (unitCluster u)
  | 7 => rd s (F.FP_STAT_STATE (u % 16)) == 7
  | 9 => s.boards.getD (u % 8) 16 == 0
  | _ => false

/-! Fields that show what a unit holds. -/

/-- CO_SEQ_QUEUE (04 R131). -/
def seqQueueView (x : CoreSt) : Nat :=
  x.mq.length + x.tq.length * 2 ^ 5 + x.vq.length * 2 ^ 10 + x.dq.length * 2 ^ 15 + x.cq.length * 2 ^ 20

/-- MX_STAT (05 R171). -/
def mxStatView (x : CoreSt) : Nat :=
  bankState x 0 + bankState x 1 * 4 + bankState x 2 * 16 + bankState x 3 * 64 + x.mx.zone.length * 2 ^ 8
    + x.mx.unver.length * 2 ^ 11 + b2n (!x.mx.refeed.isEmpty) * 2 ^ 14

/-- The 32 bytes of a token (05 R163). -/
def tokenBytes (t : Token) : List Byte :=
  natLE 4 t.status ++ natLE 2 t.trow ++ natLE 2 t.tcol ++ natLE 2 t.index ++ natLE 1 t.bank ++ natLE 5 0 ++ natLE 16 t.rowmask

/-- A word of MX_ZONE_n (05 R171). -/
def zoneView (x : CoreSt) (n w : Nat) : Nat :=
  match x.mx.zone[n]? with
  | none => 0
  | some t => leAt (tokenBytes t) (4 * w) 4

/-- The VX at the front of the chain's queue waits under the storage condition (06 R201). -/
def vxHazard (s : State) (c : CoreId) : Bool :=
  match (core s c).vq with
  | [] => false
  | e :: _ =>
    let x := core s c
    let v := vxIns s c e
    let held := heldAfterTake x v
    opc e.word == 1 && x.ch.vxs.any (fun f => f.writes.any (fun t => (vxReads v held ++ vxWrites v held).any t.meets))

/-- The VX at the front of the chain's queue waits for a token. -/
def vxTokenWait (s : State) (c : CoreId) : Bool :=
  match (core s c).vq with
  | [] => false
  | e :: _ => opc e.word == 1 && (vxIns s c e).take && (core s c).mx.zone.isEmpty

/-- CH_STAT (06 R220 registers). -/
def chStatView (s : State) (c : CoreId) : Nat :=
  let x := core s c
  let h := fun (i : Nat) => x.ch.held[i]?
  b2n (!x.ch.vxs.isEmpty) + b2n (h 0).isSome * 2 + ((h 0).map Held.bank).getD 0 * 4 + b2n (h 1).isSome * 16
    + ((h 1).map Held.bank).getD 0 * 32 + b2n (vxTokenWait s c) * 2 ^ 7 + b2n (vxHazard s c) * 2 ^ 8 + x.ch.vxs.length * 2 ^ 12

/-- CH_TAB_n (06 R189, R192): table A of pair p is n = 2p, table B n = 2p + 1. -/
def chTabView (s : State) (n : Nat) : Nat :=
  match mapFind s.ftabs (n / 2) with
  | none => 0
  | some p =>
    let id := leAt (p.data.drop (if n % 2 = 1 then ftBytes else 0)) 0 2
    id + p.gen % 256 * 2 ^ 16 + b2n (id != 0) * 2 ^ 31

/-- CX_STAT (10 R317): occupied queue entries, the expander, descriptors begun early, the packer. -/
def cxStatView (x : CoreSt) : Nat :=
  let exp := match x.exps.find? (fun j => decide (j.begun < j.count)) with
    | none => 0
    | some j => if j.tries ≠ 0 then 3 else if x.expq.length < 32 then 1 else 2   -- an entry is free: a block is on its way
  x.expq.length + exp * 2 ^ 6 + (x.exps.filter (fun j => !j.taken)).length * 2 ^ 8 + b2n (!x.packs.isEmpty) * 2 ^ 13
    + packInput x * 2 ^ 14

/-- The core of a register's indices. -/
def coreOfIx (ix : List Nat) : CoreId :=
  coreOfKey ((ix.getD 0 0 * 10 + ix.getD 1 0) * 9 + ix.getD 2 0)

/-- The value of a register from its stored fields; a reserved bit reads 0 (00 R7). -/
def storedVal (s : State) (r : RegAt) : Nat :=
  (r.desc.fields.map (fun d => rd s (fldOf r d) * 2 ^ d.lo)).foldl (· + ·) 0

/-- The reset value of a register. -/
def resetVal (r : RegAt) : Nat := (r.desc.fields.map (fun d => (fldOf r d).reset * 2 ^ d.lo)).foldl (· + ·) 0

/-- The vectors that have a pending source are shown in EVC_PBA (17 R501): bit i of word w is vector 64w + i. -/
def vectorPending (s : State) (v : Nat) : Bool :=
  s.regs.any (fun e =>
    let off := e.1 / 8
    decide (0x24000 ≤ off ∧ off < 0x28000) && e.1 % 32 == 0 &&
      (let n := (off - 0x24000) / 4
       (e.2 == 1 || e.2 == 3) && rd s (F.EVC_SRC_CFG_TKIND n) == 0
         && rd s (F.EVC_SRC_CFG_VEC_HI n) * 128 + rd s (F.EVC_SRC_CFG_TARGET n) == v))

/-- The value of a register (01 R31). -/
def regVal (t : State) (r : RegAt) : Nat :=
  if heldInReset t r.off then resetVal r
  else
    let s := seenAt t r.off
    let c := coreOfIx r.ix
    match r.desc.reg with
    | .CO_SEQ_QUEUE => seqQueueView (core s c)
    | .MX_STAT => mxStatView (core s c)
    | .MX_ZONE => zoneView (core s c) (r.ix.getD 3 0) (r.ix.getD 4 0)
    | .CH_STAT => chStatView s c
    | .CH_TAB => chTabView s (r.ix.getD 3 0)
    | .CX_STAT => cxStatView (core s c)
    | .CX_SLOT_W0 => setBits (storedVal s r) 20 11 (slotPins s c.cluster (r.ix.getD 2 0))
    | .SEC_PR_CTL =>
      storedVal s r + b2n (mapFind s.keySlots (rd s (F.SEC_PR_CTL_KEY_SLOT (r.ix.getD 0 0)))).isSome * 2 ^ 9
    | .UD_STAT => udStatView s (r.ix.getD 0 0) (storedVal s r)
    | .EVC_SRC_STAT =>
      let n := r.ix.getD 0 0
      storedVal s r + (if asleep s n then 0 else b2n (inputLevel s n) * 4)
    | .EVC_PBA =>
      ((List.range 64).map (fun i => b2n (vectorPending s (64 * r.ix.getD 0 0 + i)) * 2 ^ i)).foldl (· + ·) 0
    | .CMD_STAT => setBits (setBits (storedVal s r) 30 1 (b2n (mirrorOk s 0))) 29 1 (b2n (mirrorOk s 2))
    | .PWR_CL_STATE => setBits (storedVal s r) 30 2 (b2n (dieParked s (r.ix.getD 0 0)))
    | .PWR_UD_STATE => (List.range 4).foldl (fun v m => setBits v m 1 (b2n (udParked s m))) (storedVal s r)
    | .PWR_STAT => storedVal s r + b2n (alertLow s) * 8
    | .FP_RTT => storedVal s r + (port s (r.ix.getD 0 0)).sent.length * 2 ^ 16
    | _ => storedVal s r

/-- The 32-bit word at a BAR0 offset: 0 where no register is (01 R33). -/
def regWord (s : State) (off : Nat) : Nat :=
  match regAt off with
  | none => 0
  | some r => regVal s r / 2 ^ (8 * (foldFab off - r.off)) % 2 ^ 32

/-- Words of a window as bytes, from an offset on. -/
def windowBytes (s : State) (off words : Nat) : List Byte :=
  (List.range words).flatMap (fun i => natLE 4 (regWord s (off + 4 * i)))

end Sys2Proof.Machine
end

