-- ==== Sys2Proof/Machine/Commands.lean ====
section
/-!
DEFINITION. Commands of the rings other than programs, steps, parts and trust: NOP, ECHO, versions, bindings, tables, scales, copies,
the checkpoint window, reading state and journal (16 R472 to R478, R484 to R487; 13 R396).
-/

namespace Sys2Proof.Machine

open Sys2Proof

/-! NOP, ECHO, QUERY_VERSION. -/

/-- NOP (16 R472): nothing; a reserved value in byte 0x10 or a nonzero reserved byte is refused. -/
def execNopCmd (r : Fin 16) (seq : Nat) (s : State) : Host.Outcome State Fault Refusal :=
  .next (beginCmd s r.val seq 0x00 (fun c =>
    if c.param 0x10 1 = 1 then s
    else if zeroBytes c 0x10 48 then finishOk s r.val seq []
    else badParam s r.val seq 0x20))

/-- ECHO (16 R472): bytes 0x20 to 0x2F come back in RESULT. -/
def execEcho (r : Fin 16) (seq : Nat) (s : State) : Host.Outcome State Fault Refusal :=
  .next (beginCmd s r.val seq 0x00 (fun c =>
    if c.param 0x10 1 ≠ 1 then s
    else if zeroBytes c 0x11 15 && zeroBytes c 0x30 16 then finishOk s r.val seq (sliceBytes c.entry 0x20 16)
    else badParam s r.val seq 0x20))

/-- The highest minor of an end at a major (16 R474): its own at its highest major, the major's last minor below it. -/
def endMinor (maxMaj maxMin maj : Nat) : Nat := if maj = maxMaj then maxMin else Config.lastMinor maj

/-- The version that both ends serve (16 R474): major and minor. -/
def agreedVersion (modMaj modMin drvMaj drvMin drvLow : Nat) : Option (Nat × Nat) :=
  let m := min modMaj drvMaj
  if m < 1 ∨ m < drvLow then none else some (m, min (endMinor modMaj modMin m) (endMinor drvMaj drvMin m))

/-- QUERY_VERSION (16 R474): the highest common major and its lower minor become the ring's version. -/
def execQueryVersion (r : Fin 16) (seq : Nat) (s : State) : Host.Outcome State Fault Refusal :=
  .next (beginCmd s r.val seq 0x01 (fun c =>
    let maj := rd s F.ID_PROTO_SHOAVO_MAJ
    let mi := rd s F.ID_PROTO_SHOAVO_MIN
    let tail := natLE 1 mi ++ natLE 1 maj ++ natLE 1 1
    if !zeroBytes c 0x13 45 then badParam s r.val seq 0x20
    else match agreedVersion maj mi (c.param 0x11 1) (c.param 0x10 1) (c.param 0x12 1) with
      | none => finish s r.val seq 0x12 0 ([0, 0] ++ tail)
      | some (a, b) =>
        finishOk (setVersion s r.val seq (a, b)) r.val seq
          (natLE 1 b ++ natLE 1 a ++ tail)))

/-! Bindings, 13 R396, 16 R476. -/

/-- A STATE of a binding, and its group feature word; a change is an event (17 R495). -/
def setBinding (s : State) (v st gfeat : Nat) : State :=
  let t := wrAll s [(F.FAB_BIND_W0_STATE v, st), (F.FAB_BIND_W1_GFEAT v, gfeat)]
  if rd s (F.FAB_BIND_W0_STATE v) = st then t else raise t (hubSrc 30)

/-- The FEATURES message kept from a module for a channel. -/
def featureOf (s : State) (v src : Nat) : Option Feature := s.features.find? (fun f => f.vc == v && f.src == src)

/-- The STATE of a bound channel is judged over the kept messages of its members (13 R396). -/
def judgeBinding (s : State) (v : Nat) : State :=
  if rd s (F.FAB_BIND_W0_KIND v) = 0 then s
  else
    let l := members s v
    let others := (l.mapIdx (fun i d => (i, d))).filter (fun e => decide (e.1 ≠ myRank s v))
    let got := others.map (fun e => (e.1, featureOf s v e.2))
    if got.any (fun e => e.2.isNone) then setBinding s v 1 0
    else
      let fs := got.filterMap (fun e => e.2.map (fun f => (e.1, f)))
      if fs.all (fun e => e.2.kind == rd s (F.FAB_BIND_W0_KIND v) && e.2.members == rd s (F.FAB_BIND_W0_MEMBERS v)
          && e.2.crc == rd s (F.FAB_BIND_W2_LIST_CRC v) && e.2.rank == e.1)
      then setBinding s v 2 (fs.foldl (fun w e => w &&& e.2.feat) (rd s F.FAB_FEAT_FEAT))
      else setBinding s v 3 0

/-- Body of a FEATURES message; the spec names its fields and no places for them (DESIGN CHOICE, log 34). -/
def featuresBody (v kind rank n crc feat : Nat) : List Byte :=
  natLE 1 v ++ natLE 1 kind ++ natLE 2 rank ++ natLE 2 n ++ natLE 2 0 ++ natLE 4 crc ++ natLE 4 feat

/-- A channel's entry of the group record: KIND, MEMBERS, RANK. -/
def bindEntry (b : List Byte) (v : Nat) : Nat × Nat × Nat := (leAt b (8 * v) 1, leAt b (8 * v + 2) 2, leAt b (8 * v + 4) 2)

/-- A channel's member list in the group record. -/
def bindList (b : List Byte) (v : Nat) : List Nat :=
  (List.range (bindEntry b v).2.1).map (fun i => leAt b (0x40 + 2048 * v + 2 * i) 2)

/-- The reserved fields of a channel's part of the record are 0 and its fields in range (16 R476). -/
def bindFieldsOk (b : List Byte) (v : Nat) : Bool :=
  let e := bindEntry b v
  leAt b (8 * v + 1) 1 == 0 && leAt b (8 * v + 6) 2 == 0 &&
    (if e.1 = 0 then e.2.1 == 0 && e.2.2 == 0 && leAt b (0x40 + 2048 * v) 2048 == 0
     else e.1 ≤ 5 && 1 ≤ e.2.1 && e.2.1 ≤ 1024 && leAt b (0x40 + 2048 * v + 2 * e.2.1) (2048 - 2 * e.2.1) == 0)

/-- A channel's list names this module at RANK, repeats no identifier and names none above 1,023 (16 R476). -/
def bindListOk (s : State) (b : List Byte) (v : Nat) : Bool :=
  let e := bindEntry b v
  let l := bindList b v
  e.1 == 0 || (l[e.2.2]? == some (moduleId s) && decide l.Nodup && l.all (fun d => decide (d ≤ 1023)))

/-- A channel is bound, or unbound, by the record: the registers, the member list, and the MEMBERS of its hurdles (04 R111). Log 74 (DEDUCED). -/
def bindChannel (b : List Byte) (s : State) (v : Nat) : State :=
  let e := bindEntry b v
  let l := bindList b v
  let s := wrAll { s with groups := setAt s.groups v l } [(F.FAB_BIND_W0_KIND v, e.1), (F.FAB_BIND_W0_MEMBERS v, e.2.1),
    (F.FAB_BIND_W0_RANK v, e.2.2), (F.FAB_BIND_W2_LIST_CRC v, if e.1 = 0 then 0 else crc32c (l.flatMap (natLE 2)))]
  if e.1 = 0 then setBinding s v 0 0
  else
    let s := (List.range 256).foldl (fun t h =>
      if rd t (F.HD_CFG_SCOPE 0 h) = 1 ∧ rd t (F.HD_CFG_VC 0 h) = v then hdSet t (fun d => F.HD_MEM_MEMBERS d h) e.2.1 else t) s
    judgeBinding (setBinding s v 1 0) v

/-- FEATURES go to every other member of a bound channel (13 R396). -/
def sendFeatures (s : State) (v : Nat) : State :=
  if rd s (F.FAB_BIND_W0_KIND v) = 0 then s
  else sendMgmtAll s v 1 (featuresBody v (rd s (F.FAB_BIND_W0_KIND v)) (myRank s v) (rd s (F.FAB_BIND_W0_MEMBERS v))
    (rd s (F.FAB_BIND_W2_LIST_CRC v)) (rd s F.FAB_FEAT_FEAT))

/-- BIND_GROUPS (16 R476; 13 R396; 01 R38): record holds the 12,352 bytes that the module reads at RECORD. -/
def execBindGroups (r : Fin 16) (seq : Nat) (record : List Byte) (s : State) : Host.Outcome State Fault Refusal :=
  .next (beginCmd s r.val seq 0x11 (fun c =>
    if !zeroBytes c 0x18 40 then badParam s r.val seq 0x20
    else if c.param 0x10 8 % 64 ≠ 0 then badParam s r.val seq 0x21
    else if s.run.isSome then badParam s r.val seq 0x23
    else if !rdb s F.ID_MODULE_VALID then badParam s r.val seq 0x24
    else if record.length ≠ 12352 then s
    else if !(leAt record 0x30 16 == 0 && (List.range 6).all (bindFieldsOk record)) then badParam s r.val seq 0x20
    else if !(List.range 6).all (bindListOk s record) then badParam s r.val seq 0x24
    else
      let t := (List.range 6).foldl (bindChannel record) { s with bindRec := record }
      finishOk ((List.range 6).foldl sendFeatures t) r.val seq []))

/-- The first MGMT flit of an OP that has arrived and satisfies a test of its body. -/
def firstMgmt (s : State) (op : Nat) (p : List Byte → Bool) : Option CtrlFlit :=
  s.ctrlIn.find? (fun e => e.typ == 6 && leAt e.payload 4 1 == op && p (e.payload.drop 8))

/-- FEATURES_RECEIVE (13 R396): the message replaces the one kept from its module for its channel, and the binding is judged again. -/
def execFeaturesReceive (s : State) : Host.Outcome State Fault Refusal :=
  .next (match firstMgmt s 1 (fun _ => true) with
    | none => s
    | some c =>
      let s := takeCtrl s c
      let b := c.payload.drop 8
      let f : Feature := { src := leAt c.payload 2 2 % 1024, vc := leAt b 0 1, kind := leAt b 1 1, rank := leAt b 2 2, members := leAt b 4 2,
                           crc := leAt b 8 4, feat := leAt b 12 4 }
      if 5 < f.vc then s
      else
        let s := { s with features := s.features.filter (fun g => !(g.src == f.src && g.vc == f.vc)) ++ [f] }
        if (members s f.vc).contains f.src then judgeBinding s f.vc else s)

/-! Tables and scales, 16 R477, R478. -/

/-- Does a function table follow 06 R189: a FUNC_ID of the library, of a host's table or of an empty one, and no reserved encoding or
field? -/
def ftableOk (b : List Byte) : Bool :=
  (decide (leAt b 0 2 ≤ 14) || leAt b 0 2 == 0xFFFF) && leAt b 2 1 % 4 != 3 && leAt b 2 1 < 128 && leAt b 3 1 == 0 && leAt b 0x28 24 == 0

/-- GEN of a function pair, counting a pair that waits for the step boundary. -/
def pairGen (s : State) (p : Nat) : Nat :=
  match mapFind s.ftPend p, mapFind s.ftabs p with
  | some q, _ => q.gen
  | none, some q => q.gen
  | none, none => 0

/-- SET_TABLE with KIND 0 (16 R477, 06 R192): tables holds the 8,320 bytes of tables A and B; a reserved KIND is refused here. Log 75 (DEDUCED). -/
def execSetTablePair (r : Fin 16) (seq : Nat) (tables : List Byte) (s : State) : Host.Outcome State Fault Refusal :=
  .next (beginCmd s r.val seq 0x12 (fun c =>
    let p := c.param 0x11 1
    if c.param 0x10 1 = 1 then s
    else if c.param 0x10 1 ≠ 0 ∨ 15 < p ∨ !zeroBytes c 0x12 6 ∨ !zeroBytes c 0x20 32 then badParam s r.val seq 0x20
    else if c.param 0x18 8 % 64 ≠ 0 then badParam s r.val seq 0x21
    else if tables.length ≠ 2 * ftBytes then s
    else if !(ftableOk (tables.take ftBytes) && ftableOk (tables.drop ftBytes)) then badParam s r.val seq 0x20
    else
      let gen := (pairGen s p + 1) % 256
      let t := { s with ftPend := mapPut s.ftPend p ⟨gen, tables⟩ }
      finishOk (if s.run.isNone then applyTables t else t) r.val seq (natLE 1 gen)))

/-- SET_TABLE with KIND 1 (16 R477, 12 R347, R352): the job record, group, curve and tensor tables as the module reads them. Each
die's TABLE_GEN advances by one; the completion reports UD_0's (log 117). -/
def execSetTableUpdate (r : Fin 16) (seq : Nat) (job group curve tensor : List Byte) (s : State) :
    Host.Outcome State Fault Refusal :=
  .next (beginCmd s r.val seq 0x12 (fun c =>
    if c.param 0x10 1 ≠ 1 then s
    else if c.param 0x11 1 ≠ 0 ∨ !zeroBytes c 0x12 6 ∨ !zeroBytes c 0x38 8 then badParam s r.val seq 0x20
    else if misaligned64 [c.param 0x18 8, c.param 0x20 8, c.param 0x28 8, c.param 0x30 8] then badParam s r.val seq 0x21
    else
      let u : UpdTables := { job := job, group := group, curve := curve, tensor := tensor }
      if job.length ≠ 128 ∨ group.length ≠ 64 * u.groups ∨ curve.length ≠ 256 * 2048 ∨ tensor.length ≠ 64 * leAt job 0x14 2 then s
      else if !tablesOk s u then badParam s r.val seq 0x28
      else
        let gen := fun (m : Nat) => (rd s (F.UD_TABGEN_TABLE_GEN m) + 1) % 256
        let t := (List.range 4).foldl (fun t m => wr t (F.UD_TABGEN_TABLE_GEN m) (gen m)) { s with updPend := some u }
        finishOk (if s.run.isNone then applyTables t else t) r.val seq (natLE 1 (gen 0))))

/-- SET_SCALES (16 R478): KS8 bytes into the current view; data holds the LEN bytes at SRC. -/
def execSetScales (r : Fin 16) (seq : Nat) (data : List Byte) (s : State) : Host.Outcome State Fault Refusal :=
  .next (beginCmd s r.val seq 0x13 (fun c =>
    let dst := c.param 0x18 8
    let len := c.param 0x20 8
    if !zeroBytes c 0x28 24 then badParam s r.val seq 0x20
    else if misaligned64 [c.param 0x10 8, len] ∨ len < 64 ∨ 2 ^ 30 < len then badParam s r.val seq 0x21
    else match s.pair with
      | none => badParam s r.val seq 0x28
      | some (a, _, n) =>
        if dst < a ∨ a + n < dst + len then badParam s r.val seq 0x21
        else if s.run.isSome then badParam s r.val seq 0x23
        else if data.length ≠ len ∨ parkedRun s dst len then s
        else if data.any (fun b => b == 0xFF) then badParam s r.val seq 0x20
        else finishOk (stBytes s dst data) r.val seq []))

/-! Copies and the checkpoint window, 16 R484, R485. -/

/-- A run lies in populated HBM or slow tier below the firmware areas (16 R484). -/
def copyRunOk (a n : Nat) : Bool :=
  (match regionOf a with
    | .hbm _ _ => true
    | .slow _ _ => true
    | _ => false) && populatedRun a n && !reachesFirmware a n

/-- A copy waits: its module range overlaps a range of the loaded program while a step runs or awaits commit (16 R484), or reaches
a parked die's memory (20 R573) or a stack or package under repair (18 R536). -/
def copyWaits (s : State) (a n : Nat) : Bool :=
  parkedRun s a n || (s.run.isSome && (match s.prog with
    | some p => p.ranges.any (fun q => rangesMeet a n q.1 q.2.1)
    | none => false))
  || (match dramOf s a with
    | some d => s.partCmds.any (fun p => p.1 == 0x51 &&
        (if d.1 then p.2.1 == dramUnit d else p.2.1 / 0x1000 == 6 && p.2.1 % 0x1000 / 6 == d.2.1 / 6))
    | none => false)

/-- What both copies check: reserved bytes, alignment and lengths, the module range. -/
def copyDetail (c : Cmd) : Option Nat :=
  let len := c.param 0x20 8
  if !zeroBytes c 0x28 24 then some 0x20
  else if misaligned64 [c.param 0x10 8, len] ∨ len < 64 ∨ 2 ^ 40 < len then some 0x21
  else if !copyRunOk (c.param 0x18 8) len then some 0x21
  else none

/-- Does a run reach the staged firmware image's range (19 R550)? -/
def reachesStaged (s : State) (a n : Nat) : Bool :=
  match s.staged with
  | some (b, m) => rangesMeet a n b m
  | none => false

/-- COPY_IN (16 R484): data holds the LEN bytes at HOST. -/
def execCopyIn (r : Fin 16) (seq : Nat) (data : List Byte) (s : State) : Host.Outcome State Fault Refusal :=
  .next (beginCmd s r.val seq 0x30 (fun c =>
    let dev := c.param 0x18 8
    let len := c.param 0x20 8
    match copyDetail c with
    | some d => badParam s r.val seq d
    | none =>
      if reachesStaged s dev len then badParam s r.val seq 0x21
      else if copyWaits s dev len ∨ data.length ≠ len then s
      else finishOk (stBytes s dev data) r.val seq []))

/-- COPY_OUT (16 R484): a line that cannot be read is a data fault (11 R322), and the command keeps no terminal status, so it runs
again from its start (16 R466). -/
def execCopyOut (r : Fin 16) (seq : Nat) (err : ReadErr) (s : State) : Host.Outcome State Fault Refusal :=
  .next (beginCmd s r.val seq 0x31 (fun c =>
    let dev := c.param 0x18 8
    let len := c.param 0x20 8
    match copyDetail c with
    | some d => badParam s r.val seq d
    | none =>
      if copyWaits s dev len then s
      else match readRuns s [(dev, len)] err with
        | none => s
        | some (false, t) => t
        | some (true, t) => finishOk (hostWrite t (c.param 0x10 8) (ldBytes t dev len)) r.val seq []))

/-- CHECKPOINT_MAP (16 R485, 15 R449). -/
def execCheckpointMap (r : Fin 16) (seq : Nat) (s : State) : Host.Outcome State Fault Refusal :=
  .next (beginCmd s r.val seq 0x32 (fun c =>
    let size := c.param 0x10 2
    let base := fun m => c.param (0x18 + 8 * m) 8
    if !zeroBytes c 0x12 6 ∨ !zeroBytes c 0x38 8 ∨ size % 4 ≠ 0 ∨ 512 < size then badParam s r.val seq 0x20
    else if (List.range 4).any (fun m => base m % 2 ^ 21 != 0) then badParam s r.val seq 0x21
    else if size ≠ 0 && !(List.range 4).all (fun m =>
        (match regionOf (base m) with
          | .slow d off => d == m && decide (off + size * 2 ^ 28 ≤ fwOffset)
          | _ => false)) then badParam s r.val seq 0x21
    else finishOk (wrAll s ((F.HA_CKPT_SIZE_SIZE, size) :: (List.range 4).map (fun m => (F.HA_CKPT_BASE_ADDR m, base m)))) r.val seq []))

/-! Reading state and journal, 16 R486, R487. -/

/-- The bytes of a core's vector registers. -/
def vregBytes (x : CoreSt) (off n : Nat) : List Byte :=
  (List.range n).map (fun i =>
    let b := off + i
    BitVec.ofNat 8 (mapGet 0 x.ch.vr (b / 1024 * 256 + b % 1024 / 4) / 2 ^ (8 * (b % 4))))

/-- The bytes of a core's mask registers, bit row * 128 + column of each. -/
def maskBytes (x : CoreSt) (off n : Nat) : List Byte :=
  (List.range n).map (fun i =>
    let b := off + i
    BitVec.ofNat 8 ((List.range 8).foldl (fun a j => a + mapGet 0 x.ch.mask (8 * b + j) * 2 ^ j) 0))

/-- The 144 bytes of the table record in a slot (10 R293); zeros where the slot holds none. -/
def slotRecord (s : State) (k : ClusterId) (n : Nat) : List Byte :=
  match Fmt.ofCode (rd s (F.CX_SLOT_W2_FMT k n)) with
  | some f => if 2 ≤ slotState s k n then tableRecord (rd s (F.CX_SLOT_W1_IDENT k n)) f (slotLens s k n) else List.replicate 144 0
  | none => List.replicate 144 0

/-- The bytes of a function pair, tables A then B. -/
def pairBytes (s : State) (p : Nat) : List Byte :=
  match mapFind s.ftabs p with
  | some q => q.data
  | none => List.replicate (2 * ftBytes) 0

/-- The update tables in force in READ_STATE's order. -/
def updBytes (s : State) : List Byte :=
  match s.upd with
  | some u => u.job ++ u.group ++ u.curve ++ u.tensor
  | none => []

/-- Is a unit held in reset by RESET_PART, or within a part that is? -/
def unitInReset (s : State) (u : Nat) : Bool := heldInReset s (unitWindow u).1

/-- A state space of a unit (16 R486): its size and the bytes of a part of it; none for a kind that the space does not serve. Log 73 (DEDUCED). -/
def stateSpace (s : State) (u space ix off n : Nat) : Option (Nat × List Byte) :=
  let kind := u / 0x1000
  let x := core s (unitCore u)
  let zero := fun (l : List Byte) => if unitInReset s u then List.replicate n 0 else l
  match space with
  | 0 =>
    let w := unitWindow u
    some (w.2, ((windowBytes s (w.1 + off / 4 * 4) (n / 4 + 1)).drop (off % 4)).take n)
  | 1 => if kind = 0 then some (65536, zero (vregBytes x off n)) else none
  | 2 => if kind = 0 then some (16384, zero (maskBytes x off n)) else none
  | 3 => if kind = 0 then some (2 * ftBytes, zero (sliceBytes (pairBytes s ix) off n)) else none
  | 4 => if kind = 1 then some (144, zero (sliceBytes (slotRecord s (unitCluster u) ix) off n)) else none
  | 5 => if kind = 0 then some (65536, zero (sliceBytes (x.instrs.flatMap (natLE 16)) off n)) else none
  | 6 => if kind = 3 then some (2 ^ 48, moduleBytes s off n) else none
  | 7 => if kind = 4 then some ((updBytes s).length, zero (sliceBytes (updBytes s) off n)) else none
  | _ => if kind = 4 then some (1024, zero (sliceBytes (s.curves.flatMap (natLE 4)) off n)) else none

/-- READ_STATE (16 R486): it changes no state of the module (18 R538). -/
def execReadState (r : Fin 16) (seq : Nat) (s : State) : Host.Outcome State Fault Refusal :=
  .next (beginCmd s r.val seq 0x40 (fun c =>
    let u := c.param 0x10 2
    let space := c.param 0x12 1
    let off := c.param 0x18 8
    let len := c.param 0x28 4
    if !zeroBytes c 0x13 1 ∨ !zeroBytes c 0x2C 20 ∨ 8 < space ∨ ((space = 3 ∨ space = 4) ∧ 15 < c.param 0x14 4) then
      badParam s r.val seq 0x20
    else if c.param 0x20 8 % 64 ≠ 0 ∨ len % 4 ≠ 0 ∨ len < 4 ∨ 2 ^ 24 < len ∨ (space = 0 ∧ off % 4 ≠ 0) then badParam s r.val seq 0x21
    else if !unitValid u then badParam s r.val seq 0x22
    else match stateSpace s u space (c.param 0x14 4) off len with
      | none => badParam s r.val seq 0x22
      | some (size, bs) =>
        if size < off + len ∨ (space = 6 ∧ !populatedRun off len) then badParam s r.val seq 0x21
        else if space = 6 ∧ parkedRun s off len then s
        else finishOk (hostWrite s (c.param 0x20 8) bs) r.val seq []))

/-- The journal record of a SEQ (16 R487). -/
def journalRecord (s : State) (ring seq : Nat) : List Byte :=
  match cmdOf s ring seq with
  | none => natLE 4 seq ++ List.replicate 12 0
  | some c => match c.status with
    | some st => natLE 4 seq ++ natLE 1 c.opcode ++ natLE 1 st.1 ++ natLE 1 st.2 ++ natLE 1 2 ++ natLE 8 c.time
    | none => natLE 4 seq ++ natLE 1 c.opcode ++ natLE 2 0 ++ natLE 1 1 ++ natLE 8 c.time

/-- READ_JOURNAL (16 R487). -/
def execReadJournal (r : Fin 16) (seq : Nat) (s : State) : Host.Outcome State Fault Refusal :=
  .next (beginCmd s r.val seq 0x41 (fun c =>
    let n := c.param 0x18 2
    if 16 ≤ c.param 0x10 1 ∨ !zeroBytes c 0x11 3 ∨ !zeroBytes c 0x1A 6 ∨ !zeroBytes c 0x28 24 ∨ n = 0 ∨ 4096 < n then
      badParam s r.val seq 0x20
    else if c.param 0x20 8 % 64 ≠ 0 then badParam s r.val seq 0x21
    else finishOk (hostWrite s (c.param 0x20 8) ((List.range n).flatMap (fun i =>
      journalRecord s (c.param 0x10 1) ((c.param 0x14 4 + i) % 2 ^ 32)))) r.val seq []))

end Sys2Proof.Machine
end

