-- ==== Sys2Proof/Machine/Fec.lean ====
section
/-!
DEFINITION. A flit as 256 bytes: its fields, its CRC, the parity of its three codewords, and what a receiver corrects (13 R379, R380).
-/

namespace Sys2Proof.Machine

open Sys2Proof

/-- A symbol times α in GF(2^8) with field polynomial 0x11D. -/
def gfDouble (a : Nat) : Nat := if 128 ≤ a then (2 * a) ^^^ 0x11D else 2 * a

/-- The product of two symbols, by the bits of the second. -/
def gfMulBits : Nat → Nat → Nat → Nat → Nat
  | 0, _, _, acc => acc
  | n + 1, a, b, acc => gfMulBits n (gfDouble a) (b / 2) (if b % 2 = 1 then acc ^^^ a else acc)

/-- The product of two symbols. -/
def gfMul (a b : Nat) : Nat := gfMulBits 8 a b 0

/-- The places of codeword k in the flit: the bytes i below 250 with i mod 3 = k, then its two parity bytes. -/
def codewordPlaces (k : Nat) : List Nat :=
  ((List.range 250).filter (fun i => i % 3 == k)) ++ [250 + 2 * k, 251 + 2 * k]

/-- The symbols of a codeword; the first is the coefficient of the highest power (DEDUCED, log 13). -/
def codeword (b : List Byte) (k : Nat) : List Nat := (codewordPlaces k).map (fun i => (b.getD i 0).toNat)

/-- The syndromes at the roots α^0 and α^1. -/
def syndromes (l : List Nat) : Nat × Nat := (l.foldl (fun a c => a ^^^ c) 0, l.foldl (fun a c => gfDouble a ^^^ c) 0)

/-- The power j below n with e α^j = s. -/
def errorPower : Nat → Nat → Nat → Nat → Option Nat
  | 0, _, _, _ => none
  | n + 1, e, s, j => if e = s then some j else errorPower n (gfDouble e) s (j + 1)

/-- A flit with codeword k corrected, and the place of the corrected symbol; a codeword with more errors stays as it is. -/
def correctCodeword (b : List Byte) (k : Nat) : List Byte × Option Nat :=
  let l := codeword b k
  let (s0, s1) := syndromes l
  if s0 = 0 then (b, none)
  else
    match errorPower l.length s0 s1 0 with
    | none => (b, none)
    | some j =>
      let i := (codewordPlaces k).getD (l.length - 1 - j) 0
      (b.set i (BitVec.ofNat 8 ((b.getD i 0).toNat ^^^ s0)), some i)

/-- A flit corrected, with the places of the corrected symbols. -/
def correctFlit (b : List Byte) : List Byte × List Nat :=
  [0, 1, 2].foldl (fun acc k => let (c, i) := correctCodeword acc.1 k; (c, acc.2 ++ i.toList)) (b, [])

/-- The CRC of a flit is right (13 R379). -/
def flitCrcOk (b : List Byte) : Bool := crc32c (b.take 246) == leAt b 246 4

/-- The parity bytes of codeword k (13 R380): with them both syndromes are 0; 244 is the inverse of 1 + α. -/
def parityOf (b : List Byte) (k : Nat) : Nat × Nat :=
  let l := ((codewordPlaces k).take ((codewordPlaces k).length - 2)).map (fun i => (b.getD i 0).toNat) ++ [0, 0]
  let (d0, d1) := syndromes l
  let p := gfMul (d0 ^^^ d1) 244
  (p, d0 ^^^ p)

/-- Bytes 0 to 245 of a flit (13 R379). -/
def flitFields (f : Flit) : List Byte :=
  natLE 2 (f.seq % 4096 + f.typ * 4096) ++ natLE 2 (f.ackSeq % 4096 + f.ackKind * 4096)
    ++ natLE 1 (f.vc + 8 * f.cls + 16 * f.credVc + 128 * f.credCls) ++ natLE 1 f.cred ++ payload240 f.payload

/-- The 256 bytes of a flit (13 R379, R380). -/
def flitBytes (f : Flit) : List Byte :=
  let b := flitFields f
  let b := b ++ natLE 4 (crc32c b)
  b ++ [0, 1, 2].flatMap (fun k => let p := parityOf b k; natLE 1 p.1 ++ natLE 1 p.2)

/-- The fields of a flit that has arrived intact. -/
def flitOf (b : List Byte) : Flit :=
  { seq := leAt b 0 2 % 4096, typ := leAt b 0 2 / 4096, ackSeq := leAt b 2 2 % 4096, ackKind := bits (leAt b 2 2) 12 2,
    vc := bits (leAt b 4 1) 0 3, cls := bits (leAt b 4 1) 3 1, credVc := bits (leAt b 4 1) 4 3, credCls := bits (leAt b 4 1) 7 1,
    cred := leAt b 5 1, payload := (b.drop 6).take 240 }

/-- A flit of one of the routed types (13 R381). -/
def routedType (t : Nat) : Bool := decide (1 ≤ t ∧ t ≤ 6)

/-- A flit that passes its CRC is a protocol error (13 R382): a reserved TYPE, a reserved header field, a VC that does not match. -/
def protocolError (b : List Byte) : Bool :=
  let f := flitOf b
  let vcOk :=
    if f.typ = 0 ∨ f.typ = 7 then f.vc == 0
    else if f.typ = 5 then f.vc == 6
    else if f.typ = 6 then f.vc == 7
    else decide (f.vc ≤ 5)
  decide (7 < f.typ) || bits (leAt b 2 2) 14 2 != 0 || !vcOk

end Sys2Proof.Machine
end

