-- ==== Sys2Proof/Machine/Ports.lean ====
section
/-!
DEFINITION. The states of a fabric port: start, detection, training, retrains, widths, retirement (13 R377, R386 to R392, R408;
18 R516, R520).
-/

namespace Sys2Proof.Machine

open Sys2Proof

/-! State and events. -/

/-- STATE of a port (13 R389). -/
def portState (s : State) (p : Nat) : Nat := rd s (F.FP_STAT_STATE p)

/-- STATE of a port changes, which is an event of its die (17 R495). -/
def setPortState (s : State) (p v : Nat) : State :=
  if portState s p = v then s else raise (wr s (F.FP_STAT_STATE p) v) (dieSrc (p / 2) (2 + p % 2))

/-- A routed data flit by its channel. -/
def isData (vc : Nat) : Bool := decide (vc ≤ 5)

/-- The lanes that a port uses, one bit each (13 R377). -/
def widthLanes (width half : Nat) : Nat := if width = 2 then 0xFF else if width = 1 then (if half = 0 then 0x0F else 0xF0) else 0

/-- WIDTH, HALF and LANE_OK of a port. -/
def setWidth (s : State) (p width half : Nat) : State :=
  wrAll s [(F.FP_STAT_WIDTH p, width), (F.FP_STAT_HALF p, half), (F.FP_STAT_LANE_OK p, widthLanes width half)]

/-- Nanoseconds of a flit (13 R377). -/
def flitTime (s : State) (p : Nat) : Nat := if rd s (F.FP_STAT_WIDTH p) = 2 then 2 else 4

/-- The lane that carries byte i of a flit (13 R377). -/
def byteLane (s : State) (p i : Nat) : Nat :=
  if rd s (F.FP_STAT_WIDTH p) = 2 then i % 8 else if rd s (F.FP_STAT_HALF p) = 0 then i % 4 else 4 + i % 4

/-- FP_LANE_ERR of every lane. -/
def laneErrs (s : State) (p : Nat) : List Nat := (List.range 8).map (fun l => rd s (F.FP_LANE_ERR_COUNT p l))

/-- The port becomes ACTIVE: its thresholds count from here (13 R392). -/
def activate (s : State) (p : Nat) : State :=
  let x := port s p
  setPortState (setPort s p { x with errBase := laneErrs s p, fails := 0, thresh := false, replays := [] }) p 4

/-! Retirement, 13 R392, R402, R408. -/

/-- The waiting flits of one message source in one pool. -/
def OutFlit.stream (o : OutFlit) : Nat := o.source * 16 + o.vc * 2 + o.cls

/-- A waiting flit is discarded at a port that it cannot leave by: its receive buffer is freed; without a route it counts, and a data
flit is a link fault of the step (13 R387, R403). -/
def loseOut (s : State) (p : Nat) (o : OutFlit) (noRoute : Bool) : State :=
  let s := if o.origin then s else returnCredit s o.inPort o.inPool 1
  if !noRoute then s
  else
    let s := bump s (F.FAB_CNT_COUNT 0) 1
    if isData o.vc then stepFault s (portUnit p) 0x06 else s

/-- What waits at a port that is given up leaves by other ports (13 R408): HURDLE and MGMT flits, and the messages of which no flit has
left. The map holds for each message source the port that its last message now leaves by, none where it has no route; the rest of a
message that has begun to leave is lost. -/
def rerouteQueue (p : Nat) : List OutFlit → NMap (Option Nat) → State → State × NMap (Option Nat)
  | [], m, s => (s, m)
  | o :: os, m, s =>
    let go := fun (m : NMap (Option Nat)) (out : Option Nat) => rerouteQueue p os m (match out with
      | some q => enqueue s q o
      | none => loseOut s p o true)
    if o.typ = 5 ∨ o.typ = 6 then go m (routePort s o.dst 0)
    else if o.typ = 1 ∨ o.typ = 4 then
      let out := routePort s o.dst (leAt o.payload 4 2)
      go (mapPut m o.stream out) out
    else match mapFind m o.stream with
      | some out => go m out
      | none => rerouteQueue p os m (loseOut s p o false)

/-- The flits that wait behind the HEAD of their message; the others are of messages that a port has begun and not finished. -/
def wholeFlits : List OutFlit → List Nat → List OutFlit
  | [], _ => []
  | o :: os, seen =>
    if o.typ = 2 ∨ o.typ = 3 then (if seen.contains o.stream then o :: wholeFlits os seen else wholeFlits os seen)
    else o :: wholeFlits os (if o.typ = 1 then o.stream :: seen else seen)

/-- Does a port hold flits of messages that it has begun to send and not finished? -/
def begunFlits (l : List OutFlit) : Bool := decide ((wholeFlits l []).length < l.length)

/-- A message in transit that was leaving by a given-up port: it leaves by the new port of its source, or its further flits are lost. -/
def turnStream (p : Nat) (m : NMap (Option Nat)) (i : Nat) (e : Nat × RxStream) : Nat × RxStream :=
  if e.2.fwd = some p then
    match m.find? (fun (f : Nat × Option Nat) => f.1 / 16 == 1 + 16 * i + e.1) with
    | some (_, some q) => (e.1, { e.2 with fwd := some q })
    | some (_, none) => (e.1, { e.2 with fwd := none, drop := true })
    | none => (e.1, { e.2 with fwd := none, drop := true, cut := true })
  else e

/-- The messages in transit through a given-up port are turned away from it (13 R408). -/
def turnStreams (s : State) (p : Nat) (m : NMap (Option Nat)) : State :=
  { s with ports := s.ports.map (fun (e : Nat × PortSt) => (e.1, { e.2 with rx := e.2.rx.map (turnStream p m e.1) })) }

/-- The flits of a queue without those of one source's message that has no end. -/
def cutQueue (src : Nat) (l : List OutFlit) : List OutFlit :=
  let ends := ((l.filter (fun o => o.source == src)).reverse.dropWhile (fun o => o.typ == 1 || o.typ == 2)).length
  (l.foldl (fun (acc : List OutFlit × Nat) o =>
    if o.source = src then (if acc.2 < ends then (o :: acc.1, acc.2 + 1) else acc) else (o :: acc.1, acc.2)) ([], 0)).1.reverse

/-- The messages that were coming in by a given-up port end there: what waits of them elsewhere is discarded, and their links take other
messages. -/
def cutStreams (s : State) (p : Nat) : State :=
  (port s p).rx.foldl (fun t e => match e.2.fwd with
    | none => t
    | some out =>
      let y := port t out
      let src := 1 + 16 * p + e.1
      setPort t out { y with q := cutQueue src y.q, locks := y.locks.filter (fun l => l.2 != src) }) s

/-- A flit of the replay buffer as one that waits. -/
def resendFlit (f : Flit) : OutFlit := { typ := f.typ, vc := f.vc, cls := f.cls, dst := leAt f.payload 0 2 % 1024, payload := f.payload }

/-- A port without anything on its link: nothing sent, nothing owed, sequence numbers at their start. -/
def freshLink (x : PortSt) : PortSt :=
  { q := [], started := x.started, partner := x.partner, removed := x.removed, fails := x.fails, errBase := x.errBase,
    detectAt := x.detectAt, identAt := x.identAt, limits := x.limits, repair := x.repair, startAt := x.startAt }

/-- The link of a port is given up (13 R408, 18 R520, R535): unacknowledged HURDLE and MGMT flits and what waits leave by other ports,
or by this one where keep holds; unacknowledged data flits and the rest of begun messages are lost, a link fault with the given cause. -/
def dropLink (s : State) (p cause : Nat) : State :=
  let x := port s p
  let lost := x.sent.any (fun f => isData f.vc) || begunFlits x.q || x.rx.any (fun e => !e.2.drop)
  let short := (x.sent.filter (fun f => !isData f.vc)).map resendFlit
  let s := cutStreams s p
  let (s, m) := rerouteQueue p (short ++ x.q) [] (setPort s p (freshLink x))
  let s := turnStreams s p m
  if lost then stepFault s (portUnit p) cause else s

/-- A port retires (13 R392, R402, R408; 18 R516, R519): it tells its partner, unless that is what it heard. -/
def retirePort (s : State) (p cause : Nat) (tell : Bool) : State :=
  if portState s p = 7 then s
  else
    let s := if rd s (F.FP_STAT_WIDTH p) = 1 then wr s F.ID_HEALTH_FP_X4 (rd s F.ID_HEALTH_FP_X4 - 1) else s
    let s := if tell && decide (portState s p = 4 ∨ portState s p = 5) then
        { s with wire := s.wire ++ [(p, flitBytes { typ := 7, ackSeq := (port s p).rxLast, payload := natLE 2 2 })] }
      else s
    let s := setWidth (setPortState s p 7) p 0 0
    let s := markPart (wr s F.ID_HEALTH_FP_RET (rd s F.ID_HEALTH_FP_RET + 1)) (portUnit p) cause
    freezePort (dropLink s p 0x06) p

/-! Start and detection, 13 R389, R390. -/

/-- A port in DETECT that has not looked for a partner yet: the ports above it do not leave DETECT before it looks (13 R390). -/
def looksFirst (s : State) (p : Nat) : Bool := portState s p == 1 && (port s p).detectAt == 0

/-- PORT_DETECT (13 R389, R390): a port in DETECT looks for a partner, once every 10 ms. -/
def execPortDetect (p : Fin 16) (partner : Bool) (s : State) : Host.Outcome State Fault Refusal :=
  .next (
    let x := port s p.val
    if portState s p.val ≠ 1 ∨ !x.started ∨ (x.detectAt ≠ 0 ∧ now s - x.detectAt < 10000000)
        ∨ (List.range p.val).any (looksFirst s) then s
    else
      let s := setPort s p.val { x with detectAt := max 1 (now s), partner := partner }
      if partner then setPortState s p.val 2 else s)

/-! Training and versions, 13 R386, R388, R390, R391. -/

/-- The Colsy version that both ends serve: the highest common major and the lower of the highest minors. -/
def agreedColsy (aMaj aMin bMaj bMin bLow : Nat) : Option (Nat × Nat) :=
  let m := min aMaj bMaj
  let minor := fun (maj mi : Nat) => if m = maj then mi else Config.lastColsyMinor m
  if m < 1 ∨ m < bLow then none else some (m, min (minor aMaj aMin) (minor bMaj bMin))

/-- The width of a port after training, from the lanes that pass at both ends and the widths that the partner can run: x8, else the
lower half, else the upper. -/
def chooseWidth (lanes widths : Nat) : Option (Nat × Nat) :=
  if lanes % 256 = 0xFF && bit widths 0 then some (2, 0)
  else if lanes % 16 = 0xF && bit widths 1 then some (1, 0)
  else if lanes / 16 % 16 = 0xF && bit widths 2 then some (1, 1)
  else none

/-- A failed attempt (13 R392): the third in a row retires the port. -/
def failedAttempt (s : State) (p : Nat) : State :=
  let x := port s p
  let s := bump (setPort s p { x with fails := x.fails + 1 }) (F.FP_CNT_COUNT p 8) 1
  if 3 ≤ x.fails + 1 then retirePort s p 0x07 true else s

/-- A port's width falls to x4 (18 R519, R540). -/
def markX4 (s : State) (p : Nat) : State :=
  markPart (wr s F.ID_HEALTH_FP_X4 (rd s F.ID_HEALTH_FP_X4 + 1)) (portUnit p) 0x07

/-- The width that a training gives: a change is marked, and a port back at x8 counts at x4 no longer. -/
def takeWidth (s : State) (p width half : Nat) : State :=
  let was := rd s (F.FP_STAT_WIDTH p)
  let s := setWidth s p width half
  if width = 1 ∧ was ≠ 1 then markX4 s p
  else if width = 2 ∧ was = 1 then wr s F.ID_HEALTH_FP_X4 (rd s F.ID_HEALTH_FP_X4 - 1)
  else s

/-- The widths that lanes allow, as WIDTHS of a configuration set gives them (13 R390). -/
def widthsOf (lanes : Nat) : Nat :=
  b2n (lanes % 256 = 0xFF) + 2 * b2n (lanes % 16 = 0xF) + 4 * b2n (lanes / 16 % 16 = 0xF)

/-- The configuration set that a port sends (13 R388, R390). -/
def portConf (s : State) (p lanes : Nat) : List Byte :=
  natLE 1 (rd s F.ID_PROTO_COLSY_MAJ) ++ natLE 1 (rd s F.ID_PROTO_COLSY_MIN) ++ natLE 1 1 ++ natLE 1 p ++ natLE 1 (widthsOf lanes)
    ++ (List.range 14).flatMap (fun q => natLE 2 (rd s (F.FP_CRED_LIMIT p q))) ++ natLE 4 (rd s F.FAB_FEAT_FEAT)

/-- A port has the partner's configuration set (13 R386, R388, R391): width, credits, round trip and version are settled, and it is ACTIVE, or
INCOMPAT without a common major. -/
def takeConf (s : State) (n lanes rtt : Nat) (conf : List Byte) : State :=
  let x := port s n
  match chooseWidth lanes (leAt conf 4 1) with
  | none => failedAttempt (setPortState s n 2) n
  | some (w, h) =>
    let s := takeWidth s n w h
    let s := wrAll s [(F.FP_RTT_RTT n, rtt), (F.FP_PARTNER_PORT n, leAt conf 3 1 % 16), (F.FP_PFEAT_FEAT n, leAt conf 33 4)]
    let s := (List.range 14).foldl (fun t q => wr t (F.FP_CRED_HELD n q) (leAt conf (5 + 2 * q) 2)) s
    let limits := (List.range 14).map (fun q => leAt conf (5 + 2 * q) 2)
    let s := setPort s n { freshLink x with q := x.q, limits := limits, fails := 0 }
    match agreedColsy (rd s F.ID_PROTO_COLSY_MAJ) (rd s F.ID_PROTO_COLSY_MIN) (leAt conf 0 1) (leAt conf 1 1) (leAt conf 2 1) with
    | none => setPortState s n 6
    | some (a, b) => activate (wrAll s [(F.FP_STAT_RUN_MAJ n, a), (F.FP_STAT_RUN_MIN n, b)]) n

/-- PORT_TRAIN_DONE (13 R386 to R392): training of a port ends with the lanes that pass and the round trip measured: in CONFIG it sends its
configuration set and takes the partner's 37 bytes. While these have not come (conf is not 37 bytes) it stays in CONFIG. Log 120. -/
def execPortTrainDone (p : Fin 16) (lanes rtt : Nat) (conf : List Byte) (s : State) : Host.Outcome State Fault Refusal :=
  .next (
    let n := p.val
    let ok := lanes % 256 - (lanes % 256 &&& (port s n).removed)
    if portState s n ≠ 2 ∧ portState s n ≠ 3 then s
    else if widthsOf ok = 0 then failedAttempt s n
    else
      let t := setPortState s n 3
      let t := if portState s n = 2 then { t with wire := t.wire ++ [(n, portConf s n ok)] } else t
      if conf.length ≠ 37 then t else takeConf t n ok rtt conf)

/-! Retrains, 13 R392. -/

/-- An ACTIVE port begins a retrain; one retrain serves every request (13 R409). -/
def startRetrain (s : State) (p : Nat) : State :=
  if portState s p = 4 then setPortState (bump s (F.FP_CNT_COUNT p 7) 1) p 5 else s

/-- The partner has restarted from DETECT (18 R520): with data flits unacknowledged or a step running it is a fault of the step; the
link starts anew. -/
def partnerRestarts (s : State) (p : Nat) : State :=
  let x := port s p
  let running := match s.run with
    | some r => !r.halted
    | none => false
  let lost := x.sent.any (fun f => isData f.vc)
  let short := (x.sent.filter (fun f => !isData f.vc)).map resendFlit
  let s := cutStreams s p
  let s := setPort s p { freshLink x with q := short ++ wholeFlits x.q [] }
  let s := if lost || running then stepFault s (portUnit p) 0x0D else s
  setPortState s p 2

/-- PORT_RETRAIN (13 R392, 18 R520): the replay threshold is met, the partner enters training, or it restarts from DETECT. -/
def execPortRetrain (p : Fin 16) (cause : RetrainCause) (s : State) : Host.Outcome State Fault Refusal :=
  .next (
    if portState s p.val ≠ 4 then s
    else match cause with
      | .threshold => if (port s p.val).thresh then startRetrain s p.val else s
      | .partner => startRetrain s p.val
      | .partnerRestart => partnerRestarts s p.val)

/-- LANE_LOSS_OF_LOCK (13 R392): a lane in use loses lock. -/
def execLaneLossOfLock (p : Fin 16) (lane : Fin 8) (s : State) : Host.Outcome State Fault Refusal :=
  .next (if bit (rd s (F.FP_STAT_LANE_OK p.val)) lane.val then startRetrain s p.val else s)


/-- The lane in use whose FP_LANE_ERR has advanced most since the port last became ACTIVE; the lower lane wins a tie (13 R392). -/
def failingLane (s : State) (p : Nat) : Nat :=
  let x := port s p
  let adv := fun (l : Nat) => rd s (F.FP_LANE_ERR_COUNT p l) - x.errBase.getD l 0
  ((List.range 8).filter (fun l => bit (rd s (F.FP_STAT_LANE_OK p)) l)).foldl
    (fun (best : Nat × Bool) l => if !best.2 || adv best.1 < adv l then (l, true) else best) (0, false) |>.1

/-- The width after a retrain (13 R392): x8 if the port runs at x8 and every lane passes, else the lower half, else the upper; a
removed lane is not used again (Log 112, DEDUCED). REPAIR_PART retrains on all eight lanes (18 R535). -/
def retrainWidth (s : State) (p lanes removed : Nat) : Option (Nat × Nat) :=
  let ok := lanes % 256 - (lanes % 256 &&& removed)
  chooseWidth ok (if rd s (F.FP_STAT_WIDTH p) = 2 || (port s p).repair then 7 else 6)

/-- A port's retrain ends with the lanes that pass (13 R392). -/
def trainPort (s : State) (n lanes : Nat) : State :=
  if portState s n ≠ 5 then s
  else
    let x := port s n
    if x.thresh && rd s (F.FP_STAT_WIDTH n) != 2 then retirePort s n 0x07 true
    else
      let removed := if x.thresh then x.removed ||| 2 ^ failingLane s n else x.removed
      let s := setPort s n { x with removed := removed, thresh := false, replays := [] }
      match retrainWidth s n lanes removed with
      | none => failedAttempt s n
      | some (w, h) =>
        let y := port s n
        let removed := if w = 1 then removed ||| (0xFF - lanes % 256) else removed
        activate (takeWidth (setPort s n { y with removed := removed }) n w h) n

end Sys2Proof.Machine
end

