-- ==== Sys2Proof/Machine/Stop.lean ====
section
/-!
DEFINITION. What the start of a step and the start of a replay share: the step boundary, the restart of the cores, the rounds of a job,
and STOP (04 R129, 16 R481, R491, 18 R517, R523 to R529, R531).
-/

namespace Sys2Proof.Machine

open Sys2Proof

/-! Rounds, 16 R481. -/

/-- The channel of round k. -/
def roundVcOf (w k : Nat) : Nat := bits w (3 * k) 3

/-- The other members of a round's group, from this module's rank + 1 on. -/
def roundPeers (s : State) (w k : Nat) : List Nat := peersFrom s (roundVcOf w k)

/-! The boundary. -/

/-- The unit that a step lacks (18 R517): a core that lost its slot, or its retired cluster. -/
def lostUnit (s : State) : Nat :=
  match (occupiedCores s).find? (fun c => lostSlot { s with cores := s.cores.filter (fun (e : Nat × CoreSt) => e.1 == c.key) }) with
  | some c => if clusterRetired s c.cluster then clusterUnit c.cluster else coreUnit c
  | none => hubUnit

/-- Does a stack owe a remap that the loaded program's ranges allow (11 R326)? -/
def remapDue (s : State) : Bool :=
  (List.range 16).any (fun n => rdb s (F.HBM_STAT_RET_PENDING n) &&
    (match s.prog with
      | some p => p.ranges.all (fun r => match regionOf r.1 with
          | .hbm m off => m != n || off + r.2.1 ≤ rd s (F.HBM_LIMIT_LIMIT n)
          | _ => true)
      | none => true))

/-- A step waits for soft repairs (11 R324), for the copy of a retired pseudo-channel (11 R326), for a part that is being reset, and
for a stack or package under repair (18 R536); and for a replay in which the module takes part (18 R534). -/
def boundaryWaits (s : State) : Bool :=
  replaying s || s.softRows != [] || remapDue s
    || s.partCmds.any (fun p => p.1 == 0x52 || (p.1 == 0x51 && (p.2.1 / 0x1000 == 5 || p.2.1 / 0x1000 == 6)))

/-- The relay engines and the rollout cache at the start of a RUN_PROGRAM, which takes no unit to the update dies (16 R480). -/
def startRelays (s : State) : State := clearRelayRegs { s with relay := {} }

/-- STEP_AMAX and STEP_SAT of every history record are 0 at step start (03 R90). -/
def clearStepAmax (s : State) : State :=
  match s.prog with
  | none => s
  | some p => (List.range p.amaxLen).foldl (fun t i =>
      stBytes (stBytes t (p.amaxBase + 128 * i + 0x40) (natLE 4 0)) (p.amaxBase + 128 * i + 0x60) (natLE 8 0)) s

/-- Every occupied core starts, with relays, update dies and rollout cache as at step start (02 R67, 04 R129, 08 R234, 12 R350, 14 R439). -/
def beginExecution (s : State) : State :=
  match s.run with
  | none => s
  | some r =>
    startCores (clearStepAmax (clearRcErr (clearRollout (if r.program then startRelays s else startUpdates s r.step))))

/-- The step boundary passes, and execution begins (01 R21). -/
def startExecution (s : State) : State := beginExecution (applyRemaps s)

/-- Execution begins again from the state of the last commit (18 R529). -/
def restartExecution (s : State) : State := restoreSnapshot (beginExecution s)

/-! STOP. -/

/-- Flits that wait for a port, without the messages of this module whose HEAD has not left (18 R523). pools holds the channels and
classes in which such a HEAD was met. -/
def abandonUnsent : List OutFlit → List (Nat × Nat) → List OutFlit
  | [], _ => []
  | o :: os, pools =>
    if !o.origin || o.typ == 6 || o.typ == 7 then o :: abandonUnsent os pools
    else if o.typ == 5 then abandonUnsent os pools
    else
      let k := (o.vc, o.cls)
      let met := pools.contains k || o.typ == 1 || o.typ == 4
      if met then abandonUnsent os (k :: pools) else o :: abandonUnsent os pools

/-- Does this module still owe flits of a message whose HEAD has left? -/
def originating (s : State) : Bool := s.ports.any (fun e => e.2.q.any (fun o => o.origin && o.typ != 6 && o.typ != 7))

/-- Body of a REPLAY message (18 R524). -/
def replayBody (step id kind round set : Nat) (dirty : Bool) (origin cause : Nat) : List Byte :=
  natLE 4 step ++ natLE 2 id ++ natLE 1 kind ++ natLE 1 round ++ natLE 4 set ++ natLE 1 (b2n dirty) ++ natLE 1 0 ++ natLE 2 origin
    ++ natLE 2 cause ++ natLE 2 0

/-- Later commands of a ring that began under OVERLAP return to their start and run again after the recovered one (16 R491); a part
command completes first (18 R534). -/
def rollBack (s : State) (ring seq : Nat) : State :=
  match cmdOf s ring seq with
  | none => s
  | some c =>
    if c.status.isSome then s
    else
      let before := earlier s c
      { s with journal := s.journal.map (fun (d : Cmd) =>
          if d.ring == ring && d.overlap && d.started && d.status.isNone && !d.is ring seq && !before.any (fun b => b.is d.ring d.seq)
            && !s.partCmds.any (fun p => d.is p.2.2.1 p.2.2.2)
          then { d with started := false, fin := none, rolled := true } else d) }

/-- The commands whose outcome the step gives: later ones on their rings are rolled back. -/
def rollBackRun (s : State) : State :=
  match s.run with
  | none => s
  | some r =>
    let s := rollBack s r.ring r.seq
    if r.committing then rollBack s r.cRing r.cSeq else s

/-- STOP (18 R520 to R523, R528): the replay of a step under a REPLAY_ID, as first reported by a module for a part. Cores, relays and
update dies stop, unsent messages are abandoned, every member of every bound group hears of it, a commit under way is abandoned. A
module whose step has not begun has nothing to stop (18 R534). -/
def enterStop (s : State) (step id origin cause : Nat) : State :=
  if 16 < id then fatalFault s cause 0x0C
  else
    let s := rollBackRun s
    let s := (occupiedCores s).foldl (fun t c => if s.run.isSome then wr t (F.CO_SEQ_STAT_STATE c) 3 else t) s
    let s := { s with
      ports := s.ports.map (fun (e : Nat × PortSt) => (e.1, { e.2 with q := abandonUnsent e.2.q [] }))
      commits := s.commits.filter (fun m => !(m.step == step && decide (serialDiff 16 m.replay id < 0)))
      replay := { id := id, step := step, msgs := s.replay.msgs.filter (fun m => m.step == step && m.id == id), dirty := true,
                  rounds := s.replay.rounds, roundVc := s.replay.roundVc, held := s.replay.held }
      run := s.run.map (fun (r : StepRun) => { r with halted := false, round := 0, sentCommit := false, skip := false, replays := r.replays + 1 }) }
    let s := s.replay.held.foldl freeMsg { s with replay := { s.replay with held := [] } }
    let s := wrAll s [(F.ID_REPLAY_PHASE, 1), (F.ID_REPLAY_REPLAY_ID, id), (F.ID_REPLAY_ORIG_VALID, 1),
      (F.ID_REPLAY_ORIG_ORIGIN, origin), (F.ID_REPLAY_ORIG_CAUSE, cause)]
    let s := bump s (F.ID_FLT_CNT_COUNT 0) 1
    let s := (boundChannels s).foldl (fun t v => sendMgmtAll t v 2 (replayBody step id 1 0 0 false origin cause)) s
    if s.run.isSome then setStepState s 5 else s

end Sys2Proof.Machine
end

