-- ==== Sys2Proof/Machine/Steps.lean ====
section
/-!
DEFINITION. Steps: RUN_STEP, RUN_PROGRAM, COMMIT_STEP and the commit with its rounds (16 R479 to R483; 18 R521, R533).
-/

namespace Sys2Proof.Machine

open Sys2Proof

/-! Checks. -/

/-- ROUNDS and ROUND_VC are refused (16 R473, R481). -/
def roundsBad (c : Cmd) : Bool :=
  let n := c.param 0x15 1
  let w := c.param 0x18 4
  6 < n || (List.range n).any (fun k => decide (5 < roundVcOf w k)) || w / 2 ^ (3 * n) != 0

/-- The channels that the program uses. -/
def programVcs (s : State) : List Nat :=
  match s.prog with
  | some p => p.vcs
  | none => []

/-- The channels of a command's rounds. -/
def roundVcs (c : Cmd) : List Nat := (List.range (c.param 0x15 1)).map (roundVcOf (c.param 0x18 4))

/-- The STATE of a binding (13 R396, R411). -/
def bindState (s : State) (v : Nat) : Nat := rd s (F.FAB_BIND_W0_STATE v)

/-- A channel is unbound, or its binding is CONFLICT (16 R479). -/
def bindingBad (s : State) (l : List Nat) : Bool := l.any (fun v => bindState s v == 0 || bindState s v == 3)

/-- A binding is PENDING: the command waits. -/
def bindingPending (s : State) (l : List Nat) : Bool := l.any (fun v => bindState s v == 1)

/-- May a RUN_STEP carry a number (16 R480)? The first after a load any, a later one CMD_LAST_STEP + 1, or again the number of a step that
ended FAULT_FATAL since the last commit. Log 104 (DEDUCED). -/
def stepExpected (s : State) (n : Nat) : Bool :=
  match s.replay.rejoin with
  | some (step, _) => n == step
  | none => s.firstRun || n == (rd s F.CMD_LAST_STEP_STEP + 1) % 2 ^ 32 || s.failedStep == some n

/-- The channels that a step uses: its program's, those of the rounds, and those of the relays, which every step arms: the channels bound to
a DATA or a GATHER group (14 R412, R438). Log 123 (DEDUCED). -/
def stepVcs (s : State) (c : Cmd) : List Nat :=
  programVcs s ++ roundVcs c
    ++ (List.range 6).filter (fun v => rd s (F.FAB_BIND_W0_KIND v) == 2 || rd s (F.FAB_BIND_W0_KIND v) == 3)

/-- The first check of 16 R479 that a RUN_STEP fails. -/
def runStepDetail (s : State) (c : Cmd) : Option Nat :=
  if s.prog.isNone then some 0x26
  else if !(s.prog.map Program.arms).getD false then some 0x2A
  else if s.run.isSome then some 0x23
  else if !(List.range 4).all (fun m => rdb s (F.UD_GEN_TABLES_VALID m) && rdb s (F.UD_GEN_PAIR_VALID m)) then some 0x28
  else if !stepExpected s (c.param 0x10 4) then some 0x29
  else if bindingBad s (stepVcs s c) then some 0x27
  else none

/-- The first check that a RUN_PROGRAM fails (16 R480). -/
def runProgramDetail (s : State) : Option Nat :=
  if s.prog.isNone then some 0x26
  else if s.run.isSome then some 0x23
  else if bindingBad s (programVcs s) then some 0x27
  else none

/-! Beginning. -/

/-- COMMIT messages of other steps are discarded when the first RUN_STEP after a load begins (16 R482). -/
def dropOtherCommits (s : State) (step : Nat) : State :=
  let kept := s.commits.filter (fun m => m.step == step || m.step == (step + 1) % 2 ^ 32)
  bump { s with commits := kept } (F.CMD_CNT_COUNT 7) (s.commits.length - kept.length)

/-- The run that a RUN_STEP describes. -/
def runOf (r seq : Nat) (c : Cmd) : StepRun :=
  { ring := r, seq := seq, step := c.param 0x10 4, commit := bit (c.param 0x14 1) 0, rounds := c.param 0x15 1, roundVc := c.param 0x18 4,
    limit := c.param 0x1C 4, started := true }

/-- A RUN_STEP begins (16 R479, R480): the commit messages, the rounds of a replay, the REPLAY_ID that the step may already have. -/
def beginStep (s : State) (r seq : Nat) (c : Cmd) : State :=
  let q := runOf r seq c
  let s := markStarted s r seq
  let s := if s.firstRun then dropOtherCommits { s with firstRun := false } q.step else s
  { s with run := some q,
           replay := { id := if s.replay.step = q.step then s.replay.id else 0, step := q.step, rounds := q.rounds, roundVc := q.roundVc } }

/-- RUN_STEP (16 R479, R480, R481). After a warm reset the step that was under way runs as part of the job's replay (18 R533). A slot
that the program lacks is a fault fatal to the job (18 R517). -/
def execRunStep (r : Fin 16) (seq : Nat) (s : State) : Host.Outcome State Fault Refusal :=
  .next (beginCmd s r.val seq 0x20 (fun c =>
    if 1 < c.param 0x14 1 ∨ !zeroBytes c 0x16 2 ∨ !zeroBytes c 0x20 32 ∨ roundsBad c then badParam s r.val seq 0x20
    else
      match runStepDetail s c with
      | some d => badParam s r.val seq d
      | none =>
        if bindingPending s (stepVcs s c) || boundaryWaits s then s
        else match s.replay.rejoin with
        | some (step, id) =>
          let t := beginStep s r.val seq c
          enterStop { t with replay := { t.replay with rejoin := none } } step ((id + 1) % 65536) (moduleId s) 0xFFFF
        | none =>
          if lostSlot s then fatalFault s (lostUnit s) 0x07
          else setStepState (startExecution (beginStep s r.val seq c)) 2))

/-- RUN_PROGRAM (16 R480). It has no step number: the number that a fault record or an abort would carry is a free value (log 6). -/
def execRunProgram (r : Fin 16) (seq : Nat) (s : State) : Host.Outcome State Fault Refusal :=
  .next (beginCmd s r.val seq 0x21 (fun c =>
    if !zeroBytes c 0x10 48 then badParam s r.val seq 0x20
    else
      match runProgramDetail s with
      | some d => badParam s r.val seq d
      | none =>
        if bindingPending s (programVcs s) || boundaryWaits s then s
        else if lostSlot s then finish s r.val seq 0x21 0x34 []
        else
          let (n, s) := drawFree s 32
          setStepState (startExecution { markStarted s r.val seq with run := some { ring := r.val, seq := seq, step := n, program := true, started := true } }) 2))

/-! The commit. -/

/-- COMMIT_STEP (16 R481): the uncommitted step of the number begins its commit; during a replay the commit follows the re-run
(18 R534); after a warm reset the step runs again from the last commit, as a replay (16 R466, 18 R533). -/
def execCommitStep (r : Fin 16) (seq : Nat) (s : State) : Host.Outcome State Fault Refusal :=
  .next (beginCmd s r.val seq 0x22 (fun c =>
    if !zeroBytes c 0x14 1 ∨ !zeroBytes c 0x16 2 ∨ !zeroBytes c 0x20 32 ∨ roundsBad c then badParam s r.val seq 0x20
    else
      match s.run with
      | none => badParam s r.val seq 0x29
      | some q =>
        if q.program ∨ q.committing ∨ q.step ≠ c.param 0x10 4 then badParam s r.val seq 0x29
        else
          let q := { q with committing := true, cRing := r.val, cSeq := seq, cRounds := c.param 0x15 1, cRoundVc := c.param 0x18 4, round := 0,
                            cLimit := c.param 0x1C 4, cTime := now s }
          let s := { markStarted s r.val seq with run := some q }
          match s.replay.rejoin with
          | some (step, id) =>
            enterStop { s with replay := { s.replay with rejoin := none } } step ((id + 1) % 65536) (moduleId s) 0xFFFF
          | none => if q.halted && !replaying s then setStepState s 4 else s))

/-- The COMMIT messages of a round (16 R481, R482). -/
def sendCommitRound (s : State) (q : StepRun) : State :=
  let v := roundVcOf q.cRoundVc q.round
  sendMgmtAll s v 3 (natLE 4 q.step ++ natLE 1 q.round ++ natLE 1 (b2n q.skip) ++ natLE 2 s.replay.id)

/-- The commit takes place, or the step is skipped (16 R481; 03 R91; 12 R368, R370; 18 R529). -/
def finishCommit (s : State) (q : StepRun) : State :=
  let s := commitAmax s q.step q.skip
  let s := if q.skip then (List.range 4).foldl (fun t m => bump t (F.UD_CNT_COUNT m 4) 1) s else flipGenerations s
  let s := wrAll s [(F.CMD_LAST_STEP_STEP, q.step), (F.CMD_STAT_STEP_VALID, 1)]
  let s := takeSnapshot { s with failedStep := none, commits := s.commits.filter (fun m => m.step != q.step) }
  let st := if q.skip then 0x30 else if q.replays = 0 then 0 else 0x20
  let res := if q.commit then stepResult s q.step q.replays else natLE 1 (genCur s)
  endRun (finish s q.cRing q.cSeq st 0 res)

/-- Cores whose counters the check at commit finds wrong (04 R120). -/
def residueCores (s : State) : List (CoreId × Nat) := (occupiedCores s).filterMap (fun c => (residueAt s c).map (fun n => (c, n)))

/-- Every such core records RESIDUE. -/
def commitResidue (s : State) : List (CoreId × Nat) → State
  | [] => s
  | (c, n) :: l => programFault (l.foldl (fun t e => stopCore t e.1 0x04 e.2 (pcOf t e.1) 0) s) c 0x04 n (pcOf s c) 0

/-- STEP_COMMIT (16 R481; 04 R120): relays and updates are complete; the counters are checked again, and the first round begins, or
the module decides alone. -/
def execStepCommit (s : State) : Host.Outcome State Fault Refusal :=
  .next (match s.run with
    | none => s
    | some q =>
      if !q.committing ∨ !q.halted ∨ q.sentCommit ∨ replaying s ∨ !relaysComplete s ∨ !updatesComplete s then s
      else
        match residueCores s with
        | e :: l => commitResidue s (e :: l)
        | [] =>
          let q := { q with skip := skipFlag s, sentCommit := true, round := 0 }
          let s := { s with run := some q }
          if q.cRounds = 0 then finishCommit s q else sendCommitRound s q)

/-- The steps whose COMMIT messages are kept (16 R482): its uncommitted step, or the one it expects, and the one after. -/
def keepsStep (s : State) (step : Nat) : Bool :=
  let from_ := fun (n : Nat) => step == n || step == (n + 1) % 2 ^ 32
  match s.run with
  | some q => if q.program then s.firstRun || from_ ((rd s F.CMD_LAST_STEP_STEP + 1) % 2 ^ 32) else from_ q.step
  | none => s.firstRun || from_ ((rd s F.CMD_LAST_STEP_STEP + 1) % 2 ^ 32)

/-- COMMIT_MESSAGE_RECEIVE (16 R482). -/
def execCommitMessageReceive (s : State) : Host.Outcome State Fault Refusal :=
  .next (match firstMgmt s 3 (fun _ => true) with
    | none => s
    | some f =>
      let s := takeCtrl s f
      let b := f.payload.drop 8
      let m : CommitMsg := { src := leAt f.payload 2 2 % 1024, step := leAt b 0 4, round := leAt b 4 1, skip := bit (leAt b 5 1) 0,
                             replay := leAt b 6 2 }
      let cur := if s.replay.step = m.step then s.replay.id else 0
      if !keepsStep s m.step || decide (serialDiff 16 m.replay cur < 0)
          || s.commits.any (fun n => n.src == m.src && n.step == m.step && n.round == m.round && n.replay == m.replay) then
        bump s (F.CMD_CNT_COUNT 7) 1
      else { s with commits := s.commits ++ [m] })

/-- COMMIT_ROUND_END (16 R481, R482): the message of the round has come from every other member; the next round begins, or the commit
takes place. -/
def execCommitRoundEnd (s : State) : Host.Outcome State Fault Refusal :=
  .next (match s.run with
    | none => s
    | some q =>
      if !q.sentCommit ∨ replaying s then s
      else
        let mine := s.commits.filter (fun m => m.step == q.step && m.round == q.round && m.replay == s.replay.id)
        let peers := roundPeers s q.cRoundVc q.round
        if !peers.all (fun d => mine.any (fun m => m.src == d)) then s
        else
          let q := { q with skip := q.skip || mine.any (fun m => m.skip && peers.contains m.src), round := q.round + 1 }
          let s := { s with run := some q }
          if q.round < q.cRounds then sendCommitRound s q else finishCommit s q)

/-- COMMIT_LIMIT (16 R483): LIMIT_MS has passed before the last round ended; nothing flips, and the step is discarded. -/
def execCommitLimit (s : State) : Host.Outcome State Fault Refusal :=
  .next (match s.run with
    | none => s
    | some q =>
      if !q.committing ∨ !q.halted ∨ replaying s ∨ q.cLimit = 0 ∨ now s - q.cTime < q.cLimit * 1000000 then s
      else endRun (failRun s 0x33))

end Sys2Proof.Machine
end

