-- ==== Sys2Proof/Machine/Parts.lean ====
section
/-!
DEFINITION. The part commands, panel-link lanes, faults fatal to the job, and the retirements that a reset keeps (01 R14, R20, R35;
16 R488; 18 R514 to R519, R535 to R537).
-/

namespace Sys2Proof.Machine

open Sys2Proof

/-! The record of retirements, 18 R519. -/

/-- A part is whole again: it leaves the marshal's record. -/
def unmark (s : State) (u : Nat) : State :=
  let l := s.retired.filter (fun v => v != u)
  wr { s with retired := l } F.ID_HEALTH_DEGRADED (b2n (!l.isEmpty))

/-- After a reset that covers a cluster the recorded retirements of its cores show again, and take effect at the next step boundary
(01 R20, 18 R519). -/
def reapplyCores (s : State) (k : ClusterId) : State :=
  let lost := (s.retired.filter (fun u => decide (u < 0x1000) && decide ((unitCore u).cluster = k))).map unitCore
  let s := wr s (F.CL_CORE_STAT_RETIRED k) (lost.foldl (fun v c => v ||| 2 ^ c.co.val) (rd s (F.CL_CORE_STAT_RETIRED k)))
  if clusterRetired s k then (List.range 8).foldl (fun t j => pendRemap t k j 15) s
  else
    showCores (lost.foldl (fun t c =>
      match coreSlot t c with
      | some x => pendRemap t k x.slot.val (if spareFree t k then 8 else 15)
      | none => t) s)

/-! Resets. -/

/-- Memory without the bytes of a run of keys. -/
def clearMem (s : State) (lo n : Nat) : State := { s with mem := s.mem.filter (fun e => decide (e.1 < lo ∨ lo + n ≤ e.1)) }

/-- A core is reset: engines, store, sequencer and registers (18 R535; 00 R5). A loaded program stays loaded: its stream is kept, and what
LOAD_PROGRAM set with it is set again when the stream next starts (DEDUCED, log 15). -/
def resetCore (s : State) (c : CoreId) : State :=
  let b := coreBase c
  let s := clearRegs s b (b + 0x1000)
  let s := { s with storeErrs := mapErase s.storeErrs (coreUnit c) }
  refreeze (clearMem (setCore s c (resetStream (core s c))) (coreKey c 0) coreStoreSize) (coreUnit c)


/-- A cluster and its cores are reset (01 R20, 18 R535). -/
def resetCluster (s : State) (k : ClusterId) : State :=
  let s := (coresOf k).foldl resetCore s
  let s := clearRegs s (clusterBase k) (clusterBase k + 0x8000)
  let s := { s with storeErrs := mapErase s.storeErrs (clusterUnit k), remaps := s.remaps.filter (fun r => r.1 != k.key),
                    clusters := mapErase s.clusters k.key }
  refreeze (reapplyCores (clearMem s (clusterStoreBase k) clusterStoreSize) k) (clusterUnit k)

/-- A port returns to DETECT (18 R535); unacknowledged data flits are a link fault. -/
def resetPort (s : State) (p : Nat) : State :=
  let was := portState s p
  let width := rd s (F.FP_STAT_WIDTH p)
  let s := dropLink s p 0x06
  let s := if was = 7 then wr s F.ID_HEALTH_FP_RET (rd s F.ID_HEALTH_FP_RET - 1) else s
  let s := if width = 1 then wr s F.ID_HEALTH_FP_X4 (rd s F.ID_HEALTH_FP_X4 - 1) else s
  let s := unmark (clearRegs s (0x100000 + p * 0x10000) (0x100000 + p * 0x10000 + 0x8000)) (portUnit p)
  let x := port s p
  let s := thaw (setPort s p { q := x.q, started := x.started, startAt := x.startAt }) (portUnit p)
  if was = 1 then wr s (F.FP_STAT_STATE p) 1 else setPortState s p 1

/-- The clusters of a die. -/
def clustersOf (d : Nat) : List ClusterId := allClusters.filter (fun k => k.die.val == d)

/-- A compute die's logic is reset: its clusters, its registers, its ports; the loaded program is discarded (18 R535). DESIGN CHOICE, log 114:
the HBM_n registers of its stacks stay as they are, with the memory that is held. -/
def resetDie (s : State) (d : Nat) : State :=
  let s := (clustersOf d).foldl resetCluster s
  let s := clearRegs s (0x1000000 + d * 0x200000 + 0x140000) (0x1000000 + (d + 1) * 0x200000)
  unload (resetPort (resetPort s (2 * d)) (2 * d + 1))

/-- An update die's logic is reset; UD_GEN.CUR is kept (00 R5), the loaded program is discarded (18 R535). -/
def resetUpdateDie (s : State) (m : Nat) : State :=
  let cur := rd s (F.UD_GEN_CUR m)
  let s := wr (clearRegs s (0x200000 + m * 0x40000) (0x200000 + (m + 1) * 0x40000)) (F.UD_GEN_CUR m) cur
  unload { s with uds := s.uds.set m {}, udFault := s.udFault.filter (fun i => i != m) }

/-! What the commands check, 18 R535. -/

/-- The part kinds that an opcode serves. -/
def partServed (op kind : Nat) : Bool :=
  match op with
  | 0x50 => [0, 1, 7, 9].contains kind
  | 0x51 => [0, 1, 5, 6, 7, 8, 9].contains kind
  | _ => [0, 1, 2, 4, 7, 9].contains kind

/-- The condition that the table states for a kind. -/
def partCondition (s : State) (op u : Nat) : Bool :=
  let idle := rd s F.CMD_STAT_STEP_STATE ≤ 1
  match op, u / 0x1000 with
  | 0x51, 0 => coreRetired s (unitCore u)
  | 0x51, 5 => idle
  | 0x51, 6 => idle
  | 0x52, 2 => idle
  | 0x52, 4 => idle
  | _, _ => true

/-- Does the running or uncommitted step use a core or cluster (16 R488)? -/
def stepUses (s : State) (u : Nat) : Bool :=
  s.run.isSome && (match u / 0x1000 with
    | 0 => (core s (unitCore u)).occupied
    | 1 => (coresOf (unitCluster u)).any (fun c => (core s c).occupied)
    | _ => false)

/-- A part command on a part that the step uses makes the step replay (16 R488, 18 R520). Log 107 (DEDUCED). -/
def touchPart (s : State) (u : Nat) : State := if stepUses s u then stepFault s u 0x08 else s

/-- A part command: its checks, then its own effect. Log 69 (DEDUCED). -/
def partCommand (s : State) (r seq op : Nat) (body : Cmd → Nat → State) : State :=
  beginCmd s r seq op (fun c =>
    let u := c.param 0x10 2
    if !zeroBytes c 0x12 46 then badParam s r seq 0x20
    else if !unitValid u || !partServed op (u / 0x1000) then badParam s r seq 0x22
    else if s.partCmds.any (fun p => p.2.1 == u) then finish s r seq 0x03 0x40 []
    else if !partCondition s op u then badParam s r seq 0x23
    else body c u)

/-- A part command is under way. -/
def partBegins (s : State) (r seq op u : Nat) : State :=
  markStarted { s with partCmds := s.partCmds ++ [(op, u, r, seq)] } r seq

/-! Board links, 18 R516, R518. -/

/-- The lanes of a board link change (18 R519, R540; 17 R495). -/
def setBoard (s : State) (b lanes : Nat) : State :=
  let was := s.boards.getD b 16
  if was = lanes then s
  else
    let less := fun (t : State) => if was = 8 then wr t F.ID_HEALTH_BL_X8 (rd t F.ID_HEALTH_BL_X8 - 1)
      else if was = 0 then wr t F.ID_HEALTH_BL_RET (rd t F.ID_HEALTH_BL_RET - 1) else t
    let more := fun (t : State) => if lanes = 8 then wr t F.ID_HEALTH_BL_X8 (rd t F.ID_HEALTH_BL_X8 + 1)
      else if lanes = 0 then wr t F.ID_HEALTH_BL_RET (rd t F.ID_HEALTH_BL_RET + 1) else t
    raise (more (less { s with boards := setAt s.boards b lanes })) (dieSrc b 4)

/-- A board link is whole again: no lane is removed, and no training attempt counts (18 R535). -/
def freshBoard (s : State) (b : Nat) : State :=
  { s with boardRemoved := setAt s.boardRemoved b 0, boardFails := setAt s.boardFails b 0 }

/-- A board link retires (18 R516, R518); flits lost with it are a fault of the step (18 R515). -/
def retireBoard (s : State) (b cause : Nat) (lost : Bool) : State :=
  if s.boards.getD b 16 = 0 then s
  else
    let t := markPart (setBoard s b 0) (0x9000 + b) cause
    if lost then stepFault t (0x9000 + b) 0x06 else t

/-- A board link has trained again with the lanes that pass (18 R516, as 13 R392 for a port): x16 where every lane passes, else x8 on the lower
half if it passes or else on the upper half; a removed lane is not used again; the third failed attempt in a row, or a lane to be removed from
x8, retires it. -/
def trainBoard (s : State) (b lanes : Nat) (remove : Option (Fin 16)) (lost : Bool) : State :=
  let was := s.boards.getD b 16
  if was = 0 then s
  else if was = 8 ∧ remove.isSome then retireBoard s b 0x07 lost
  else
    let gone := s.boardRemoved.getD b 0 ||| (match remove with
      | some l => 2 ^ l.val
      | none => 0)
    let ok := lanes % 65536 - (lanes % 65536 &&& gone)
    let s := { s with boardRemoved := setAt s.boardRemoved b gone }
    if was = 16 ∧ ok = 0xFFFF then freshBoard s b
    else if ok % 256 = 0xFF ∨ ok / 256 = 0xFF then
      let s := { s with boardRemoved := setAt s.boardRemoved b (gone ||| (0xFFFF - ok)), boardFails := setAt s.boardFails b 0 }
      if was = 16 then markPart (setBoard s b 8) (0x9000 + b) 0x07 else s
    else
      let n := s.boardFails.getD b 0 + 1
      let s := { s with boardFails := setAt s.boardFails b n }
      if 3 ≤ n then retireBoard s b 0x07 lost else s

/-- RETRAIN_DONE (13 R392; 18 R516): a retrain ends with the lanes that pass. -/
def execRetrainDone (link : TrainLink) (lanes : Nat) (s : State) : Host.Outcome State Fault Refusal :=
  .next (match link with
    | .port p => trainPort s p.val lanes
    | .board b remove lost => trainBoard s b.val lanes remove lost)

/-! The commands. -/

/-- RETIRE_PART (18 R516 to R519, R535). lost says that data flits were lost with a retiring board link. -/
def execRetirePart (r : Fin 16) (seq : Nat) (lost : Bool) (s : State) : Host.Outcome State Fault Refusal :=
  .next (partCommand s r.val seq 0x50 (fun _ u =>
    let t := match u / 0x1000 with
      | 0 => retireCore (touchPart s u) (unitCore u) 0x08
      | 1 => retireCluster (touchPart s u) (unitCluster u) 0x08
      | 7 => retirePort s (u % 16) 0x08 true
      | _ => retireBoard s (u % 8) 0x08 lost
    finishOk t r.val seq []))

/-- REPAIR_PART begins (18 R535): a port retrains on all eight lanes. -/
def execRepairPart (r : Fin 16) (seq : Nat) (s : State) : Host.Outcome State Fault Refusal :=
  .next (partCommand s r.val seq 0x51 (fun _ u =>
    let t := partBegins s r.val seq 0x51 u
    if u / 0x1000 = 7 then
      let p := u % 16
      let t := setPort t p { port t p with removed := 0, repair := true, fails := 0 }
      if portState t p = 7 then setPortState (thaw (wr t F.ID_HEALTH_FP_RET (rd t F.ID_HEALTH_FP_RET - 1)) (portUnit p)) p 2
      else startRetrain t p
    else t))

/-- RESET_PART begins (01 R35; 18 R535): the part is reset, and reads as reset until its action ends. lost says that flits of a board
link were unacknowledged. -/
def execResetPart (r : Fin 16) (seq : Nat) (lost : Bool) (s : State) : Host.Outcome State Fault Refusal :=
  .next (partCommand s r.val seq 0x52 (fun _ u =>
    let s := touchPart s u
    let s := match u / 0x1000 with
      | 0 => resetCore s (unitCore u)
      | 1 => resetCluster s (unitCluster u)
      | 2 => resetDie s (u % 8)
      | 4 => resetUpdateDie s (u % 4)
      | 7 => resetPort s (u % 16)
      | _ => if lost then stepFault s u 0x06 else s
    partBegins s r.val seq 0x52 u))

/-! The end of a part command, 18 R536. -/

/-- A repaired core passes (18 R535, R537): its slot passes back to it at the next step boundary, and CO_8 becomes free. -/
def coreReturns (s : State) (c : CoreId) : State :=
  let k := c.cluster
  let s := unmark s (coreUnit c)
  let s := showCoresRet (wr s (F.CL_CORE_STAT_RETIRED k) (rd s (F.CL_CORE_STAT_RETIRED k) - 2 ^ c.co.val))
  let j := c.co.val
  let s := if j = 8 then s
    else if rd s (remapFld k j) = j then
      showPending { s with remaps := s.remaps.filter (fun r => !(r.1 == k.key && r.2.1 == j)) } k
    else pendRemap s k j j
  showCores s

/-- A repaired cluster passes: its slots map again at the next step boundary, and the recorded retirements of its cores hold. -/
def clusterReturns (s : State) (k : ClusterId) : State :=
  if !clusterRetired s k then s
  else
    let s := showCoresRet (unmark (wr s F.ID_HEALTH_CL_RET (rd s F.ID_HEALTH_CL_RET - 1)) (clusterUnit k))
    let s := { s with remaps := s.remaps.filter (fun r => r.1 != k.key) }
    let bad := (List.range 8).filter (fun j => bit (rd s (F.CL_CORE_STAT_RETIRED k)) j)
    let spare := !bit (rd s (F.CL_CORE_STAT_RETIRED k)) 8
    showCores ((List.range 8).foldl (fun t j =>
      pendRemap t k j (if !bad.contains j then j else if spare && bad.head? == some j then 8 else 15)) s)

/-- A key of a row: its unit and its number. -/
def rowKey (u row : Nat) : Nat := u * 2 ^ 32 + row

/-- Hard repairs of a stack or package (11 R324): each is counted. -/
def hardRepairs (s : State) (u : Nat) : State :=
  let n := (s.hardRows.filter (fun k => k / 2 ^ 32 == u)).length
  let s := { s with hardRows := s.hardRows.filter (fun k => k / 2 ^ 32 != u) }
  if u / 0x1000 = 5 then bump s (F.HBM_PPR_CNT_COUNT (u % 16)) n else bump s (F.ST_PPR_CNT_COUNT (u % 0x1000)) n

/-- A repaired stack passes: it returns to 48 GB (18 R535). -/
def stackReturns (s : State) (n : Nat) : State :=
  let s := if rdb s (F.HBM_STAT_RET_PENDING n) || rdb s (F.HBM_STAT_RET_VALID n) then
      wr s F.ID_HEALTH_PC_RET (rd s F.ID_HEALTH_PC_RET - 1) else s
  let s := if rdb s (F.HBM_STAT_FAILING n) then wr s F.ID_HEALTH_HBM_FAIL (rd s F.ID_HEALTH_HBM_FAIL - 1) else s
  unmark (wrAll s [(F.HBM_STAT_RET_PENDING n, 0), (F.HBM_STAT_RET_VALID n, 0), (F.HBM_STAT_RETIRED_PC n, 0), (F.HBM_STAT_FAILING n, 0),
    (F.HBM_LIMIT_LIMIT n, hbmSize)]) (0x5000 + n)

/-- A repaired package passes: FAILING clears. -/
def packageReturns (s : State) (n : Nat) : State :=
  let s := if rdb s (F.ST_STAT_FAILING n) then wr s F.ID_HEALTH_ST_FAIL (rd s F.ID_HEALTH_ST_FAIL - 1) else s
  unmark (wr s (F.ST_STAT_FAILING n) 0) (0x6000 + n)

/-- UCIe modules of a panel link (01 R13). -/
def ucieModules (link : Nat) : Nat := if link < 10 then 25 else 8

/-- Disabled modules of a panel link that pass are enabled again. -/
def panelReturns (s : State) (link : Nat) (mods : List Nat) : State :=
  let back := s.ucieDis.filter (fun m => m / 64 == link && mods.contains (m % 64))
  let s := { s with ucieDis := s.ucieDis.filter (fun m => !back.contains m),
                    ucie := s.ucie.filter (fun (e : Nat × Nat) => !back.contains (e.1 / 2)) }
  let s := wr s F.ID_HEALTH_UCIE_DIS (rd s F.ID_HEALTH_UCIE_DIS - back.length)
  if s.ucieDis.any (fun m => m / 64 == link) then s else unmark s (0x8000 + link)

/-- Lanes of a port's width. -/
def portLanes (s : State) (p : Nat) : Nat := 4 * rd s (F.FP_STAT_WIDTH p)

/-- A port's repair ends (18 R535, R536): back in service, it enters the route sets at the next step boundary. -/
def portRepaired (s : State) (p : Nat) : State :=
  let x := port s p
  let s := setPort s p { x with repair := false }
  if portState s p = 4 then
    let s := if s.retired.contains (portUnit p) then { s with portsHeld := s.portsHeld ++ [p] } else s
    let s := if s.run.isNone then { s with portsHeld := [] } else s
    if rd s (F.FP_STAT_WIDTH p) = 2 then unmark s (portUnit p) else s
  else if portState s p = 2 then freezePort (setPortState (wr s F.ID_HEALTH_FP_RET (rd s F.ID_HEALTH_FP_RET + 1)) p 7) p
  else s

/-- What a repair did: the state, RESULT byte 0 and byte 1 (18 R536). Byte 1 counts lanes of a port or board link and enabled modules of
a panel link (DESIGN CHOICE, log 16). -/
def repairDone (s : State) (u : Nat) (pass : Bool) (lanes : Nat) (mods : List Nat) : State × Nat × Nat :=
  match u / 0x1000 with
  | 0 => (if pass then coreReturns s (unitCore u) else s, b2n pass, 0)
  | 1 => (if pass then clusterReturns s (unitCluster u) else s, b2n pass, 0)
  | 5 => let s := hardRepairs s u; (if pass then stackReturns s (u % 16) else s, b2n pass, 0)
  | 6 => let s := hardRepairs s u; (if pass then packageReturns s (u % 0x1000) else s, b2n pass, 0)
  | 7 => let t := portRepaired s (u % 16); (t, b2n (portState t (u % 16) == 4), portLanes t (u % 16))
  | 8 =>
    let link := u % 0x1000
    let t := panelReturns s link mods
    let off := (t.ucieDis.filter (fun m => m / 64 == link)).length
    (t, b2n (off == 0), ucieModules link - off)
  | _ =>
    let b := u % 8
    let n := if lanes = 16 then 16 else if lanes = 8 then 8 else 0
    let was := s.boards.getD b 16
    let t := if pass then (if n = 16 then unmark (freshBoard (setBoard s b 16) b) u else setBoard s b (max n was)) else s
    (t, b2n pass, t.boards.getD b 16)

/-- PART_ACTION_DONE (18 R535, R536): the action of the part command on a unit ends: whether the part passed its test, the lanes that
train, the modules that pass. A port's own training decides for it. -/
def execPartActionDone (u : Nat) (pass : Bool) (lanes : Nat) (mods : List Nat) (s : State) : Host.Outcome State Fault Refusal :=
  .next (match s.partCmds.find? (fun p => p.2.1 == u) with
    | none => s
    | some (op, _, r, seq) =>
      let s := { s with partCmds := s.partCmds.filter (fun p => p.2.1 != u) }
      if op = 0x51 then
        let (t, a, b) := repairDone s u pass lanes mods
        finishOk t r seq (natLE 1 a ++ natLE 1 b)
      else
        let s := if u / 0x1000 = 9 then (let n := if lanes = 16 then 16 else if lanes = 8 then 8 else 0
                                         let t := freshBoard (setBoard s (u % 8) n) (u % 8)
                                         if n = 16 then unmark t u else t) else s
        finishOk s r seq [])

/-! Panel links and fatal faults. -/

/-- Compute dies at the ends of a panel link (01 R13). -/
def panelDies (link : Nat) : List Nat :=
  [[0, 1], [1, 2], [2, 3], [4, 5], [5, 6], [6, 7], [0, 4], [1, 5], [2, 6], [3, 7], [0], [4]].getD link []

/-- PANEL_LANE_FAIL (01 R14; 17 R495; 18 R515, R516): a lane of a UCIe module fails; four in a direction are repaired, more disable the
module; a link whose every module is disabled is fatal to the job. Log 71 (DEDUCED). -/
def execPanelLaneFail (link : Fin 12) (m : Fin 25) (receive : Bool) (s : State) : Host.Outcome State Fault Refusal :=
  .next (
    let id := link.val * 64 + m.val
    if ucieModules link.val ≤ m.val ∨ s.ucieDis.contains id then s
    else
      let key := id * 2 + b2n receive
      let n := mapGet 0 s.ucie key + 1
      let s := (panelDies link.val).foldl (fun t d => raise t (dieSrc d 5)) { s with ucie := mapPut s.ucie key n }
      if n ≤ 4 then s
      else
        let s := { s with ucieDis := s.ucieDis ++ [id] }
        let s := markPart (wr s F.ID_HEALTH_UCIE_DIS (rd s F.ID_HEALTH_UCIE_DIS + 1)) (0x8000 + link.val) 0x07
        if (s.ucieDis.filter (fun i => i / 64 == link.val)).length = ucieModules link.val then fatalFault s (0x8000 + link.val) 0x0A else s)

/-- A hardware fault of a cluster control core or prefix match unit (18 R515, R516): of STEP class, and the cluster retires. Log 72 (DEDUCED). -/
def clusterFault (s : State) (k : ClusterId) : State := retireCluster (stepFault s (clusterUnit k) 0x10) k 0x07

/-- FATAL_FAULT (18 R514, R515): a fault of an update die, of a compute die outside its cores and clusters, or of the hub, which ends
the host link. A fault of a cluster's control core or prefix match unit, which has no row of its own, is taken here too, with its own
class. -/
def execFatalFault (u : Nat) (s : State) : Host.Outcome State Fault Refusal :=
  .next (
    if !unitValid u then s
    else match u / 0x1000 with
      | 1 => clusterFault s (unitCluster u)
      | 2 => fatalFault s u 0x0A
      | 3 => wr (fatalFault s u 0x0B) F.HA_STAT_WIDTH 0
      | 4 => fatalFault { s with udFault := if s.udFault.contains (u % 4) then s.udFault else s.udFault ++ [u % 4] } u 0x09
      | _ => s)

end Sys2Proof.Machine
end

