-- ==== Sys2Proof/Machine/MemTier.lean ====
section
/-!
DEFINITION. Patrol scrub, repairs of rows and the remap of a retired pseudo-channel (11 R323 to R329).
-/

namespace Sys2Proof.Machine

open Sys2Proof

/-- A step boundary: no step runs or awaits commit, or a replay is about to restart (01 R21, 18 R529). -/
def atBoundary (s : State) : Bool := s.run.isNone || rd s F.ID_REPLAY_PHASE == 4

/-- A scrub pass corrects a row: the third pass that does so asks for a soft repair (11 R324). The entry of a row holds how many passes
corrected it and the last of them. -/
def scrubRow (s : State) (u row pass : Nat) : State :=
  let k := rowKey u row
  let v := mapGet 0 s.ceRows k
  if v ≠ 0 ∧ v / 4 = pass + 1 then s
  else if 3 ≤ v % 4 + 1 then
    { s with ceRows := mapErase s.ceRows k, softRows := if s.softRows.contains k then s.softRows else s.softRows ++ [k] }
  else { s with ceRows := mapPut s.ceRows k (4 * (pass + 1) + v % 4 + 1) }

/-- Passes of the scrub that are complete. -/
def scrubCount (s : State) (d : Bool × Nat × Nat) : Nat := if d.1 then rd s (F.HBM_SCRUB_COUNT d.2.1) else rd s (F.ST_SCRUB_COUNT d.2.1)

/-- The last populated line of a stack's window or of a package (11 R319, R328). -/
def lastLine (d : Bool × Nat × Nat) : Nat :=
  if d.1 then d.2.1 * 0x1000000000 + (hbmSize - 256)
  else 0x100000000000 + d.2.1 / 6 * 0x10000000000 + (slowSize / 256 - 6 + d.2.1 % 6) * 256

/-- PATROL_SCRUB (11 R323, R324, R329): the scrub reads the line of an address in a row. A correction is written back unless another
write has reached the line meanwhile: the memory keeps its bytes either way. A line that cannot be read is poisoned; no instruction
asked for it, so it is no data fault. The last line of the part completes the pass (DESIGN CHOICE, log 17). -/
def execPatrolScrub (a row : Nat) (err : StoreErr) (s : State) : Host.Outcome State Fault Refusal :=
  .next (match dramOf s a with
    | none => s
    | some d =>
      let pass := scrubCount s d
      let s := match err with
        | .clean => s
        | .corrected => scrubRow (dramCorrected s a) (dramUnit d) row pass
        | .uncorrectable => dramUncorrectable s a
      if lineOf s a = lastLine d then
        (if d.1 then bump s (F.HBM_SCRUB_COUNT d.2.1) 1 else bump s (F.ST_SCRUB_COUNT d.2.1) 1)
      else s)

/-- SOFT_PPR (11 R324): at a step boundary a row that awaits it moves to a spare row; its hard repair is left for the next REPAIR_PART. -/
def execSoftPpr (u row : Nat) (s : State) : Host.Outcome State Fault Refusal :=
  .next (
    let k := rowKey u row
    if !s.softRows.contains k ∨ !atBoundary s then s
    else
      let s := { s with softRows := s.softRows.erase k, hardRows := if s.hardRows.contains k then s.hardRows else s.hardRows ++ [k] }
      if u / 0x1000 = 5 then bump s (F.HBM_PPR_CNT_COUNT (u % 16)) 1 else bump s (F.ST_PPR_CNT_COUNT (u % 0x1000)) 1)

/-- Does a stack's remap find no range of the loaded program at or above its limit (11 R326)? -/
def stackClear (s : State) (n : Nat) : Bool :=
  match s.prog with
  | some p => p.ranges.all (fun r => match regionOf r.1 with
      | .hbm m off => m != n || decide (off + r.2.1 ≤ rd s (F.HBM_LIMIT_LIMIT n))
      | _ => true)
  | none => true

/-- PC_RETIRE_REMAP (11 R325, R326): at a step boundary the lines of the retired pseudo-channel are copied to their new places; no
address changes. A line that cannot be read is copied with its poison mark; bad lists addresses in such lines. Log 76 (DEDUCED). -/
def execPcRetireRemap (n : Fin 16) (bad : List Nat) (s : State) : Host.Outcome State Fault Refusal :=
  .next (
    let i := n.val
    if !rdb s (F.HBM_STAT_RET_PENDING i) ∨ !atBoundary s ∨ !stackClear s i then s
    else
      let s := bad.foldl (fun t a =>
        match dramOf t a with
        | some (true, m, j) => if m = i ∧ j = rd t (F.HBM_STAT_RETIRED_PC i) then dramUncorrectable t a else t
        | _ => t) s
      wrAll s [(F.HBM_STAT_RET_PENDING i, 0), (F.HBM_STAT_RET_VALID i, 1)])

end Sys2Proof.Machine
end

