-- ==== Sys2Proof/Machine/Events.lean ====
section
/-!
DEFINITION. The event controller's commands (17 R494 to R504) and the timebase's adjustment (17 R509).
-/

namespace Sys2Proof.Machine

open Sys2Proof

/-- An event reaches the cluster of its source (20 R572). -/
def reachSource (s : State) (n : Nat) : State :=
  match sliceOf n with
  | some i => if i < 80 then reachCluster s (clusterOfKey i) else s
  | none => s

/-- EVENT_FIRING (17 R496, R497): the input of a source pulses, or its level has changed or is asserted. -/
def execEventFiring (n : Fin 4096) (s : State) : Host.Outcome State Fault Refusal :=
  .next (if reservedSource n.val ∨ !s.powered then s
    else if s.fired.contains n.val then reachSource (pulse { s with fired := s.fired.erase n.val } n.val) n.val
    else sample s n.val)

/-- SOURCE_LEVEL_LEFT (17 R497): the input of a pending level source leaves its level before delivery. -/
def execSourceLevelLeft (n : Fin 4096) (s : State) : Host.Outcome State Fault Refusal :=
  .next (if reservedSource n.val ∨ asleep s n.val then s else dropLevel s n.val)

/-! Delivery, R498, R499. -/

/-- EVC_SRC_CFG of a source as a word. -/
def srcCfg (s : State) (n : Nat) : Nat :=
  rd s (F.EVC_SRC_CFG_ENABLE n) * 2 ^ 31 + rd s (F.EVC_SRC_CFG_TKIND n) * 2 ^ 20 + rd s (F.EVC_SRC_CFG_TARGET n) * 2 ^ 12
    + rd s (F.EVC_SRC_CFG_VEC_HI n) * 2 ^ 11 + rd s (F.EVC_SRC_CFG_PRIO n) * 2 ^ 4 + rd s (F.EVC_SRC_CFG_SENSE n)

/-- TKIND of a configuration word. -/
def cfgKind (w : Nat) : Nat := bits w 20 2

/-- PRIO of a configuration word. -/
def cfgPrio (w : Nat) : Nat := bits w 4 4

/-- The vector of a configuration word with TKIND 0. -/
def cfgVector (w : Nat) : Nat := bits w 11 1 * 128 + bits w 12 7

/-- A vector behaves as masked (R501): its mask, the function's, or an address of 0. -/
def vectorMasked (s : State) (v : Nat) : Bool :=
  rdb s (F.MSIX_CTL_MASK v) || s.events.masked || rd s (F.MSIX_ADDR_ADDR v) == 0

/-- A message may leave: the link is up with Bus Master Enable 1, and 10 ns have passed since the last one (R498). -/
def messageReady (s : State) : Bool :=
  rd s F.HA_STAT_WIDTH != 0 && rdb s F.HA_STAT_BME &&
    (match s.events.msgAt with
     | some t => decide (t + 10 ≤ rd s F.TB_NOW_TIME)
     | none => true)

/-- An internal core serves a source of at least a priority (R500). -/
def coreServes (s : State) (w : Nat) : Bool :=
  s.events.active.any (fun e => cfgKind e.2 == cfgKind w && bits e.2 12 7 == bits w 12 7 && decide (cfgPrio w ≤ cfgPrio e.2))

/-- Can a pending source be delivered now (R498 to R501)? -/
def deliverable (s : State) (n : Nat) : Bool :=
  let w := srcCfg s n
  srcState s n == 1 && bit w 31 &&
    (if cfgKind w = 0 then messageReady s && !vectorMasked s (cfgVector w) else !coreServes s w)

/-- The sources whose EVC_SRC_STAT is not at reset, in increasing order. -/
def shownSources (s : State) : List Nat :=
  (s.regs.filter (fun e => decide (0x24000 * 8 ≤ e.1 ∧ e.1 < 0x28000 * 8 ∧ e.1 % 32 = 0))).map (fun e => (e.1 / 8 - 0x24000) / 4)

/-- The better of two sources in the order of R498: higher PRIO, then lower number. -/
def better (s : State) (a b : Nat) : Nat :=
  let pa := rd s (F.EVC_SRC_CFG_PRIO a)
  let pb := rd s (F.EVC_SRC_CFG_PRIO b)
  if pb < pa ∨ (pa = pb ∧ a ≤ b) then a else b

/-- The source to deliver next (R498). -/
def firstSource (s : State) : Option Nat :=
  match (shownSources s).filter (deliverable s) with
  | [] => none
  | n :: ns => some (ns.foldl (better s) n)

/-- A source is delivered: it is active, and keeps the target it was delivered to (R499); a host target is sent its vector's
message (R501). -/
def deliverSource (s : State) (n : Nat) : State :=
  let w := srcCfg s n
  let s := wr s (F.EVC_SRC_STAT_STATE n) 2
  let s := { s with events := { s.events with active := mapPut s.events.active n w } }
  if cfgKind w = 0 then
    let v := cfgVector w
    let s := { s with
      msixOut := s.msixOut ++ [(rd s (F.MSIX_ADDR_ADDR v) * 4, rd s (F.MSIX_DATA_DATA v))]
      events := { s.events with msgAt := some (rd s F.TB_NOW_TIME) } }
    bump (wrAll s [(F.EVC_LAST_VALID v, 1), (F.EVC_LAST_SRC v, n)]) (F.EVC_CNT_COUNT 0) 1
  else s

/-- EVENT_DELIVERY (17 R498). -/
def execEventDelivery (s : State) : Host.Outcome State Fault Refusal :=
  .next (match firstSource s with
    | none => s
    | some n => deliverSource s n)

/-! Completion, R500. -/

/-- A completion reaches a source: of a sleeping slice it waits for the wake (R503); of a reserved source it is ignored (R504). -/
def completeOrDefer (s : State) (n : Nat) : State :=
  if reservedSource n then bump s (F.EVC_CNT_COUNT 1) 1
  else if asleep s n then { s with events := { s.events with deferred := s.events.deferred ++ [n] } }
  else complete s n

/-- EVC_EOI (17 R500): a write of a source's number. Log 35 (DEDUCED). -/
def execEvcEoi (n : Fin 4096) (s : State) : Host.Outcome State Fault Refusal :=
  .next (completeOrDefer (wr s F.EVC_EOI_SRC n.val) n.val)

/-- INTERNAL_COMPLETION (17 R500): the core that serves a source completes it; it serves none that was delivered to the host. -/
def execInternalCompletion (n : Fin 4096) (s : State) : Host.Outcome State Fault Refusal :=
  .next (match mapFind s.events.active n.val with
    | some w => if cfgKind w = 0 then s else completeOrDefer s n.val
    | none => completeOrDefer s n.val)

/-! Configuration. -/

/-- A word breaks the rules of R499 for a source, or selects a reserved encoding. -/
def badSrcCfg (n w : Nat) : Bool :=
  decide (4 < bits w 0 3) || cfgKind w == 3 ||
    (cfgKind w == 1 && (bits w 14 5 != 0 || bit w 11)) ||
    (cfgKind w == 2 && (decide (3584 ≤ n) || bits w 16 3 != n / 448 || decide (9 < bits w 12 4) || bit w 11))

/-- The fields of an accepted word of EVC_SRC_CFG. -/
def setSrcCfg (s : State) (n w : Nat) : State :=
  wrAll s [(F.EVC_SRC_CFG_ENABLE n, bits w 31 1), (F.EVC_SRC_CFG_TKIND n, cfgKind w), (F.EVC_SRC_CFG_TARGET n, bits w 12 7),
    (F.EVC_SRC_CFG_VEC_HI n, bits w 11 1), (F.EVC_SRC_CFG_PRIO n, cfgPrio w), (F.EVC_SRC_CFG_SENSE n, bits w 0 3)]

/-- EVC_SRC_CFG_WRITE (17 R499, R504, R495): firings that have come are judged under the old SENSE; a reserved source, a reserved encoding and a
forbidden target are discarded and recorded. -/
def execEvcSrcCfgWrite (n : Fin 4096) (word : BitVec 32) (s : State) : Host.Outcome State Fault Refusal :=
  .next (if reservedSource n.val ∨ badSrcCfg n.val word.toNat then recordRsvd s (0x20000 + 4 * n.val)
    else
      let due := s.fired.filter (fun m => m == n.val)
      let s := due.foldl pulse { s with fired := s.fired.filter (fun m => m != n.val) }
      setSrcCfg (sample s n.val) n.val word.toNat)

/-- MSIX_ENTRY_WRITE (17 R501). -/
def execMsixEntryWrite (w : MsixWrite) (s : State) : Host.Outcome State Fault Refusal :=
  .next (match w with
    | .functionMask m => { s with events := { s.events with masked := m } }
    | .word v k value =>
      let f := F.MSIX_ADDR_ADDR v.val
      match k.val with
      | 0 => wr s f (setBits (rd s f) 0 30 (value.toNat / 4))
      | 1 => wr s f (setBits (rd s f) 30 32 value.toNat)
      | 2 => wr s (F.MSIX_DATA_DATA v.val) value.toNat
      | _ => wr s (F.MSIX_CTL_MASK v.val) (value.toNat % 2))

/-! Sleep, R503. -/

/-- The power state of a slice's cluster or die is one in which it sleeps (20 R572, R573). -/
def sliceDown (s : State) (i : Nat) : Bool :=
  if i < 80 then rd s (clStateFld (clusterOfKey i)) == 2 || dieParked s (i / 10) else dieParked s (i - 80)

/-- SLICE_SLEEP (17 R503): the slice of a cluster in SLEEP or of a parked die enters its sleep state. -/
def execSliceSleep (i : Fin 88) (s : State) : Host.Outcome State Fault Refusal :=
  .next (if s.events.slept.contains i.val || !sliceDown s i.val then s else sleepSlice s i.val)

/-- SLICE_WAKE (17 R503): a latched firing of an enabled source, or the end of the power state, wakes the slice; a cluster leaves SLEEP with
its slice. -/
def execSliceWake (i : Fin 88) (s : State) : Host.Outcome State Fault Refusal :=
  .next (if !s.events.slept.contains i.val ∨ (sliceDown s i.val ∧ !latchedWake s i.val) then s
    else if i.val < 80 ∧ rd s (clStateFld (clusterOfKey i.val)) = 2 then wakeCluster s (clusterOfKey i.val)
    else wakeSlice s i.val)

/-! The timebase, R509. -/

/-- TB_ADJ_WRITE (17 R509): the signed offset that remains to be made up. -/
def execTbAdjWrite (value : BitVec 64) (s : State) : Host.Outcome State Fault Refusal :=
  .next { wr s F.TB_ADJ_OFFSET value.toNat with tbHalf := false }

/-- TB_ADJ_DONE (17 R509): the rest of the adjustment passes and the remaining offset is 0: a positive offset of n takes n ns, in which the
timebase advances 2n; a negative one of n takes 2n ns, in which it advances n. Log 81 (DEDUCED). -/
def execTbAdjDone (s : State) : Host.Outcome State Fault Refusal :=
  .next (
    let off := rd s F.TB_ADJ_OFFSET
    if off = 0 ∨ !s.powered then s
    else
      let (by_, ns) := if off < 2 ^ 63 then (2 * off, off) else (2 ^ 64 - off, 2 * (2 ^ 64 - off) - b2n s.tbHalf)
      let s := { wrAll s [(F.TB_NOW_TIME, rd s F.TB_NOW_TIME + by_), (F.TB_ADJ_OFFSET, 0)] with tbHalf := false }
      let s := stallPass s ns
      if rdb s F.PWR_STAT_BRAKE then bump s (F.PWR_CNT_COUNT 1) ns else s)

end Sys2Proof.Machine
end

