-- ==== Sys2Proof/Machine/Power.lean ====
section
/-!
DEFINITION. The power manager (20 R566 to R576, R584): the duty of the dies, the brake, alerts, thermal limits, cluster power states;
loss of power.
-/

namespace Sys2Proof.Machine

open Sys2Proof

/-! Duty, R568, R569. -/

/-- The duty of a compute die in eighths: the lowest that the limit, the brake and its throttle impose. -/
def dieDuty (s : State) (d : Nat) : Nat := min s.power.limit (min s.power.brake (s.power.dies.getD d 8))

/-- The duty registers show the duties in force. -/
def showDuty (s : State) : State :=
  let ds := (List.range 8).map (dieDuty s)
  let s := (List.range 8).foldl (fun t d => wr t (F.PWR_TEMP_DUTY d) (ds.getD d 8)) s
  wrAll s [(F.PWR_STAT_DUTY_MIN, ds.foldl min 8), (F.PWR_STAT_THERM, b2n (s.power.dies.any (fun q => decide (q < 8)))),
    (F.PWR_STAT_LIMIT, b2n (decide (s.power.limit < 8)))]

/-- The state with another record of the power manager. -/
def setPower (s : State) (p : PowerSt) : State := showDuty { s with power := p }

/-! Alerts, R584. -/

/-- The alert fields by condition: 0 UV, 1 OV, 2 TJ, 3 INLET, 4 LIMIT. -/
def alertFld (i : Nat) : Fld :=
  match i with
  | 0 => F.PWR_ALERT_UV
  | 1 => F.PWR_ALERT_OV
  | 2 => F.PWR_ALERT_TJ
  | 3 => F.PWR_ALERT_INLET
  | _ => F.PWR_ALERT_LIMIT

/-- A condition holds or not; while it holds its PWR_ALERT bit is set. -/
def setCond (s : State) (i : Nat) (v : Bool) : State :=
  let s := { s with power := { s.power with conds := setBits s.power.conds i 1 (b2n v) } }
  if v then wr s (alertFld i) 1 else s

/-- Every PWR_ALERT bit whose condition holds is set (20 R584). -/
def showConds (s : State) : State := (List.range 5).foldl (fun t i => if bit s.power.conds i then wr t (alertFld i) 1 else t) s

/-- The input voltage in units of 10 mV: below 58 V and above 70 V are conditions (R566). -/
def setInput (s : State) (volts : Nat) : State := setCond (setCond s 0 (decide (volts < 5800))) 1 (decide (7000 < volts))

/-- INPUT_EXCURSION (20 R566): the input reaches a voltage, in units of 10 mV, outside the operating range or in it again; the module goes
on. -/
def execInputExcursion (volts : BitVec 16) (s : State) : Host.Outcome State Fault Refusal :=
  .next (if !s.powered then s else setInput s volts.toNat)

/-! Power limit, R570. -/

/-- The power limit lowers the module's duty by n eighths, to no less than 2/8; each lowering is counted and alerts; then it waits 1 ms. -/
def lowerLimit (s : State) (n : Nat) : State :=
  if s.power.limit ≤ 2 then s
  else
    let s := setPower s { s.power with limit := max 2 (s.power.limit - n), waitTo := rd s F.TB_NOW_TIME + 1000000 }
    wr (bump s (F.PWR_CNT_COUNT 3) 1) F.PWR_ALERT_LIMIT 1

/-- The wait after a step of the power limit is over. -/
def limitReady (s : State) : Bool := decide (s.power.waitTo ≤ rd s F.TB_NOW_TIME)

/-- POWER_SAMPLE (20 R570): every 10 µs: voltage (10 mV), current (10 mA), mean power of the last 10 µs and of the last 10 ms (W). Log 90 (DEDUCED). -/
def execPowerSample (volts amps watts mean10ms : BitVec 16) (s : State) : Host.Outcome State Fault Refusal :=
  .next (
    if !s.powered then s
    else
      let s := setInput (wrAll s [(F.PWR_IN_VOLTAGE, volts.toNat), (F.PWR_IN_CURRENT, amps.toNat), (F.PWR_IN_POWER, watts.toNat)]) volts.toNat
      let limit := rd s F.PWR_LIMIT_LIMIT
      if !limitReady s then s
      else if 5600 < watts.toNat then lowerLimit s 2
      else if limit < mean10ms.toNat then lowerLimit s 1
      else if s.power.limit < 8 ∧ 100 * mean10ms.toNat ≤ 95 * limit then setPower s { s.power with limit := s.power.limit + 1 }
      else s)

/-! The brake, R571. -/

/-- BRAKE_ASSERT (20 R571): PWR_BRAKE_N goes low for 10 ns or more: duty 2/8 in every die. -/
def execBrakeAssert (s : State) : Host.Outcome State Fault Refusal :=
  .next (if !s.powered ∨ rdb s F.PWR_STAT_BRAKE then s
    else bump (setPower (wr s F.PWR_STAT_BRAKE 1) { s.power with brake := 2, riseAt := 0 }) (F.PWR_CNT_COUNT 0) 1)

/-- BRAKE_DEASSERT (20 R571): duty 4/8, and the rise begins. -/
def execBrakeDeassert (s : State) : Host.Outcome State Fault Refusal :=
  .next (if !s.powered ∨ !rdb s F.PWR_STAT_BRAKE then s
    else setPower (wr s F.PWR_STAT_BRAKE 0) { s.power with brake := 4, riseAt := rd s F.TB_NOW_TIME + 10000 })

/-- BRAKE_RISE_DONE (20 R571): 10 µs after the deassertion the brake imposes nothing more. -/
def execBrakeRiseDone (s : State) : Host.Outcome State Fault Refusal :=
  .next (if !s.powered ∨ rdb s F.PWR_STAT_BRAKE ∨ s.power.brake = 8 ∨ rd s F.TB_NOW_TIME < s.power.riseAt then s
    else setPower s { s.power with brake := 8 })

/-! Loss of power, R566, R491. -/

/-- The module without power: what the boot flash and the fuses hold stays, and what has left the module; a flash that is being rewritten holds no
valid header (19 R554). -/
def coldState (s : State) : State :=
  { State.reset with
    fuseSvn := s.fuseSvn, certs := s.certs, flash := if rd s F.SEC_FW_STATE = 4 then [] else s.flash
    readout := s.readout, hostOut := s.hostOut, msixOut := s.msixOut, wire := s.wire, replies := s.replies
    boot := { perst := s.boot.perst }, pending := s.pending, free := s.free }

/-- POWER_LOSS (20 R566): the hot-swap switch opens. -/
def execPowerLoss (s : State) : Host.Outcome State Fault Refusal := .next (if s.powered then coldState s else s)

/-! Thermal limits, R575, R576. -/

/-- The temperature of a place in 1/8 °C. -/
def temperature (s : State) (n : Nat) : Int := signed 16 (rd s (F.PWR_TEMP_TEMP n))

/-- A junction at or above 100 °C is a condition. -/
def noteJunctions (s : State) : State := setCond s 2 ((List.range 13).any (fun n => decide (800 ≤ temperature s n)))

/-- A compute die's own throttle (R575). -/
def throttle (s : State) (d : Nat) : State :=
  let q := s.power.dies.getD d 8
  let t := temperature s d
  if 800 ≤ t ∧ 2 < q then bump (setPower s { s.power with dies := s.power.dies.set d (q - 1) }) (F.PWR_CNT_COUNT 2) 1
  else if t ≤ 776 ∧ q < 8 then setPower s { s.power with dies := s.power.dies.set d (q + 1) }
  else s

/-- THERMAL_SAMPLE (20 R575): every 100 µs the temperature of a die's hottest junction or of the coolant inlet, in 1/8 °C; places as
those of PWR_TEMP_n. -/
def execThermalSample (n : Fin 14) (temp : BitVec 16) (s : State) : Host.Outcome State Fault Refusal :=
  .next (
    if !s.powered then s
    else
      let s := noteJunctions (wr s (F.PWR_TEMP_TEMP n.val) temp.toNat)
      if n.val < 8 then throttle s n.val
      else if n.val = 13 then setCond s 3 (decide (320 < temperature s 13))
      else if 800 ≤ temperature s n.val ∧ limitReady s then lowerLimit s 1
      else s)

/-- Every compute die and update die is PARKED (R573, R576). -/
def parkAll (s : State) : State :=
  wr ((List.range 8).foldl (fun t d => wr t (F.PWR_CL_STATE_DIE d) 1) s) F.PWR_UD_STATE_PARKED 0xF

/-- THERMAL_SHUTDOWN (20 R576): a junction is at 110 °C: FATAL, every die is parked; of the hub, loss of power. Log 91 (DEDUCED). -/
def execThermalShutdown (n : Fin 13) (s : State) : Host.Outcome State Fault Refusal :=
  .next (
    if !s.powered ∨ s.boot.shut ∨ temperature s n.val < 880 then s
    else
      let t := if n.val < 8 then fatalFault s (0x2000 + n.val) 0x0A
        else if n.val = 8 then fatalFault s hubUnit 0x0B
        else fatalFault s (0x4000 + (n.val - 9)) 0x09
      if n.val = 8 then coldState t
      else bump (parkAll { t with boot := { t.boot with shut := true } }) (F.PWR_CNT_COUNT 4) 1)

/-! Cluster power states, R572. -/

/-- Nothing is queued or in flight in a core. -/
def coreIdle (x : CoreSt) : Bool :=
  x.mq.isEmpty && x.tq.isEmpty && x.vq.isEmpty && x.dq.isEmpty && x.cq.isEmpty && x.sq.isEmpty && x.pend.isEmpty
    && x.mx.cur.isNone && x.mx.unver.isEmpty && x.mx.emits.isEmpty && x.mx.refeed.isEmpty && x.ch.vxs.isEmpty
    && x.packs.isEmpty && x.exps.isEmpty && x.dxs.isEmpty

/-- Nothing happens in a cluster: no core has an instruction queued or in flight, no descriptor, routine or copy is active, no post is on
its way to it. -/
def clusterIdle (s : State) (k : ClusterId) : Bool :=
  (coresOf k).all (fun c => coreIdle (core s c) && !(rd s (F.CO_SEQ_STAT_STATE c) == 1 && !rdb s (F.CO_SEQ_STAT_STALL c)))
    && (cluster s k).ccq.isEmpty && !(cluster s k).copying && !s.posts.any (fun p => decide (p.x.cluster = k))

/-- CLOCK_GATE (20 R572): the cluster has been idle for 64 cycles. -/
def execClockGate (k : ClusterId) (s : State) : Host.Outcome State Fault Refusal :=
  .next (if !s.powered ∨ rd s (clStateFld k) ≠ 0 ∨ !clusterIdle s k then s else wr s (clStateFld k) 1)

/-- CLUSTER_SLEEP (20 R572): no program has been loaded for 1 ms, or every core of the cluster is retired, and it is idle. -/
def execClusterSleep (k : ClusterId) (s : State) : Host.Outcome State Fault Refusal :=
  .next (if !s.powered ∨ !clusterIdle s k ∨ !(s.prog.isNone || (coresOf k).all (coreRetired s) || clusterRetired s k) then s
    else sleepCluster s k)

/-- CLUSTER_WAKE (20 R572): what reaches a gated cluster wakes it; a sleeping one wakes for a load, a latched event, or an access. Log 92 (DEDUCED). -/
def execClusterWake (k : ClusterId) (cause : WakeCause) (s : State) : Host.Outcome State Fault Refusal :=
  .next (if rd s (clStateFld k) = 2 then
      (match cause with
        | .load => if s.prog.isSome then wakeCluster s k else s
        | .event => if latchedWake s k.key then wakeCluster s k else s
        | .access => wakeCluster s k
        | .other => s)
    else wakeCluster s k)

end Sys2Proof.Machine
end

