-- ==== Sys2Proof/Machine/Trust.lean ====
section
/-!
DEFINITION. Firmware and trust (19 R547 to R562): the image and its checks, library tables, staging and activation, recovery, measurements,
attestation, certificates, keys of protected regions.
-/

namespace Sys2Proof.Machine

open Sys2Proof

/-! The image, R547 to R549. -/

/-- Bytes of a firmware signature. -/
def fwSigBytes : Nat := 29792

/-- Bytes of the key certificate. -/
def keyCertBytes : Nat := 29872

/-- Largest image. -/
def maxImage : Nat := 2 ^ 25

/-- The section records of an image. -/
def sections (b : List Byte) : List (List Byte) :=
  (List.range (leAt b 0x1C 4)).map (fun i => sliceBytes b (leAt b 0x20 4 + 96 * i) 96)

/-- Check 1 on the header (R548, R549): MAGIC, FORMAT, reserved fields, lengths and offsets. -/
def headerOk (b : List Byte) : Bool :=
  let len := leAt b 0x18 4
  let cnt := leAt b 0x1C 4
  leAt b 0 4 == 0x4B524657 && leAt b 4 2 == 1 && leAt b 6 2 == 0 && leAt b 0xD 3 == 0 && leAt b 0x16 2 == 0 && leAt b 0x2C 4 < 2
    && leAt b 0x30 16 == 0 && 64 ≤ len && len ≤ maxImage && len ≤ b.length && 1 ≤ cnt && cnt ≤ 16 && leAt b 0x20 4 + 96 * cnt ≤ len
    && leAt b 0x24 4 + keyCertBytes ≤ len && leAt b 0x28 4 + fwSigBytes == len

/-- Check 1 on the key certificate and the sections: reserved fields, extents, one section of each KIND. Log 88 (DEDUCED). -/
def partsOk (b : List Byte) : Bool :=
  let ss := sections b
  leAt b (leAt b 0x24 4 + 0x44) 12 == 0
    && ss.all (fun r => leAt r 1 3 == 0 && leAt r 0x4C 20 == 0 && leAt r 4 4 + leAt r 8 4 ≤ leAt b 0x18 4 && leAt r 0 1 ≤ 5)
    && (List.range 6).all (fun k => (ss.filter (fun r => leAt r 0 1 == k)).length == 1)

/-- ROOT_SIG verifies (R549, check 2). -/
def rootOk (b : List Byte) : Bool :=
  let k := leAt b 0x24 4
  Config.slhVerify Config.rootKey (sliceBytes b k 0x50) (sliceBytes b (k + 0x50) fwSigBytes)

/-- The image signature verifies (check 3). -/
def imageSigOk (b : List Byte) : Bool :=
  Config.slhVerify (leNat (sliceBytes b (leAt b 0x24 4) 64)) (b.take (leAt b 0x28 4)) (sliceBytes b (leAt b 0x28 4) fwSigBytes)

/-- Every section's digest matches (check 4). -/
def digestsOk (b : List Byte) : Bool :=
  (sections b).all (fun r => Config.shake256 (sliceBytes b (leAt r 4 4) (leAt r 8 4)) == leAt r 0xC 64)

/-- SVN of an image. -/
def imageSvn (b : List Byte) : Nat := leAt b 0xC 1

/-- The checks of R549 in order: the CAUSE of the first that fails. -/
def imageCause (b : List Byte) (fused : Nat) : Option Nat :=
  if !(headerOk b && partsOk b) then some 1
  else if !rootOk b then some 2
  else if !imageSigOk b then some 3
  else if !digestsOk b then some 4
  else if imageSvn b < fused then some 5
  else none

/-- The bytes of an image without what lies behind its end. -/
def imageBytes (b : List Byte) : List Byte := b.take (leAt b 0x18 4)

/-- An image verification is counted, and a refused image (R564). -/
def countVerify (s : State) (refused : Bool) : State :=
  let s := bump s (F.SEC_CNT_COUNT 1) 1
  if refused then bump s (F.SEC_CNT_COUNT 2) 1 else s

/-- The image values of the ID and SEC blocks (01 R38, 19 R548, R564). -/
def showImage (s : State) (b : List Byte) : State :=
  wrAll s [(F.ID_FW_VER_BUILD, leAt b 8 2), (F.ID_FW_VER_MINOR, leAt b 0xA 1), (F.ID_FW_VER_MAJOR, leAt b 0xB 1),
    (F.ID_PROTO_SHOAVO_MAJ, leAt b 0x10 1), (F.ID_PROTO_SHOAVO_MIN, leAt b 0x11 1), (F.ID_PROTO_COLSY_MAJ, leAt b 0x12 1),
    (F.ID_PROTO_COLSY_MIN, leAt b 0x13 1), (F.SEC_SVN_RUNNING, imageSvn b), (F.SEC_SVN_FUSED, s.fuseSvn)]

/-- The fused SVN rises to the image's where RAISE_SVN is set (R553); it never decreases (R549). -/
def raiseSvn (s : State) (b : List Byte) : State :=
  if leAt b 0x2C 4 % 2 = 1 ∧ s.fuseSvn < imageSvn b then wr { s with fuseSvn := imageSvn b } F.SEC_SVN_FUSED (imageSvn b) else s

/-! Library tables, 06 R191. -/

/-- The head of a library table: MODE and LO to VAL_ZERO, in K32 codes (02 R42; 06 R189, R191). -/
def libHead (func : Nat) : Nat × List Nat :=
  let inf := 0x7FC00000
  let one := 0x3FC00000
  let open_ := fun n => Config.libraryCoef func n 0
  let uni := fun (lo hi invw below above ninf pinf : Nat) => [lo, hi, invw, 0, below, above, ninf, pinf, 0]
  let u8 := uni 0xC0800000 0x40800000 0x40C00000
  let u16 := uni 0xC0C00000 0x40C00000 0x40800000
  let u24 := uni 0xC0E00000 0x40E00000 0x40555555
  match func with
  | 1 => (0x01, [0, 0, 0, 0x3FDC551E, 0, 0, 0, inf, 0])
  | 2 => (0x01, [0, 0, 0, one, 0, 0, 0, inf, 0])
  | 3 => (0x1E, [0, 0, 0, 0x3F98B90C, 0, 0, open_ 1, inf, 0xFFC00000])
  | 4 => (0x02, [0, 0, 0, 0, 0, 0, 0, 0, inf])
  | 5 => (0x16, [0, 0, 0, 0, 0, 0, open_ 1, 0, inf])
  | 6 => (0x1A, [0, 0, 0, 0, 0, 0, open_ 1, inf, 0])
  | 7 => (0x40, u8 0 0 0 inf)
  | 8 => (0x00, u8 0 one 0 one)
  | 9 => (0x40, u24 0 0 0 inf)
  | 10 => (0x00, u24 0 one 0 one)
  | 11 => (0x00, u16 0 one 0 one)
  | 12 => (0x00, u16 0 0 0 0)
  | 13 => (0x00, u8 0xBFC00000 one 0xBFC00000 one)
  | _ => (0x00, u8 0 0 0 0)

/-- The bytes of a library table: R191 gives the head, the firmware image the coefficients (Config.libraryCoef: R191
bounds them only); c0 of segment 0 of 2^y is 1 (07).
Log 22 (DESIGN CHOICE). -/
def libTable (func image : Nat) : List Byte :=
  let h := libHead func
  natLE 2 func ++ natLE 1 h.1 ++ natLE 1 0 ++ h.2.flatMap (natLE 4) ++ List.replicate 24 0 ++
    (List.range 1024).flatMap (fun i => natLE 4 (if func = 2 ∧ i = 0 then 0x3FC00000 else Config.libraryCoef func (16 + i) image))

/-- Pairs 0 to 6 hold the library of an image; other pairs are kept (06 R191, 19 R551). -/
def loadLibrary (s : State) (b : List Byte) : State :=
  let image := leNat b
  { s with ftabs := (List.range 7).foldl (fun m p =>
      mapPut m p { gen := (match mapFind s.ftabs p with
        | some q => q.gen
        | none => 0), data := libTable (2 * p + 1) image ++ libTable (2 * p + 2) image }) s.ftabs }

/-! Staging, R550. -/

/-- SEC_FW STATE; a change is an event (17 R495). -/
def setFw (s : State) (v : Nat) : State :=
  if rd s F.SEC_FW_STATE = v then s else raise (wr s F.SEC_FW_STATE v) (hubSrc 27)

/-- SEC_FW_STAGED shows a version. -/
def showStaged (s : State) (major minor build : Nat) : State :=
  wrAll s [(F.SEC_FW_STAGED_MAJOR, major), (F.SEC_FW_STAGED_MINOR, minor), (F.SEC_FW_STAGED_BUILD, build)]

/-- Nothing is staged. -/
def dropStaged (s : State) : State := showStaged { s with staged := none } 0 0 0

/-- Does an image serve a ring version (R550; 16 R474)? -/
def servesVersion (b : List Byte) (maj mi : Nat) : Bool :=
  decide (leAt b 0x14 1 ≤ maj ∧ maj ≤ leAt b 0x10 1 ∧ mi ≤ endMinor (leAt b 0x10 1) (leAt b 0x11 1) maj)

/-- An image serves the version of every enabled ring. -/
def servesRings (s : State) (b : List Byte) : Bool :=
  (List.range 16).all (fun n => !ringOn s n || servesVersion b (ringVersion s n).1 (ringVersion s n).2)

/-- What is staged, as its bytes stand in memory. -/
def stagedBytes (s : State) : List Byte :=
  match s.staged with
  | some (a, n) => ldBytes s a n
  | none => []

/-- Is a run populated HBM? -/
def stageRun (a n : Nat) : Bool :=
  (match regionOf a with
    | .hbm _ _ => true
    | _ => false) && populatedRun a n

/-- Does a run overlap a range that the loaded program allocates (16 R489)? -/
def reachesProgram (s : State) (a n : Nat) : Bool :=
  match s.prog with
  | some p => p.ranges.any (fun q => rangesMeet a n q.1 q.2.1)
  | none => false

/-- A copied image is checked: the whole of it is the image, R549 holds, and it serves every enabled ring. -/
def stageImage (s : State) (dev : Nat) (image : List Byte) : Bool × State :=
  let s := stBytes (setFw (dropStaged s) 1) dev image
  let good := leAt image 0x18 4 == image.length && (imageCause image s.fuseSvn).isNone && servesRings s image
  let s := countVerify s !good
  if good then
    (true, setFw (showStaged { s with staged := some (dev, image.length) } (leAt image 0xB 1) (leAt image 0xA 1) (leAt image 8 2)) 2)
  else (false, setFw s 0)

/-- FW_STAGE (16 R473, R489; 19 R550, R554): image holds the LEN bytes at HOST. -/
def execFwStage (r : Fin 16) (seq : Nat) (image : List Byte) (s : State) : Host.Outcome State Fault Refusal :=
  .next (beginCmd s r.val seq 0x60 (fun c =>
    let dev := c.param 0x18 8
    let len := c.param 0x20 8
    if !zeroBytes c 0x28 24 then badParam s r.val seq 0x20
    else if 3 ≤ rd s F.SEC_FW_STATE then finish s r.val seq 0x03 0x41 []
    else if len = 0 then finishOk (setFw (dropStaged s) 0) r.val seq []
    else if c.param 0x10 8 % 64 ≠ 0 ∨ len < 64 ∨ maxImage < len ∨ !stageRun dev len ∨ reachesProgram s dev len then
      badParam s r.val seq 0x21
    else if image.length ≠ len ∨ parkedRun s dev len then s
    else
      let (ok, t) := stageImage s dev image
      if ok then finishOk t r.val seq [] else badParam t r.val seq 0x25))

/-! Activation, R551, R552. -/

/-- Units of a handover: the management cores, the die managers, the update-die sequencers, the cluster control cores, the port
microsequencers, in this order. Log 87 (DEDUCED). -/
def handoverUnits : Nat := 1 + 8 + 4 + 80 + 16

/-- No other command executes. -/
def aloneInJournal (s : State) (r seq : Nat) : Bool := !s.journal.any (fun d => d.executing && !d.is r seq)

/-- FW_ACTIVATE (16 R489; 19 R551, R552): fail is the first unit that does not start the new code, by its place in the handover. -/
def execFwActivate (r : Fin 16) (seq : Nat) (fail : Option (Fin 109)) (s : State) : Host.Outcome State Fault Refusal :=
  .next (beginCmd s r.val seq 0x61 (fun c =>
    if !zeroBytes c 0x10 48 ∨ s.staged.isNone then badParam s r.val seq 0x20
    else if s.run.isSome ∨ !aloneInJournal s r.val seq then s
    else
      let b := stagedBytes s
      if !servesRings s b then badParam s r.val seq 0x2C
      else
        let t := setFw s 3
        let bad := if digestsOk b then fail.map Fin.val else some 0
        match bad with
        | some k => badParam (setFw (wr (dropStaged t) F.SEC_FW_UNITS k) 0) r.val seq 0x25
        | none =>
          let t := showImage (loadLibrary { t with running := imageBytes b } b) b
          let t := bump (wr (dropStaged t) F.SEC_FW_UNITS handoverUnits) (F.SEC_CNT_COUNT 3) 1
          finishOk (setFw t 4) r.val seq []))

/-- FLASHING_DONE (19 R553): the flash holds the running image; the fused SVN rises if the image asks for it. -/
def execFlashingDone (s : State) : Host.Outcome State Fault Refusal :=
  .next (if rd s F.SEC_FW_STATE ≠ 4 then s else setFw (raiseSvn { s with flash := s.running } s.running) 0)

/-! Recovery, R555, R556. -/

/-- RECOVERY or HALT. -/
def inRecovery (s : State) : Bool := decide (4 ≤ rd s F.SEC_BOOT_STAGE)

/-- A transport of FW_RECOVER can be reached: the mailbox over the host link, or the sideband. -/
def recoverReachable (s : State) (via : RecoverVia) : Bool :=
  match via with
  | .mailbox => rd s F.HA_STAT_WIDTH != 0
  | .sideband => s.boot.block && s.dynAddr.isSome

/-- An answer to FW_RECOVER. CXL's codes: 0 Success, 2 Invalid Input, 3 Unsupported, 6 Busy (PRESUMED, log 40). -/
def answerRecover (s : State) (via : RecoverVia) (code : Nat) : State :=
  let t := { s with replies := s.replies ++ [.mailbox via.code code] }
  match via with
  | .mailbox => wrAll t [(F.HV_MBOX_CMD_OPCODE, 0xC000), (F.HV_MBOX_STAT_RETURN, code)]
  | .sideband => t

/-- A request of FW_RECOVER: what every sub-operation checks, then its own effect. A request without its 16 bytes of header, or
whose SUBOP is not op, is an invalid input (log 5). -/
def recoverRequest (s : State) (via : RecoverVia) (op : Nat) (req : List Byte) (body : State → State) : State :=
  if !recoverReachable s via then s
  else if !inRecovery s then answerRecover s via 3
  else if req.length < 16 ∨ leAt req 0 1 ≠ op ∨ leAt req 1 3 ≠ 0 ∨ leAt req 0xC 4 ≠ 0 then answerRecover s via 2
  else match s.recover with
    | some b => if b.via ≠ via.code then answerRecover s via 6 else body s
    | none => body s

/-- FW_RECOVER_BEGIN (19 R556): req is the whole request; the receive buffer is cleared. -/
def execFwRecoverBegin (via : RecoverVia) (req : List Byte) (s : State) : Host.Outcome State Fault Refusal :=
  .next (recoverRequest s via 1 req (fun s =>
    let len := leAt req 8 4
    if len = 0 ∨ maxImage < len then answerRecover s via 2
    else answerRecover { s with recover := some ⟨via.code, len, List.replicate len 0⟩ } via 0))

/-- FW_RECOVER_DATA (19 R556). -/
def execFwRecoverData (via : RecoverVia) (req : List Byte) (s : State) : Host.Outcome State Fault Refusal :=
  .next (recoverRequest s via 2 req (fun s =>
    let off := leAt req 4 4
    let len := leAt req 8 4
    match s.recover with
    | none => answerRecover s via 2
    | some b =>
      if off % 64 ≠ 0 ∨ len < 64 ∨ 65520 < len ∨ req.length ≠ 16 + len ∨ b.len < off + len then answerRecover s via 2
      else answerRecover { s with recover := some { b with data := putBytes b.data off (req.drop 16) } } via 0))

/-- The module restarts as at step 3 of R541: power stays applied, so the timebase runs on and the sideband keeps its address. Log 89 (DEDUCED). -/
def restartAtStep3 (s : State) : State :=
  let t : State := { coldState s with powered := true, flash := s.flash, dynAddr := s.dynAddr, power := s.power
                                      boot := { start := s.boot.start, rails := true, perst := s.boot.perst } }
  showConds (showDuty (wrAll t [(F.TB_NOW_TIME, rd s F.TB_NOW_TIME), (F.PWR_STAT_BRAKE, rd s F.PWR_STAT_BRAKE)]))

/-- FW_RECOVER_END (19 R556): a valid image is written to the flash as R553 does, and the module restarts; otherwise it is refused. -/
def execFwRecoverEnd (via : RecoverVia) (req : List Byte) (s : State) : Host.Outcome State Fault Refusal :=
  .next (recoverRequest s via 3 req (fun s =>
    match s.recover with
    | none => answerRecover s via 2
    | some b =>
      let good := leAt b.data 0x18 4 == b.data.length && (imageCause b.data s.fuseSvn).isNone
      let s := countVerify { s with recover := none } !good
      if good then restartAtStep3 (raiseSvn (answerRecover { s with flash := b.data } via 0) b.data)
      else answerRecover (wr s F.SEC_BOOT_CAUSE 0x0A) via 2))

/-! Measurements, R559, R560. -/

/-- The digest of bytes; 64 zero bytes where there is nothing to measure. -/
def digestOf (b : List Byte) : List Byte := if b = [] then List.replicate 64 0 else natLE 64 (Config.shake256 b)

/-- The chains of every codec table slot in die, cluster and slot order. -/
def allChains (s : State) : List Byte := allClusters.flatMap (fun k => (cluster s k).chains.flatten)

/-- SEC_PR_BASE_n, SEC_PR_LIMIT_n and SEC_PR_CTL_n of the sixteen regions, 20 bytes each. -/
def regionBytes (s : State) : List Byte :=
  (List.range 16).flatMap (fun n => windowBytes s (0x51000 + 32 * n) 5)

/-- Measurement i (R559). -/
def measurement (s : State) (i : Nat) : List Byte :=
  if i = 0 then natLE 64 Config.siliconDigest
  else if i = 1 then digestOf (s.running.take (leAt s.running 0x28 4))
  else if i = 2 then digestOf (natLE 1 s.fuseSvn ++ natLE 1 (rd s F.SEC_SVN_RUNNING) ++ natLE 4 (regWord s 4))
  else if i = 3 then digestOf (match s.prog with
    | some p => p.image
    | none => [])
  else if i = 4 then digestOf (updBytes s)
  else if i ≤ 20 then (if (mapFind s.ftabs (i - 5)).isSome then digestOf (pairBytes s (i - 5)) else List.replicate 64 0)
  else if i = 21 then (if s.prog.isSome then digestOf (allChains s) else List.replicate 64 0)
  else if i = 22 then digestOf s.bindRec
  else digestOf (regionBytes s)

/-! ATTEST and GET_CERT, R557, R558, R561; 16 R490. -/

/-- Bytes of an identity signature. -/
def idSigBytes : Nat := 49856

/-- The measurements that MASK names. -/
def maskIndices (mask : Nat) : List Nat := (List.range 24).filter (bit mask)

/-- An attestation report without its signature (R561). -/
def attestReport (s : State) (nonce : List Byte) (mask : Nat) : List Byte :=
  let ix := maskIndices mask
  natLE 4 0x4B524154 ++ natLE 2 1 ++ natLE 2 ix.length ++ natLE 4 (64 + 72 * ix.length + idSigBytes) ++ natLE 4 mask ++ nonce
    ++ natLE 2 (rd s F.ID_MODULE_MODULE_ID + rd s F.ID_MODULE_VALID * 2 ^ 15) ++ natLE 2 0 ++ natLE 4 (regWord s 0x18)
    ++ natLE 8 (rd s F.TB_NOW_TIME) ++ ix.flatMap (fun i => natLE 1 i ++ List.replicate 7 0 ++ measurement s i)

/-- ATTEST (16 R490; 19 R561): the measurements are captured at once, and the report waits for its signature. -/
def execAttest (r : Fin 16) (seq : Nat) (s : State) : Host.Outcome State Fault Refusal :=
  .next (beginCmd s r.val seq 0x70 (fun c =>
    let mask := c.param 0x3C 4
    let len := c.param 0x38 4
    if 2 ^ 24 ≤ mask then badParam s r.val seq 0x20
    else if misaligned64 [c.param 0x30 8, len] ∨ len < 64 + 72 * (maskIndices mask).length + idSigBytes then badParam s r.val seq 0x21
    else markStarted { s with sigs := s.sigs ++ [.attest r.val seq (c.param 0x30 8) (attestReport s (sliceBytes c.entry 0x10 32) mask)] }
      r.val seq))

/-- The identity signature of bytes. -/
def signed49856 (b : List Byte) : List Byte := sliceBytes (Config.slhSign b) 0 idSigBytes

/-- The objects that carry an SPDM message: one longer than the transfer size agreed goes in chunks (15 R453; 19 R558). No object is longer than
65,536 bytes. Log 126. -/
def spdmReplies (via : Nat) (body : List Byte) : List Reply :=
  let n := max 42 (min 65536 (Config.spdmTransfer via))
  (rowsOf (max 1 (ceilDiv body.length n)) n body).map (fun c => .spdm via c)

/-- An SPDM message is sent. -/
def sendSpdm (s : State) (via : Nat) (body : List Byte) : State := { s with replies := s.replies ++ spdmReplies via body }

/-- SIGNATURE_DONE (19 R558): the signature of the request that came first is complete. -/
def execSignatureDone (s : State) : Host.Outcome State Fault Refusal :=
  .next (match s.sigs with
    | [] => s
    | q :: qs =>
      let s := raise (bump { s with sigs := qs } (F.SEC_CNT_COUNT 0) 1) (hubSrc 28)
      match q with
      | .attest ring seq host report =>
        let out := report ++ signed49856 report
        finishOk (hostWrite s host out) ring seq (natLE 4 out.length)
      | .spdm via data => sendSpdm s via (data ++ signed49856 data))

/-- The certificate chain of a slot; none where the slot is empty (R557). -/
def certChain (s : State) (slot : Nat) : List Byte :=
  if slot = 0 then Config.factoryChain else mapGet [] s.certs slot

/-- GET_CERT (16 R490; 19 R557): an empty slot completes OK with RESULT length 0 and writes nothing. -/
def execGetCert (r : Fin 16) (seq : Nat) (s : State) : Host.Outcome State Fault Refusal :=
  .next (beginCmd s r.val seq 0x71 (fun c =>
    let len := c.param 0x28 4
    if 7 < c.param 0x10 1 ∨ !zeroBytes c 0x11 7 ∨ !zeroBytes c 0x2C 20 then badParam s r.val seq 0x20
    else if misaligned64 [c.param 0x20 8, len] then badParam s r.val seq 0x21
    else
      let chain := certChain s (c.param 0x10 1)
      let part := (chain.drop (c.param 0x18 8)).take len
      finishOk (if part = [] then s else hostWrite s (c.param 0x20 8) part) r.val seq (natLE 4 chain.length)))

/-! SPDM sessions: certificates and keys, R557, R558, R562. -/

/-- A secured session is open on a transport. -/
def sessionOpen (s : State) (via : SpdmVia) : Bool := s.sessions.contains via.code

/-- A request within a session is answered. -/
def answerOutcome (s : State) (via : SpdmVia) (ok : Bool) : State := { s with replies := s.replies ++ [.outcome via.code ok] }

/-- SPDM over a transport is served: over DOE while configuration requests are, over MCTP from step 4 once the address is assigned
(15 R453; 19 R563). -/
def spdmServed (s : State) (via : SpdmVia) : Bool :=
  match via with
  | .doe => rdb s F.HA_STAT_CFG_READY
  | .mctp => s.boot.verified && s.dynAddr.isSome


/-- SPDM_REQUEST (15 R453; 19 R558, R559): the responder's answer, which may carry measurements and certificate chains; one that carries a
signature waits for it; a request may open or close the transport's one secured session. The mailbox takes no object of more than 65,536 bytes.
Log 21 (DESIGN CHOICE). -/
def execSpdmRequest (via : SpdmVia) (kind : SpdmKind) (req : List Byte) (s : State) : Host.Outcome State Fault Refusal :=
  .next (
    if !spdmServed s via ∨ (via = .doe ∧ 65536 < req.length) then s
    else
      let body := Config.spdmResponse via.code req (sessionOpen s via) ((List.range 24).map (measurement s)) ((List.range 8).map (certChain s))
      match kind with
      | .plain => sendSpdm s via.code body
      | .sign => { s with sigs := s.sigs ++ [.spdm via.code body] }
      | .openSession =>
        if sessionOpen s via then answerOutcome s via false
        else { sendSpdm s via.code body with sessions := s.sessions ++ [via.code] }
      | .endSession => { sendSpdm s via.code body with sessions := s.sessions.filter (fun v => v != via.code) })

/-- SET_CERTIFICATE (19 R557): slots 1 to 7, within a secured session. -/
def execSetCertificate (via : SpdmVia) (slot : Fin 8) (chain : List Byte) (s : State) : Host.Outcome State Fault Refusal :=
  .next (
    if !spdmServed s via then s
    else if !sessionOpen s via ∨ slot.val = 0 then answerOutcome s via false
    else answerOutcome { s with certs := mapSetD [] s.certs slot.val chain } via true)

/-- An enabled protected region uses a key slot (R562). -/
def keyInUse (s : State) (slot : Nat) : Bool :=
  (List.range 16).any (fun n => rdb s (F.SEC_PR_CTL_EN n) && rd s (F.SEC_PR_CTL_KEY_SLOT n) == slot)

/-- KEY_SET (19 R562): 64 key bytes for a slot, within a secured session; refused while an enabled region uses the slot, and with
any other number of bytes (log 5). -/
def execKeySet (via : SpdmVia) (slot : Fin 16) (key : List Byte) (s : State) : Host.Outcome State Fault Refusal :=
  .next (
    if !spdmServed s via then s
    else if !sessionOpen s via ∨ keyInUse s slot.val ∨ key.length ≠ 64 then answerOutcome s via false
    else answerOutcome { s with keySlots := mapPut s.keySlots slot.val (leNat key) } via true)

/-- KEY_ERASE (19 R562). -/
def execKeyErase (via : SpdmVia) (slot : Fin 16) (s : State) : Host.Outcome State Fault Refusal :=
  .next (
    if !spdmServed s via then s
    else if !sessionOpen s via ∨ keyInUse s slot.val then answerOutcome s via false
    else answerOutcome { s with keySlots := mapErase s.keySlots slot.val } via true)

end Sys2Proof.Machine
end

