-- ==== Sys2Proof/Machine/HostPort.lean ====
section
/-!
DEFINITION. The host port (15 R440 to R456): link states, CXL.cache and CXL.mem, the DOE mailbox, IDE.
-/

namespace Sys2Proof.Machine

open Sys2Proof

/-! The link, R441 to R444. -/

/-- The link and the configuration space are reinitialised (R444): the mode is gone, Bus Master Enable and the function's MSI-X mask are 0, IDE is
inactive; the HDM decoder, the IDE control and the mailbox command are reset; nothing else of the module is. Outstanding back-invalidates end
with the link. Log 78 (DEDUCED). -/
def linkDown (s : State) : State :=
  let s := { s with boot := { s.boot with cxl := false }, events := { s.events with masked := false }, biWait := [], ideKeys := [], ideNext := []
                    pci := {} }
  wrAll (clearRegs s 0x61200 0x61230) [(F.HA_STAT_SPEED, 0), (F.HA_STAT_WIDTH, 0), (F.HA_STAT_FLIT, 0), (F.HA_STAT_CFG_READY, 0), (F.HA_STAT_BME, 0),
    (F.HA_STAT_IDE_IO, 0), (F.HA_STAT_IDE_CM, 0), (F.HC_IDE_CTL_PCRC_OFF, 0), (F.HC_IDE_STAT_RX, 0), (F.HC_IDE_STAT_TX, 0),
    (F.HV_MBOX_CMD_LEN, 0), (F.HV_MBOX_CMD_OPCODE, 0)]

/-- HOT_RESET (15 R444): a hot reset, a link disable or a link-down event. -/
def execHotReset (s : State) : Host.Outcome State Fault Refusal := .next (if s.powered then linkDown s else s)

/-- CXL_TRAINING_START (19 R541 step 8, R545; 15 R456): after step 4, or in RECOVERY and HALT, with PERST_N deasserted; a training after the
first is a retrain. -/
def execCxlTrainingStart (s : State) : Host.Outcome State Fault Refusal :=
  .next (if !s.powered ∨ s.boot.cxl ∨ s.boot.perst ∨ !(s.boot.verified || inRecovery s) then s
    else
      let s := { s with boot := { s.boot with cxl := true } }
      if s.boot.trained then bump s (F.HA_CNT_COUNT 0) 1 else s)

/-- SPEED, WIDTH and FLIT of a mode (R456). -/
def modeFields (m : LinkMode) : Nat × Nat × Nat :=
  let w := fun (b : Bool) => if b then 8 else 4
  match m with
  | .cxl256 ll x8 => (6, w x8, if ll then 3 else 2)
  | .cxl68 x8 => (5, w x8, 1)
  | .pcie rate x8 => (rate.val, w x8, 0)

/-- The mode in which the link trains (15 R441, R442): the first of those offered that the partner supports, low-latency flits where it supports them,
otherwise PCIe at the partner's rate; x4 where not all eight lanes train. -/
def agreedMode (p : LinkPartner) : LinkMode :=
  if p.cxl256 then .cxl256 p.lowLatency p.lanes8 else if p.cxl68 then .cxl68 p.lanes8 else .pcie p.rate p.lanes8

/-- CFG_READY (19 R541 step 9; 15 R441 to R443): the link has trained with a partner and configuration requests are served. -/
def execCfgReady (p : LinkPartner) (s : State) : Host.Outcome State Fault Refusal :=
  .next (if !s.boot.cxl ∨ rdb s F.HA_STAT_CFG_READY then s
    else
      let (speed, width, flit) := modeFields (agreedMode p)
      wrAll { s with boot := { s.boot with trained := true }, pci := { s.pci with tags14 := decide (2 ≤ flit) } }
        [(F.HA_STAT_SPEED, speed), (F.HA_STAT_WIDTH, width), (F.HA_STAT_FLIT, flit), (F.HA_STAT_CFG_READY, 1)])

/-- CONFIG_REQUEST_RETRY (15 R443): a configuration request before the configuration space is ready. -/
def execConfigRequestRetry (s : State) : Host.Outcome State Fault Refusal :=
  .next (if !s.boot.cxl ∨ rdb s F.HA_STAT_CFG_READY then s
    else bump { s with replies := s.replies ++ [.retryStatus] } (F.HA_CNT_COUNT 2) 1)

/-- The completions of a ring that are due are written, at most n of them. -/
def flushRing (r : Fin 16) : Nat → State → State
  | 0, s => s
  | n + 1, s =>
    match execCompletionWrite r s with
    | .next t => flushRing r n t
    | _ => s

/-- LINK_UP_FLUSH (15 R444): the link is up and the host sets Bus Master Enable; with a CXL mode the held completions are written in ring
order. Log 79 (DESIGN CHOICE). -/
def execLinkUpFlush (bme : Bool) (s : State) : Host.Outcome State Fault Refusal :=
  .next (if rd s F.HA_STAT_WIDTH = 0 then s
    else (List.finRange 16).foldl (fun t r => flushRing r (owedBy t r.val).length t) (wr s F.HA_STAT_BME (b2n bme)))

/-! CXL.cache and CXL.mem, R448 to R452. -/

/-- H2D_SNOOP (15 R448): the module retains no host line. -/
def execH2dSnoop (addr : BitVec 64) (s : State) : Host.Outcome State Fault Refusal :=
  .next (if cxlMode s then { s with replies := s.replies ++ [.snoop addr.toNat] } else s)

/-- The slow-tier address of a DPA within the bound window (15 R449). -/
def windowAddr (s : State) (o : Nat) : Nat :=
  rd s (F.HA_CKPT_BASE_ADDR (o / 4096 % 4)) + o / 16384 * 4096 + o % 4096

/-- Is a DPA beyond the bound window (15 R450)? -/
def unbound (s : State) (o : Nat) : Bool := decide (rd s F.HA_CKPT_SIZE_SIZE * 2 ^ 30 ≤ o)

/-- Base and size of the host address range of HDM decoder 0 (15 R449). -/
def hdmRange (s : State) : Nat × Nat :=
  (rd s F.HC_HDM_BASE_LO_ADDR * 2 ^ 28 + rd s F.HC_HDM_BASE_HI_ADDR * 2 ^ 32, rd s F.HC_HDM_SIZE_LO_SIZE * 2 ^ 28 + rd s F.HC_HDM_SIZE_HI_SIZE * 2 ^ 32)

/-- The DPA that a host address reaches through decoder 0, once the host has committed it and in a CXL mode. -/
def hdmDpa (s : State) (hpa : Nat) : Option Nat :=
  let (base, size) := hdmRange s
  if cxlMode s && rdb s F.HC_HDM_CTL_EN && rdb s F.HC_HDM_DEC_COMMITTED && decide (base ≤ hpa ∧ hpa < base + size)
  then some (hpa - base + rd s F.HC_HDM_SKIP_DPA * 2 ^ 28) else none

/-- What the host reads of a window line, with its poison: while a BISnpInv is outstanding, what the line held before the module's write (15 R452). -/
def hostLine (s : State) (a : Nat) : List Byte × Bool :=
  match s.biWait.find? (fun w => w.line == a) with
  | some w => (w.old, w.bad)
  | none => (ldBytes s a 64, poisonedAt s a)

/-- CXL_MEM_READ (15 R449, R450, R452): a 64-byte line of host address space by its number; err is what the line's ECC reports. An address that
decoder 0 does not map is no access of this module. -/
def execCxlMemRead (line : BitVec 46) (err : StoreErr) (s : State) : Host.Outcome State Fault Refusal :=
  .next (match hdmDpa s (line.toNat * 64) with
    | none => s
    | some o =>
      if unbound s o then
        bump { s with replies := s.replies ++ [.memData o (List.replicate 64 0) false] } (F.HA_CNT_COUNT 4) 1
      else
        let a := windowAddr s o
        if udParked s (o / 4096 % 4) then s else
        let s := match err with
          | .clean => s
          | .corrected => dramCorrected s a
          | .uncorrectable => dramUncorrectable s a
        let (data, was) := hostLine s a
        let bad := was || err == .uncorrectable
        let s := { s with replies := s.replies ++ [.memData o data bad] }
        if bad then bump s (F.HA_CNT_COUNT 5) 1 else s)

/-- The host's bytes of a line on which the module's write stands: they come before it (15 R452). -/
def underWrite (mine : Nat) (now data : List Byte) : List Byte :=
  (List.range 64).map (fun i => if bit mine i then now.getD i 0 else data.getD i 0)

/-- CXL_MEM_WRITE (15 R449, R450, R452): a write that reaches the line while the module's own write waits for the BIRsp comes before it, and
the module's write stands. -/
def execCxlMemWrite (line : BitVec 46) (data : List Byte) (s : State) : Host.Outcome State Fault Refusal :=
  .next (
    let data := sliceBytes data 0 64
    match hdmDpa s (line.toNat * 64) with
    | none => s
    | some o =>
      let t := { s with replies := s.replies ++ [.memDone o] }
      if unbound s o then bump t (F.HA_CNT_COUNT 4) 1
      else
        let a := windowAddr s o
        if udParked s (o / 4096 % 4) then s
        else match s.biWait.find? (fun w => w.line == a) with
        | none => stPlain t a data
        | some w =>
          stPlain { t with biWait := s.biWait.map (fun v => if v.line = a then { v with old := data } else v) } a
            (underWrite w.mine (ldBytes s a 64) data))

/-- BIRSP_RECEIVE (15 R451): the host has given up its copy of a window line; the module's write of it stands. -/
def execBirspReceive (addr : BitVec 48) (s : State) : Host.Outcome State Fault Refusal :=
  .next { s with biWait := s.biWait.filter (fun w => w.line != addr.toNat) }

/-! DOE, R453, R454. -/

/-- The object types of R453 by index: vendor and type. -/
def doeTypes : List (Nat × Nat) := [(0x0001, 0), (0x0001, 1), (0x0001, 2), (0x1E98, 2)]

/-- DOE_DISCOVERY (15 R453): the entry at an index and the next index, laid out as PCIe's Discovery response (PRESUMED, log 41). -/
def execDoeDiscovery (index : Fin 256) (s : State) : Host.Outcome State Fault Refusal :=
  .next (
    if !rdb s F.HA_STAT_CFG_READY then s
    else
      let e := doeTypes.getD index.val (0xFFFF, 0xFF)
      let following := if index.val + 1 < doeTypes.length then index.val + 1 else 0
      { s with replies := s.replies ++ [.doe 0x0001 0 (natLE 2 e.1 ++ natLE 1 e.2 ++ natLE 1 following)] })

/-- The CDAT (15 R454): DSMAD handle 0, DPA base 0, 512 GiB, volatile; 600 ns and 59 GB/s for reads and writes. -/
def cdat : List Byte := Config.cdatBytes 0 0 (512 * 2 ^ 30) true 600 59

/-- CDAT_READ (15 R453, R454): the CDAT, whatever SIZE and the mode. -/
def execCdatRead (s : State) : Host.Outcome State Fault Refusal :=
  .next (if !rdb s F.HA_STAT_CFG_READY then s
    else { s with replies := s.replies ++ [.doe 0x1E98 2 cdat] })

/-! IDE, R455. -/

/-- IDE_KM (15 R452, R455): a 256-bit key of a stream, within the secured session of the DOE mailbox; go is the switch-over: the stream runs under
the key from there on, and until then under the one before. Any other number of bytes is refused (log 5). -/
def execIdeKm (stream : IdeStream) (key : List Byte) (go : Bool) (s : State) : Host.Outcome State Fault Refusal :=
  .next (
    if !spdmServed s .doe then s
    else if !sessionOpen s .doe ∨ key.length ≠ 32 then answerOutcome s .doe false
    else
      let s := answerOutcome s .doe true
      if !go then { s with ideNext := mapPut s.ideNext stream.code (leNat key) }
      else
        let s := { s with ideKeys := mapPut s.ideKeys stream.code (leNat key), ideNext := mapErase s.ideNext stream.code }
        match stream with
        | .cacheMem => wrAll s [(F.HA_STAT_IDE_CM, 1), (F.HC_IDE_STAT_RX, 1), (F.HC_IDE_STAT_TX, 1)]
        | .link => wr s F.HA_STAT_IDE_IO 1
        | _ => s)

/-- IDE_INTEGRITY_FAIL (15 R455): a TLP or flit fails its check under IDE: the insecure state, which HC_IDE_STAT keeps, and the link is reset. -/
def execIdeIntegrityFail (s : State) : Host.Outcome State Fault Refusal :=
  .next (if s.ideKeys = [] then s else wrAll (linkDown s) [(F.HC_IDE_STAT_RX, 2), (F.HC_IDE_STAT_TX, 2)])

end Sys2Proof.Machine
end

