-- ==== Sys2Proof/Machine/Sideband.lean ====
section
/-!
DEFINITION. The management sideband (19 R563): the I3C address and the MCTP messages the module serves. FW_RECOVER and SPDM over the sideband
are in Trust.lean.
-/

namespace Sys2Proof.Machine

open Sys2Proof

/-- DYNAMIC_ADDRESS_ASSIGNMENT (19 R563). -/
def execDynamicAddressAssignment (addr : BitVec 7) (s : State) : Host.Outcome State Fault Refusal :=
  .next (if s.boot.block then { s with dynAddr := some addr.toNat } else s)

/-- The sideband is served: from step 3, once the address is assigned. -/
def sidebandServed (s : State) : Bool := s.boot.block && s.dynAddr.isSome

/-- An MCTP message of the module. -/
def answerMctp (s : State) (typ : Nat) (body : List Byte) : State := { s with replies := s.replies ++ [.sideband typ body] }

/-- MCTP_CONTROL (19 R563): the response is that of MCTP and DSP0233 (Config.mctpResponse). -/
def execMctpControl (msg : List Byte) (s : State) : Host.Outcome State Fault Refusal :=
  .next (if sidebandServed s then answerMctp s 0x00 (Config.mctpResponse msg) else s)

/-- What PLDM monitors (R563): the junction temperatures of PWR_TEMP_0 to PWR_TEMP_12, input voltage, current and power, the coolant inlet;
two bytes each in this order (DESIGN CHOICE, log 42: the spec names the values and no message layout). -/
def monitorBytes (s : State) : List Byte :=
  (List.range 13).flatMap (fun n => natLE 2 (rd s (F.PWR_TEMP_TEMP n))) ++ natLE 2 (rd s F.PWR_IN_VOLTAGE) ++ natLE 2 (rd s F.PWR_IN_CURRENT)
    ++ natLE 2 (rd s F.PWR_IN_POWER) ++ natLE 2 (rd s (F.PWR_TEMP_TEMP 13))

/-- PLDM_MONITOR (19 R563): from step 5. -/
def execPldmMonitor (s : State) : Host.Outcome State Fault Refusal :=
  .next (if sidebandServed s && s.boot.sections then answerMctp s 0x01 (monitorBytes s) else s)

/-- SIDEBAND_READ_STATUS (19 R563): SEC_BOOT, ID_MODULE and ID_HEALTH. -/
def execSidebandReadStatus (s : State) : Host.Outcome State Fault Refusal :=
  .next (if sidebandServed s then
      answerMctp s 0x7E (natLE 4 (regWord s 0x50000) ++ natLE 4 (regWord s 0x10) ++ windowBytes s (F.ID_HEALTH_DEGRADED.at_ / 64 * 8) 2)
    else s)

end Sys2Proof.Machine
end

