-- ==== Sys2Proof/Machine/Bringup.lean ====
section
/-!
DEFINITION. Bring-up and warm reset (19 R541 to R546, 13 R390, 18 R519, R533).
-/

namespace Sys2Proof.Machine

open Sys2Proof

/-! Power-on, R541. -/

/-- POWER_ON (20 R566; 19 R541 step 1): the input rises through the turn-on threshold; the timebase starts. -/
def execPowerOn (s : State) : Host.Outcome State Fault Refusal :=
  .next (if s.powered then s else wr { coldState s with powered := true } F.SEC_SVN_FUSED s.fuseSvn)

/-- RAILS_GOOD (19 R541 step 2): the hub leaves reset. -/
def execRailsGood (s : State) : Host.Outcome State Fault Refusal :=
  .next (if s.powered then { s with boot := { s.boot with rails := true } } else s)

/-- STARTING_BLOCK_RUN (19 R541 step 3): the starting block runs and answers the sideband; STAGE still reads 0 (R564 and its example). -/
def execStartingBlockRun (s : State) : Host.Outcome State Fault Refusal :=
  .next (if s.boot.rails then { s with boot := { s.boot with block := true } } else s)

/-- HALT with a CAUSE (19 R543): every die is parked (20 R573). Log 86 (DEDUCED). -/
def halt (s : State) (cause : Nat) : State := parkAll (wrAll s [(F.SEC_BOOT_STAGE, 5), (F.SEC_BOOT_CAUSE, cause)])

/-- In HALT the fabric is not released (19 R543, R555): a port that had left DISABLED returns to it and holds nothing; a retired one stays so. -/
def unrelease (s : State) : State :=
  if !s.boot.released then s
  else
    let s := (List.range 16).foldl (fun t p =>
      if portState t p = 0 ∨ portState t p = 7 then t
      else
        let t := if rd t (F.FP_STAT_WIDTH p) = 1 then wr t F.ID_HEALTH_FP_X4 (rd t F.ID_HEALTH_FP_X4 - 1) else t
        setPort (setWidth (setPortState t p 0) p 0 0) p { removed := (port t p).removed }) s
    { s with boot := { s.boot with released := false } }

/-- IMAGE_VERIFY (19 R541 step 4, R546, R549): the image of the boot flash, or after a warm reset the running image, is verified; without a
valid image the module enters RECOVERY. Log 83 (DEDUCED). -/
def execImageVerify (s : State) : Host.Outcome State Fault Refusal :=
  .next (
    if !s.boot.block ∨ s.boot.verified ∨ inRecovery s then s
    else
      let b := if rdb s F.SEC_BOOT_WARM then s.running else s.flash
      match imageCause b s.fuseSvn with
      | some cause => countVerify (wrAll s [(F.SEC_BOOT_STAGE, 4), (F.SEC_BOOT_CAUSE, cause)]) true
      | none =>
        let s := { s with running := imageBytes b, boot := { s.boot with verified := true } }
        countVerify (wr (showImage s b) F.SEC_BOOT_STAGE 2) false)

/-- SECTIONS_LOAD (19 R541 step 5, R543): the units take their firmware; a part that fails halts the module. -/
def execSectionsLoad (fail : Option BootPart) (s : State) : Host.Outcome State Fault Refusal :=
  .next (
    if !s.boot.verified ∨ s.boot.sections ∨ inRecovery s then s
    else match fail with
      | some .computeDie => halt s 6
      | some .updateDie => halt s 7
      | some .hub => halt s 9
      | none => { s with boot := { s.boot with sections := true } })

/-- FABRIC_RELEASE (13 R390; 19 R541 step 6): the enabled ports enter DETECT. -/
def execFabricRelease (s : State) : Host.Outcome State Fault Refusal :=
  .next (
    if !s.boot.sections ∨ s.boot.released ∨ inRecovery s then s
    else
      let s := { s with boot := { s.boot with released := true, releasedAt := rd s F.TB_NOW_TIME } }
      (List.range 16).foldl (fun t p => if portState t p = 0 ∧ rdb t (F.FP_CFG_ENABLE p) then setPortState t p 1 else t) s)

/-- PORT_START (13 R390, R406): port n may leave DETECT n × 2 ms after the release, in increasing port number and 2 ms after the start of
the port before it. -/
def execPortStart (p : Fin 16) (s : State) : Host.Outcome State Fault Refusal :=
  .next (
    if !s.boot.released ∨ rd s F.TB_NOW_TIME < s.boot.releasedAt + 2000000 * p.val ∨ (port s p.val).started
        ∨ !(List.range p.val).all (fun q => (port s q).started && decide ((port s q).startAt + 2000000 ≤ rd s F.TB_NOW_TIME)) then s
    else setPort s p.val { port s p.val with started := true, startAt := rd s F.TB_NOW_TIME })

/-- An HBM3E stack that fails is FAILING (19 R543, 11 R327). -/
def markStackFailing (s : State) (n : Nat) : State :=
  if rdb s (F.HBM_STAT_FAILING n) then s
  else markPart (wrAll s [(F.HBM_STAT_FAILING n, 1), (F.ID_HEALTH_HBM_FAIL, rd s F.ID_HEALTH_HBM_FAIL + 1)]) (0x5000 + n) 0x07

/-- A pseudo-channel that fails its test is retired and remapped before READY (19 R543, 11 R325, R327). -/
def bootRetirePc (s : State) (n pc : Nat) : State :=
  if rdb s (F.HBM_STAT_RET_VALID n) then (if rd s (F.HBM_STAT_RETIRED_PC n) = pc then s else markStackFailing s n)
  else markPart (wrAll s [(F.HBM_STAT_RET_VALID n, 1), (F.HBM_STAT_RETIRED_PC n, pc), (F.HBM_LIMIT_LIMIT n, 0xAD39DB100),
    (F.ID_HEALTH_PC_RET, rd s F.ID_HEALTH_PC_RET + 1)]) (0x5000 + n) 0x07

/-- DRAM_TRAINING_DONE (19 R541 step 10, R543): hbm are the stacks that fail training, st the packages, pcs the pseudo-channels that fail their
test. With the slow tier trained the journal mirrors come into service (16 R464). -/
def execDramTrainingDone (hbm : List (Fin 16)) (st : List (Fin 24)) (pcs : List (Fin 16 × Fin 32)) (s : State) :
    Host.Outcome State Fault Refusal :=
  .next (
    if !s.boot.sections ∨ s.boot.dram ∨ inRecovery s then s
    else if st ≠ [] then halt (unrelease s) 8
    else
      let s := (List.finRange 16).foldl (fun t n =>
        if hbm.contains n then markStackFailing t n.val else wr t (F.HBM_STAT_TRAINED n.val) 1) s
      let s := (List.range 24).foldl (fun t n => wr t (F.ST_STAT_TRAINED n) 1) s
      let s := pcs.foldl (fun t e => bootRetirePc t e.1.val e.2.val) s
      wrAll { s with boot := { s.boot with dram := true } } [(F.CMD_STAT_MIR_A, 1), (F.CMD_STAT_MIR_B, 1)])

/-- READY (19 R541 steps 11 and 12, R542): every unit runs the verified image and the memory has trained; the library pairs are loaded at a
power-on. The first step boundary passes: recorded retirements take effect (18 R519). -/
def execReady (s : State) : Host.Outcome State Fault Refusal :=
  .next (
    if !s.boot.sections ∨ !s.boot.dram ∨ inRecovery s ∨ rdb s F.CMD_STAT_READY then s
    else
      let s := if rdb s F.SEC_BOOT_WARM then s else loadLibrary s s.running
      let s := if s.run.isSome then setStepState s 3 else setStepState (applyRemaps s) (if s.prog.isSome then 1 else 0)
      let ms := (rd s F.TB_NOW_TIME - s.boot.start) / 1000000
      raise (wrAll s [(F.CMD_STAT_READY, 1), (F.SEC_BOOT_STAGE, 3), (F.SEC_BOOT_READY_MS, min ms 4095)]) (hubSrc 16))

/-! PERST_N, R545. -/

/-- PERST_ASSERT (19 R545; 20 R581): the host link is reset; after READY it becomes a warm reset (WARM_RESET). Log 84 (DEDUCED). -/
def execPerstAssert (s : State) : Host.Outcome State Fault Refusal :=
  .next (if s.boot.perst then s
    else linkDown { s with boot := { s.boot with perst := true, perstAt := rd s F.TB_NOW_TIME } })

/-- PERST_DEASSERT (19 R545). -/
def execPerstDeassert (s : State) : Host.Outcome State Fault Refusal :=
  .next { s with boot := { s.boot with perst := false } }

/-! Warm reset, R546. -/

/-- Does a register field survive a warm reset: RWS and RS fields (00 R5), and what belongs to state that R546 preserves: the timebase,
bindings, the loaded program's placement, update tables, staged image, the record of retired memory; ID_FW_VER, ID_PROTO and SEC_SVN show the
running image throughout. Log 85 (DEDUCED). -/
def warmKeeps (a : Nat) : Bool :=
  match regAt (a / 8) with
  | none => false
  | some r =>
    let lo := a - 8 * r.off
    match r.desc.reg with
    | .TB_NOW => true
    | .FAB_BIND_W0 => true
    | .FAB_BIND_W1 => true
    | .FAB_BIND_W2 => true
    | .HD_CFG => true
    | .HD_MEM => true
    | .UD_GEN => true
    | .UD_TABGEN => true
    | .HBM_STAT => lo != 8
    | .ST_STAT => lo != 8
    | .HBM_LIMIT => true
    | .ST_LIMIT => true
    | .ID_FW_VER => true
    | .ID_PROTO => true
    | .SEC_FW => true
    | .SEC_FW_STAGED => true
    | .SEC_SVN => true
    | _ => r.desc.fields.any (fun d => d.lo == lo && (d.acc == .rws || d.acc == .rs))

/-- A command of the journal after the reset (16 R466, R491): without a terminal status it runs again from its start, but a commit that has
happened keeps its result. -/
def warmCmd (c : Cmd) : Cmd :=
  if c.status.isSome ∨ (c.fin.isSome ∧ [0x20, 0x21, 0x22].contains c.opcode) then c else { c with started := false, fin := none }

/-- What a port keeps: its removed lanes, and the times of its replays, which a power-on alone restarts (18 R516). -/
def warmPort (x : PortSt) : PortSt := { removed := x.removed, replays := x.replays }

/-- A step whose RUN_STEP has its status stays uncommitted: its COMMIT_STEP makes it run again from the last commit (16 R466). Any other step
runs again with its own command. -/
def warmRun (s : State) : Option StepRun :=
  match s.run with
  | none => none
  | some q =>
    match cmdOf s q.ring q.seq with
    | some c => if !q.program ∧ (c.status.isSome ∨ c.fin.isSome) then
        some { q with halted := false, committing := false, round := 0, sentCommit := false, skip := false } else none
    | none => none

/-- The state that a warm reset leaves before the recorded retirements show again (R546): everything else is as at reset. -/
def warmBase (s : State) : State :=
  { State.reset with
    regs := s.regs.filter (fun e => warmKeeps e.1)
    mem := s.mem.filter (fun e => decide (e.1 < 0x200000000000))
    poison := s.poison, lineKeys := s.lineKeys, free := s.free, readout := s.readout
    cores := s.cores.map (fun (e : Nat × CoreSt) => (e.1, resetStream e.2))
    clusters := s.clusters.map (fun (e : Nat × ClusterSt) => (e.1, { tabs := e.2.tabs, chains := e.2.chains }))
    prog := s.prog, pair := s.pair, keySlots := s.keySlots
    ports := s.ports.map (fun (e : Nat × PortSt) => (e.1, warmPort e.2))
    wire := s.wire, groups := s.groups, bindRec := s.bindRec, features := s.features
    journal := s.journal.map warmCmd, owed := s.owed, lastRing := s.lastRing
    hostOut := s.hostOut, msixOut := s.msixOut, replies := s.replies
    firstRun := s.firstRun, failedStep := s.failedStep, snapshot := s.snapshot, retired := s.retired
    ftabs := s.ftabs, ftPend := s.ftPend, upd := s.upd, updPend := s.updPend
    powered := s.powered, staged := s.staged, boards := s.boards, boardRemoved := s.boardRemoved, boardFails := s.boardFails
    ucie := s.ucie, ucieDis := s.ucieDis, ueTimes := s.ueTimes, ceTimes := s.ceTimes
    ceRows := s.ceRows, softRows := s.softRows, hardRows := s.hardRows
    power := { brake := s.power.brake, riseAt := s.power.riseAt, conds := s.power.conds }
    boot := { start := rd s F.TB_NOW_TIME, rails := true, trained := s.boot.trained, perst := s.boot.perst, perstAt := s.boot.perstAt }
    run := warmRun s
    replay := { rounds := s.replay.rounds, roundVc := s.replay.roundVc, rejoin := match s.run with
        | some q => if q.program then none else some (q.step, s.replay.id)
        | none => s.replay.rejoin }
    fuseSvn := s.fuseSvn, flash := s.flash, running := s.running, certs := s.certs, dynAddr := s.dynAddr
    pending := s.pending }

/-- Retired ports stay RETIRED. -/
def warmPorts (s t : State) : State :=
  (List.range 16).foldl (fun u p => if portState s p = 7 then freezePort (wr u (F.FP_STAT_STATE p) 7) p else u) (wr t F.ID_HEALTH_FP_X4 0)

/-- The whole warm reset: tables that waited take effect, unless a step is still to be committed (16 R477), the last commit records are in
force, retirements are recorded for the first step boundary, and alerts whose condition holds are set again (20 R584). -/
def warmReset (s : State) : State :=
  let t := warmPorts s (warmBase s)
  let t := wrAll t [(F.SEC_BOOT_STAGE, 0), (F.SEC_BOOT_WARM, 1), (F.PWR_STAT_BRAKE, rd s F.PWR_STAT_BRAKE)]
  let t := (List.range 16).foldl (fun u n => wr u (F.CMD_RING_STAT_INFLIGHT n) (openCount u.journal n)) t
  let t := if t.run.isSome then t else applyTables t
  showConds (showDuty (allClusters.foldl reapplyCores (restoreSnapshot t)))

/-- WARM_RESET (19 R545, R546): PERST_N has been low for 100 µs after READY. -/
def execWarmReset (s : State) : Host.Outcome State Fault Refusal :=
  .next (if !s.powered ∨ s.boot.shut ∨ inRecovery s ∨ !rdb s F.CMD_STAT_READY ∨ !s.boot.perst
      ∨ rd s F.TB_NOW_TIME < s.boot.perstAt + 100000 then s
    else warmReset s)

end Sys2Proof.Machine
end

