-- ==== Sys2Proof/Machine/Replay.lean ====
section
/-!
DEFINITION. Step replay: its start, the STOPPED rounds, the drain sets, RESTORE (18 R520 to R534; 16 R480).
-/

namespace Sys2Proof.Machine

open Sys2Proof

/-- The number of the next replay of the step that runs or awaits commit. -/
def nextReplayId (s : State) : Nat := ((if s.replay.step = stepNum s then s.replay.id else 0) + 1) % 65536

/-- A RUN_PROGRAM meets a hardware fault (16 R480): it runs again from its start, or ends without being fatal to the job. Log 66 (DEDUCED). -/
def rerunProgram (s : State) (r : StepRun) : State :=
  if (s.prog.map Program.rewrites).getD true ∨ lostSlot s then endRun (finish s r.ring r.seq 0x21 0x34 [])
  else
    restartExecution (applyRemaps { rollBackRun s with run := some { r with replays := r.replays + 1, halted := false } })

/-- REPLAY_START (18 R520, R521, R528, R531, R517): the oldest fault that waits starts a replay of the step; after the first COMMIT
message it waits for the next step. -/
def execReplayStart (s : State) : Host.Outcome State Fault Refusal :=
  .next (match s.faults, s.run with
    | (unit, _) :: l, some r =>
      if r.sentCommit then s
      else
        let s := { s with faults := l }
        if r.program then rerunProgram s r
        else if lostSlot s then fatalFault s (lostUnit s) 0x07
        else enterStop s r.step (nextReplayId s) (moduleId s) unit
    | _, _ => s)

/-! REPLAY messages. -/

/-- The fields of a REPLAY message that has arrived (18 R524). -/
def replayMsgOf (f : CtrlFlit) : ReplayMsg :=
  let b := f.payload.drop 8
  { src := leAt f.payload 2 2 % 1024, step := leAt b 0 4, id := leAt b 4 2, kind := leAt b 6 1, round := leAt b 7 1, set := leAt b 8 4,
    dirty := bit (leAt b 12 1) 0 }

/-- What a module does with a REPLAY message for a step (18 R521, R528, R534). -/
inductive ReplayUse where
  | discard      -- a step that is over, or a lower REPLAY_ID
  | wait         -- a step whose turn has not come
  | adopt        -- a higher REPLAY_ID
  | current      -- the REPLAY_ID in force
deriving DecidableEq, Repr

/-- How a REPLAY message is used. -/
def replayUse (s : State) (m : ReplayMsg) : ReplayUse :=
  let mine := match s.run with
    | some r => if r.program then none else some r.step
    | none => none
  let next := (rd s F.CMD_LAST_STEP_STEP + 1) % 2 ^ 32
  let here := match mine with
    | some n => n
    | none => if s.firstRun then m.step else next
  if m.step ≠ here then
    if 0 < serialDiff 32 m.step here then .wait else .discard
  else
    let cur := if s.replay.step = m.step then s.replay.id else 0
    if m.id = cur ∧ cur ≠ 0 then .current
    else if 0 < serialDiff 16 m.id cur then .adopt
    else .discard

/-- STOP under a REPLAY_ID from another module; a slot that the step lacks ends it instead (18 R517). -/
def adoptReplay (s : State) (m : ReplayMsg) (f : CtrlFlit) : State :=
  let b := f.payload.drop 8
  if s.run.isSome && lostSlot s then fatalFault s (lostUnit s) 0x07
  else enterStop s m.step m.id (leAt b 14 2 % 1024) (leAt b 16 2)

/-- The first REPLAY message of a KIND whose turn has come. -/
def firstReplay (s : State) (kind : Nat) : Option CtrlFlit :=
  s.ctrlIn.find? (fun f => f.typ == 6 && leAt f.payload 4 1 == 2 && (replayMsgOf f).kind == kind && replayUse s (replayMsgOf f) != .wait)

/-- A REPLAY message takes effect. -/
def receiveReplay (s : State) (kind : Nat) (keep : Bool) : State :=
  match firstReplay s kind with
  | none => s
  | some f =>
    let m := replayMsgOf f
    let t := takeCtrl s f
    let note := fun (u : State) =>
      if keep && !u.replay.msgs.contains m && u.replay.id == m.id then { u with replay := { u.replay with msgs := u.replay.msgs ++ [m] } } else u
    match replayUse s m with
    | .discard => bump { t with reporting := if t.reporting.contains m.src then t.reporting else t.reporting ++ [m.src] } (F.ID_FLT_CNT_COUNT 2) 1
    | .wait => s
    | .current => note t
    | .adopt => note (adoptReplay t m f)

/-- REPLAY_STOP_RECEIVE (18 R521, R523, R528, R534). -/
def execReplayStopReceive (s : State) : Host.Outcome State Fault Refusal := .next (receiveReplay s 1 false)

/-- STOPPED_RECEIVE (18 R525, R528). -/
def execStoppedReceive (s : State) : Host.Outcome State Fault Refusal := .next (receiveReplay s 2 true)

/-- DRAIN_RECEIVE (18 R526, R528). -/
def execDrainReceive (s : State) : Host.Outcome State Fault Refusal := .next (receiveReplay s 3 true)

/-! Rounds. -/

/-- The messages of a round of the replay. -/
def sendReplayRound (s : State) (kind : Nat) : State :=
  sendMgmtAll s (roundVcOf s.replay.roundVc s.replay.round) 2
    (replayBody s.replay.step s.replay.id kind s.replay.round (if kind = 3 then s.replay.set else 0) (kind == 3 && s.replay.orDirty)
      (rd s F.ID_REPLAY_ORIG_ORIGIN) (rd s F.ID_REPLAY_ORIG_CAUSE))

/-- The messages of the current round that have arrived. -/
def roundMsgs (s : State) (kind : Nat) : List ReplayMsg :=
  s.replay.msgs.filter (fun m => m.step == s.replay.step && m.id == s.replay.id && m.kind == kind && m.round == s.replay.round
    && (kind != 3 || m.set == s.replay.set))

/-- A message of the current round has arrived from every other member. -/
def roundFull (s : State) (kind : Nat) : Bool :=
  (roundPeers s s.replay.roundVc s.replay.round).all (fun d => (roundMsgs s kind).any (fun m => m.src == d))

/-- Flits of VC_0 to VC_6 lie in a receive or replay buffer, or wait to be forwarded (18 R526). -/
def buffersDirty (s : State) : Bool :=
  !s.inbox.isEmpty || s.ctrlIn.any (fun f => f.typ == 5)
    || s.ports.any (fun e => !e.2.rx.isEmpty || e.2.sent.any (fun f => f.vc != 7) || e.2.q.any (fun o => decide (o.typ < 6)))

/-- A drain set begins: the module's own DIRTY, and the messages of round 0 (18 R526). Log 67 (DEDUCED). -/
def beginDrainSet (s : State) (n : Nat) : State :=
  let own := s.replay.dirty || buffersDirty s
  let s := { s with replay := { s.replay with set := n, round := 0, orDirty := own, dirty := false, reported := true } }
  let s := bump (wrAll s [(F.ID_REPLAY_PHASE, 3), (F.ID_REPLAY_SET, min n 8191)]) (F.ID_FLT_CNT_COUNT 3) 1
  if s.replay.rounds = 0 then s else sendReplayRound s 3

/-- STOPPED_ROUNDS_END (18 R522, R525): the module originates nothing more and its rounds begin; a round ends; after the last one the
first drain set begins. -/
def execStoppedRoundsEnd (s : State) : Host.Outcome State Fault Refusal :=
  .next (
    let phase := rd s F.ID_REPLAY_PHASE
    if phase = 1 then
      if originating s then s
      else
        let s : State := { wr s F.ID_REPLAY_PHASE 2 with replay := { s.replay with round := 0 } }
        if s.replay.rounds = 0 then s else sendReplayRound s 2
    else if phase = 2 then
      if s.replay.rounds = 0 then beginDrainSet s 1
      else if !roundFull s 2 then s
      else
        let s : State := { s with replay := { s.replay with round := s.replay.round + 1 } }
        if s.replay.round < s.replay.rounds then sendReplayRound s 2 else beginDrainSet s 1
    else s)

/-- RESTORE begins (18 R517, R529, R534): the start of the replay is a step boundary at which what was decided until now takes effect; a step
that needs a slot it has lost does not replay. What is decided later waits for the next boundary. -/
def beginRestore (s : State) : State :=
  if s.run.isNone then wr s F.ID_REPLAY_PHASE 4
  else if lostSlot s then fatalFault s (lostUnit s) 0x07
  else wr (applyRemaps s) F.ID_REPLAY_PHASE 4

/-- A drain set is over (18 R526, R527): a clean one leads to RESTORE, otherwise what was held is discarded and the next set begins. -/
def endDrainSet (s : State) : State :=
  if s.replay.orDirty then
    let n := s.replay.held.length
    let s := s.replay.held.foldl freeMsg { s with replay := { s.replay with held := [] } }
    beginDrainSet (bump s (F.ID_FLT_CNT_COUNT 5) n) (s.replay.set + 1)
  else beginRestore s

/-- DRAIN_SET_END (18 R526, R527): a round of the set ends; after the last one the set ends. -/
def execDrainSetEnd (s : State) : Host.Outcome State Fault Refusal :=
  .next (
    if rd s F.ID_REPLAY_PHASE ≠ 3 then s
    else if s.replay.rounds = 0 then endDrainSet s
    else if !roundFull s 3 then s
    else
      let d := (roundMsgs s 3).any (fun m => m.dirty)
      let s := { s with replay := { s.replay with orDirty := s.replay.orDirty || d, round := s.replay.round + 1 } }
      if s.replay.round < s.replay.rounds then sendReplayRound s 3 else endDrainSet s)

/-! RESTORE. -/

/-- The messages that the drain held come before any other (18 R527). -/
def releaseHeld (s : State) : State :=
  let data := s.replay.held.filter (fun m => m.vc != 6)
  let hurdles := (s.replay.held.filter (fun m => m.vc == 6)).map (fun (m : Msg) =>
    ({ typ := 5, inPort := (m.cred.map (fun c => c.1)).getD 0, payload := m.data } : CtrlFlit))
  { s with inbox := data ++ s.inbox, ctrlIn := hurdles ++ s.ctrlIn, replay := { s.replay with held := [], reported := false, msgs := [] } }

/-- RESTORE_END (18 R522, R527, R529, R534): the state of the last commit is back in place, and the module restarts; a module whose step
has not begun only leaves the replay. A fault that has come meanwhile starts the next replay instead. -/
def execRestoreEnd (s : State) : Host.Outcome State Fault Refusal :=
  .next (
    if rd s F.ID_REPLAY_PHASE ≠ 4 ∨ s.faults ≠ [] ∨ s.softRows ≠ [] ∨ remapDue s ∨ s.partCmds.any (fun p => p.1 == 0x52) then s
    else if s.run.isNone then wr (releaseHeld s) F.ID_REPLAY_PHASE 0
    else
      let s := restartExecution s
      let s := bump (wr (releaseHeld s) F.ID_REPLAY_PHASE 0) (F.ID_FLT_CNT_COUNT 1) 1
      setStepState s 2)

end Sys2Proof.Machine
end

