-- ==== Sys2Proof/Machine/Fabric.lean ====
section
/-!
DEFINITION. The link and routed layers of a fabric port: flits sent each flit time, flits received, acknowledgements, replays, HOLD,
transit, IDENT (13 R378 to R387, R393, R394, R397, R398, R401 to R407; 18 R526).
-/

namespace Sys2Proof.Machine

open Sys2Proof

/-! Sending. -/

/-- The credit pool of a channel and class (13 R387). -/
def poolOf (vc cls : Nat) : Nat := if vc ≤ 5 then 2 * vc + cls else 6 + vc

/-- Channel and class of a pool. -/
def poolChannel (q : Nat) : Nat × Nat := if q < 12 then (q / 2, q % 2) else (q - 6, 0)

/-- The next acknowledgement and credits of a flit that leaves: HOLD before READY, with the time until READY
(R393, 19 R544); otherwise the lowest pool that is owed credits (DESIGN CHOICE, log 14). -/
def linkFields (s : State) (p : Nat) (f : Flit) : Flit × State :=
  let x := port s p
  let f := { f with ackSeq := x.rxLast, ackKind := x.oweAck }
  if x.oweAck = 3 then
    ({ f with cred := min 255 (readyIn s) }, setPort s p { x with oweAck := 0 })
  else
    match x.credOwed with
    | [] => (f, setPort s p { x with oweAck := 0 })
    | (q, n) :: rest =>
      let k := min n 255
      ({ f with credVc := (poolChannel q).1, credCls := (poolChannel q).2, cred := k },
       setPort s p { x with oweAck := 0, credOwed := if n - k = 0 then rest else (q, n - k) :: rest })

/-- A flit goes onto the wire. -/
def putFlit (s : State) (p : Nat) (f : Flit) : State :=
  let (f, s) := linkFields s p f
  { s with wire := s.wire ++ [(p, flitBytes f)] }

/-- Does a port hold a credit for a pool? -/
def hasCredit (s : State) (p q : Nat) : Bool := rd s (F.FP_CRED_HELD p q) != 0

/-- May a port send new routed flits (13 R383, R393)? -/
def maySendNew (s : State) (p : Nat) : Bool := !(port s p).holding && decide ((port s p).sent.length < 256)

/-- The next waiting flit of a pool, with its place: while a message has begun to leave, only its own flits (13 R398). -/
def firstOfPool (x : PortSt) (q : Nat) : Option (Nat × OutFlit) :=
  (x.q.mapIdx (fun i o => (i, o))).find? (fun e => decide (1 ≤ e.2.typ ∧ e.2.typ ≤ 6) && poolOf e.2.vc e.2.cls == q
    && (match mapFind x.locks q with
      | some k => e.2.source == k
      | none => true))

/-- What the leaving of a flit does to its pool's message: a HEAD begins it, a TAIL ends it. -/
def lockAfter (locks : NMap Nat) (q : Nat) (o : OutFlit) : NMap Nat :=
  if o.typ = 1 then mapPut locks q o.source else if o.typ = 3 then mapErase locks q else locks

/-- A new routed flit leaves: it takes a SEQ and a credit and enters the replay buffer; a transit flit frees its receive buffer. -/
def sendRouted (s : State) (p i : Nat) (o : OutFlit) : State :=
  let x := port s p
  let q := poolOf o.vc o.cls
  let f : Flit := { seq := x.txNext, typ := o.typ, vc := o.vc, cls := o.cls, payload := o.payload, time := now s + flitTime s p }
  let s := setPort s p { x with q := dropAt x.q i, sent := x.sent ++ [f], txNext := (x.txNext + 1) % 4096, locks := lockAfter x.locks q o }
  let s := wr s (F.FP_CRED_HELD p q) (rd s (F.FP_CRED_HELD p q) - 1)
  let s := bump s (F.FP_CNT_COUNT p 0) 1
  let s := if o.origin then s
    else
      let s := bump (returnCredit s o.inPort o.inPool 1) (F.FP_CNT_COUNT p 9) 1
      let s := if o.typ = 5 then bump s (F.FP_CNT_COUNT p 10) 1 else s
      if o.typ ≠ 6 ∧ replaying s then { s with replay := { s.replay with dirty := true } } else s
  putFlit s p f

/-- The data pool that is served next (13 R407): the first after the one served last that holds a ready flit and a credit. -/
def nextPool (s : State) (p : Nat) : Option Nat :=
  ((List.range 12).map (fun i => ((port s p).rr + 1 + i) % 12)).find? (fun q =>
    hasCredit s p q && (firstOfPool (port s p) q).isSome)

/-- The flit that a port sends next in its order (13 R407): replayed flits, HURDLE, CONTROL, MGMT, data; else IDLE. -/
def sendNext (s : State) (p : Nat) : State :=
  let x := port s p
  match (if x.holding then [] else x.resend) with
  | f :: rest =>
    let g := { f with time := now s + flitTime s p }
    putFlit (setPort s p { x with resend := rest, sent := x.sent.map (fun (h : Flit) => if h.seq = f.seq then g else h) }) p g
  | [] =>
    let short := fun (q : Nat) => if maySendNew s p && hasCredit s p q then firstOfPool x q else none
    match short 12 with
    | some (i, o) => sendRouted s p i o
    | none =>
      match (x.q.mapIdx (fun i o => (i, o))).find? (fun e => e.2.typ == 7) with
      | some (i, o) => putFlit (setPort s p { x with q := dropAt x.q i }) p { typ := 7, payload := o.payload }
      | none =>
        match short 13 with
        | some (i, o) => sendRouted s p i o
        | none =>
          match (if maySendNew s p then nextPool s p else none) with
          | some q =>
            (match firstOfPool x q with
              | some (i, o) => sendRouted (setPort s p { x with rr := q }) p i o
              | none => s)
          | none => putFlit s p {}

/-- FLIT_TIME (13 R378, R407): an ACTIVE port sends its next flit; an INCOMPAT port sends IDLE (13 R391). -/
def execFlitTime (p : Fin 16) (s : State) : Host.Outcome State Fault Refusal :=
  .next (
    if portState s p.val = 4 then sendNext s p.val
    else if portState s p.val = 6 then putFlit s p.val {}
    else s)

/-! Acknowledgements and replays, 13 R384, R385, R393. -/

/-- The flits that an acknowledgement covers leave the replay buffer. -/
def ackFlits (x : PortSt) (ack : Nat) : PortSt :=
  let kept := fun (l : List Flit) => l.filter (fun f => decide (0 < serialDiff 12 f.seq ack))
  { x with sent := kept x.sent, resend := kept x.resend }

/-- Every unacknowledged flit is sent again, in order. -/
def resendAll (x : PortSt) : PortSt := { x with resend := x.sent }

/-- A replay is counted; the 32nd within 1 ms meets the threshold (13 R385, 18 R516). -/
def countReplay (s : State) (p : Nat) : State :=
  let x := port s p
  let l := (x.replays ++ [now s]).filter (fun t => decide (now s - t ≤ 1000000))
  bump (setPort s p { x with replays := l, thresh := x.thresh || (decide (32 ≤ l.length) && portState s p == 4) }) (F.FP_CNT_COUNT p 4) 1

/-- What a flit's acknowledgement and credit fields do (13 R385, R387, R393): returns come first; a NAK starts a replay, a HOLD stops
routed flits for its time. -/
def takeLinkFields (s : State) (p : Nat) (f : Flit) : State :=
  let s := if f.ackKind = 3 ∨ f.cred = 0 ∨ (6 ≤ f.credVc ∧ f.credCls = 1) then s
    else
      let q := poolOf f.credVc f.credCls
      wr s (F.FP_CRED_HELD p q) (rd s (F.FP_CRED_HELD p q) + f.cred)
  let x := port s p
  match f.ackKind with
  | 0 => s
  | 1 => setPort s p (ackFlits x f.ackSeq)
  | 2 => countReplay (setPort s p (resendAll (ackFlits x f.ackSeq))) p
  | _ => bump (setPort s p { ackFlits x f.ackSeq with holding := true, holdTo := now s + f.cred * 100000, resend := [] }) (F.FP_CNT_COUNT p 6) 1

/-- ACK_TIMEOUT (13 R385): a sent flit stays unacknowledged beyond FP_RTT + 24 ns of its last bit. -/
def execAckTimeout (p : Fin 16) (s : State) : Host.Outcome State Fault Refusal :=
  .next (
    let x := port s p.val
    if portState s p.val ≠ 4 ∨ x.holding
        ∨ !x.sent.any (fun f => !x.resend.any (fun g => g.seq == f.seq) && decide (f.time + rd s (F.FP_RTT_RTT p.val) + 24 < now s)) then s
    else countReplay (setPort s p.val (resendAll x)) p.val)

/-- HOLD_EXPIRY (13 R393): the advertised time has passed, and the flits from ACK_SEQ + 1 on are sent again; no replay is counted. -/
def execHoldExpiry (p : Fin 16) (s : State) : Host.Outcome State Fault Refusal :=
  .next (
    let x := port s p.val
    if !x.holding ∨ now s < x.holdTo then s
    else setPort s p.val { resendAll x with holding := false })

/-! The routed layer, 13 R397, R398, R401 to R404. -/

/-- A data flit is lost for want of a route or by its HOPS: a link fault of the step (13 R403). -/
def loseFlit (s : State) (p q cnt : Nat) (data : Bool) : State :=
  let s := bump (returnCredit s p q 1) (F.FAB_CNT_COUNT cnt) 1
  if data then stepFault s (portUnit p) 0x06 else s

/-- Is this module the destination? -/
def isMine (s : State) (dst : Nat) : Bool := rdb s F.ID_MODULE_VALID && moduleId s == dst

/-- During a replay a flit of VC_0 to VC_6 that comes makes the next report DIRTY (18 R526). -/
def noteDirty (s : State) (typ : Nat) : State :=
  if typ ≠ 6 ∧ replaying s then { s with replay := { s.replay with dirty := true } } else s

/-- A flit passes on through another port; its buffer here stays in use until it leaves (13 R387, R404). -/
def passOn (s : State) (p q out : Nat) (f : Flit) (payload : List Byte) (dst : Nat) : State :=
  enqueue s out { typ := f.typ, vc := f.vc, cls := if f.vc ≤ 5 then leaveClass s out (some p) f.cls else 0, dst := dst, payload := payload,
                  origin := false, inPort := p, inPool := q }

/-- The message that a stream's header and data make; the buffer of its last flit is freed when it is delivered, those of the others as
their data joins the message (13 R387). Log 14. -/
def msgOf (vc p q : Nat) (h : List Byte) (data : List Byte) : Msg :=
  { vc := vc, dst := leAt h 0 2 % 1024, src := leAt h 2 2 % 1024, tag := leAt h 4 2, last := bit (leAt h 8 1) 0, hops := leAt h 9 1,
    tgt := leAt h 10 2, npost := leAt h 12 1, addr := leAt h 16 6, data := data,
    cred := some (p, q, 1) }

/-- A HEAD or SINGLE of a data message arrives (13 R397, R402, R403). -/
def receiveHead (s : State) (p q : Nat) (f : Flit) : State :=
  let h := f.payload.take 32
  let dst := leAt h 0 2 % 1024
  let len := leAt h 6 2 % 32768
  let open_ := fun (t : State) (r : RxStream) => let x := port t p; setPort t p { x with rx := mapPut x.rx q r }
  let need := len - min len 208
  if isMine s dst then
    let data := sliceBytes f.payload 32 (min len 208)
    if need = 0 then { s with inbox := s.inbox ++ [msgOf f.vc p q h data] }
    else open_ (returnCredit s p q 1) { header := h, data := data, need := need, fwd := none, drop := false }
  else if 64 < leAt h 9 1 + 1 then
    let s := loseFlit s p q 1 true
    if need = 0 then s else open_ s { header := h, data := [], need := need, fwd := none, drop := true }
  else
    match routePort s dst (leAt h 4 2) with
    | none =>
      let s := loseFlit s p q 0 true
      if need = 0 then s else open_ s { header := h, data := [], need := need, fwd := none, drop := true }
    | some out =>
      let s := passOn s p q out f (putBytes f.payload 9 (natLE 1 (leAt h 9 1 + 1))) dst
      if need = 0 then s else open_ s { header := h, data := [], need := need, fwd := some out, drop := false }

/-- A BODY or TAIL arrives: it follows its HEAD (13 R398); one without a HEAD belongs to no message and is discarded. -/
def receiveBody (s : State) (p q : Nat) (f : Flit) : State :=
  let x := port s p
  match mapFind x.rx q with
  | none => returnCredit s p q 1
  | some r =>
    let left := r.need - min r.need 240
    let put := fun (t : State) (r : RxStream) =>
      let y := port t p
      setPort t p { y with rx := if left = 0 then mapErase y.rx q else mapPut y.rx q { r with need := left } }
    if r.cut then put (stepFault (returnCredit s p q 1) (portUnit p) 0x06) r
    else if r.drop then put (loseFlit s p q (if 64 < leAt r.header 9 1 + 1 then 1 else 0) true) r
    else
      match r.fwd with
      | some out => put (passOn s p q out f f.payload (leAt r.header 0 2 % 1024)) r
      | none =>
        let data := r.data ++ f.payload.take (min r.need 240)
        let s := put s { r with data := data }
        if left = 0 then { s with inbox := s.inbox ++ [msgOf f.vc p q r.header data] } else returnCredit s p q 1

/-- A HURDLE or MGMT flit arrives (13 R400, R401, R403); a reserved OP or KIND ends here. -/
def receiveShort (s : State) (p : Nat) (f : Flit) : State :=
  let q := shortPool f.typ
  let dst := leAt f.payload 0 2 % 1024
  let hopAt := if f.typ = 5 then 11 else 5
  let hops := leAt f.payload hopAt 1
  if isMine s dst then
    let op := leAt f.payload 4 1
    if f.typ = 6 && !(decide (1 ≤ op ∧ op ≤ 3)) then bump (returnCredit s p q 1) (F.FAB_CNT_COUNT 4) 1
    else if f.typ = 5 && !(op == 1 || op == 2) then returnCredit s p q 1
    else if f.typ = 6 && op == 2 && !(decide (1 ≤ leAt f.payload 14 1 ∧ leAt f.payload 14 1 ≤ 3)) then returnCredit s p q 1
    else { s with ctrlIn := s.ctrlIn ++ [⟨f.typ, p, f.payload⟩] }
  else if 64 < hops + 1 then loseFlit s p q 1 false
  else
    match routePort s dst 0 with
    | none => loseFlit s p q 0 false
    | some out => passOn s p q out f (putBytes f.payload hopAt (natLE 1 (hops + 1))) dst

/-- An accepted routed flit. -/
def receiveRouted (s : State) (p : Nat) (f : Flit) : State :=
  let s := noteDirty s f.typ
  let q := poolOf f.vc f.cls
  match f.typ with
  | 1 => receiveHead s p q f
  | 4 => receiveHead s p q f
  | 2 => receiveBody s p q f
  | 3 => receiveBody s p q f
  | _ => receiveShort s p f

/-- A CONTROL flit (13 R394, R401): IDENT fills FP_PARTNER, RETIRE retires this end, other kinds are ignored. -/
def receiveControl (s : State) (p : Nat) (f : Flit) : State :=
  match leAt f.payload 0 2 with
  | 1 => wrAll s [(F.FP_PARTNER_MODULE p, leAt f.payload 2 2 % 1024), (F.FP_PARTNER_VALID p, b2n (bit (leAt f.payload 4 1) 0))]
  | 2 => retirePort s p 0x07 false
  | _ => s

/-- A NAK is owed, one per episode of loss (13 R384). -/
def oweNak (s : State) (p : Nat) (again : Bool) : State :=
  let x := port s p
  if x.nakOpen && !again then s
  else bump (setPort s p { x with oweAck := 2, nakOpen := true }) (F.FP_CNT_COUNT p 3) 1

/-- A routed flit that is intact (13 R382 to R384, R393): before READY it is answered with HOLD; in sequence it is accepted; otherwise
it is discarded. bad says that it is a protocol error. -/
def takeRouted (s : State) (p : Nat) (f : Flit) (bad : Bool) : State :=
  let x := port s p
  if !rdb s F.CMD_STAT_READY then bump (setPort s p { x with oweAck := 3 }) (F.FP_CNT_COUNT p 5) 1
  else if f.seq = (x.rxLast + 1) % 4096 then
    let s := setPort s p { x with rxLast := f.seq, oweAck := 1, nakOpen := false }
    let s := bump s (F.FP_CNT_COUNT p 1) 1
    if bad then returnCredit s p (poolOf (min f.vc 7) (if f.vc ≤ 5 then f.cls else 0)) 1 else receiveRouted s p f
  else oweNak s p (decide (serialDiff 12 f.seq x.rxLast ≤ 0))

/-- Corrected symbols advance FP_LANE_ERR of their lanes (13 R380). -/
def countSymbols (s : State) (p : Nat) (l : List Nat) : State :=
  l.foldl (fun t i => bump t (F.FP_LANE_ERR_COUNT p (byteLane t p i)) 1) s

/-- A flit arrives (13 R380, R382, R384, R385): its 256 bytes are corrected and checked, its link fields taken, then itself. -/
def receiveFlit (s : State) (p : Nat) (raw : List Byte) : State :=
  let (b, fixed) := correctFlit (sliceBytes raw 0 256)
  let s := countSymbols s p fixed
  if !flitCrcOk b then oweNak (bump s (F.FP_CNT_COUNT p 2) 1) p false
  else
    let f := flitOf b
    let s := takeLinkFields s p f
    if protocolError b then
      let s := if routedType f.typ then takeRouted s p f true else s
      startRetrain (bump s (F.FP_CNT_COUNT p 11) 1) p
    else if routedType f.typ then takeRouted s p f false
    else if f.typ = 7 then receiveControl s p f
    else s

/-- FLIT_RECEIVE (13 R380 to R384): a flit of 256 bytes arrives at an ACTIVE port. -/
def execFlitReceive (p : Fin 16) (raw : List Byte) (s : State) : Host.Outcome State Fault Refusal :=
  .next (if portState s p.val = 4 then receiveFlit s p.val raw else s)

/-- A flit that is intact, of a kind. -/
def intactFlit (raw : List Byte) (kind : Flit → Bool) : Bool :=
  let b := (correctFlit (sliceBytes raw 0 256)).1
  flitCrcOk b && kind (flitOf b)

/-- NAK_RECEIVE (13 R385): a flit that carries a NAK arrives. -/
def execNakReceive (p : Fin 16) (raw : List Byte) (s : State) : Host.Outcome State Fault Refusal :=
  .next (if portState s p.val = 4 && intactFlit raw (fun f => f.ackKind == 2) then receiveFlit s p.val raw else s)

/-- HOLD_RECEIVE (13 R393): a flit that carries a HOLD arrives. -/
def execHoldReceive (p : Fin 16) (raw : List Byte) (s : State) : Host.Outcome State Fault Refusal :=
  .next (if portState s p.val = 4 && intactFlit raw (fun f => f.ackKind == 3) then receiveFlit s p.val raw else s)

/-- CONTROL_RETIRE (13 R385, R392, R401): a flit that is a RETIRE arrives: the partner has retired its end. -/
def execControlRetire (p : Fin 16) (raw : List Byte) (s : State) : Host.Outcome State Fault Refusal :=
  .next (if portState s p.val = 4 && intactFlit raw (fun f => f.typ == 7 && leAt f.payload 0 2 == 2) then receiveFlit s p.val raw else s)

/-! IDENT, 13 R394. -/

/-- Payload of an IDENT flit. -/
def identPayload (s : State) : List Byte := natLE 2 1 ++ natLE 2 (moduleId s) ++ natLE 1 (rd s F.ID_MODULE_VALID)

/-- IDENT_SEND (13 R394): once per millisecond a CONTROL IDENT flit joins the flits of an ACTIVE port. -/
def execIdentSend (p : Fin 16) (s : State) : Host.Outcome State Fault Refusal :=
  .next (
    let x := port s p.val
    if portState s p.val ≠ 4 ∨ (x.identAt ≠ 0 ∧ now s - x.identAt < 1000000) then s
    else enqueue (setPort s p.val { x with identAt := max 1 (now s) }) p.val { typ := 7, vc := 0, payload := payload240 (identPayload s) })

/-- IDENT_RECEIVE (13 R394): a flit that is an IDENT arrives. -/
def execIdentReceive (p : Fin 16) (raw : List Byte) (s : State) : Host.Outcome State Fault Refusal :=
  .next (if portState s p.val = 4 && intactFlit raw (fun f => f.typ == 7 && leAt f.payload 0 2 == 1) then receiveFlit s p.val raw else s)

end Sys2Proof.Machine
end

