-- ==== Sys2Proof/Machine/RegWrite.lean ====
section
/-!
DEFINITION. Register accesses over BAR0 (00 R5 to R8, 01 R31 to R36, R38, R39) and the registers whose writes have rules of their own.
-/

namespace Sys2Proof.Machine

open Sys2Proof

/-! What a write meets. -/

/-- The window takes no writes: a retired part, or a part that RESET_PART holds in reset (01 R35, R36). -/
def closedWindow (s : State) (off : Nat) : Bool := heldInReset s off || inRetired s off

/-- A write that is discarded and recorded where its window takes none. -/
def guarded (s : State) (off : Nat) (t : State) : State := if closedWindow s off then recordRsvd s off else t

/-- A write that is discarded and recorded unless a condition holds (00 R8). -/
def allowIf (ok : Bool) (s : State) (off : Nat) (t : State) : State := if ok then t else recordRsvd s off

/-- A step has begun and its boundary has not come (DEDUCED, log 36: a step runs until then). -/
def stepRuns (s : State) : Bool := s.run.isSome

/-- BAR0 offset of the 32-bit word that holds a field. -/
def Fld.word (f : Fld) : Nat := f.at_ / 32 * 4

/-! Registers with rules of their own. -/

/-- ID_RSVD_WR cleared (01 R38). -/
def clearRsvd (s : State) : State :=
  wrAll s [(F.ID_RSVD_WR_CNT_COUNT, 0), (F.ID_RSVD_WR_OVF, 0), (F.ID_RSVD_WR_FIRST_VALID, 0), (F.ID_RSVD_WR_FIRST_OFFSET, 0)]

/-- ID_RSVD_WR_CLEAR (01 R38, R39). -/
def execIdRsvdWrClear (s : State) : Host.Outcome State Fault Refusal := .next (clearRsvd (wr s F.ID_RSVD_WR_CLEAR 1))

/-- CO_OVF_CNT and CNT_OVF cleared (02 R69, R71). -/
def clearCoCnt (s : State) (c : CoreId) : State := wrAll s [(F.CO_OVF_CNT_COUNT c, 0), (F.CO_FMT_FLAGS_CNT_OVF c, 0)]

/-- CO_FMT_CLR_CNT (02 R69, R71). -/
def execCoFmtClrCnt (c : CoreId) (s : State) : Host.Outcome State Fault Refusal :=
  .next (guarded s (F.CO_FMT_FLAGS_OVF c).word (clearCoCnt (wr (reachCluster s c.cluster) (F.CO_FMT_FLAGS_CLR_CNT c) 1) c))

/-- DENORM_FLUSH of a core is written: in force at once while no step runs in the core (02 R67); in a cluster that sleeps, when it wakes
(01 R34). The write wakes a gated cluster (20 R572). -/
def setFlush (s : State) (c : CoreId) (v : Nat) : State :=
  showFlush (reachCluster (wr s (F.CO_FMT_CTL_DENORM_FLUSH c) v) c.cluster) c

/-- DENORM_FLUSH_WRITE (02 R67). -/
def execDenormFlushWrite (c : CoreId) (flush : Bool) (s : State) : Host.Outcome State Fault Refusal :=
  .next (guarded s (F.CO_FMT_CTL_DENORM_FLUSH c).word (setFlush s c (b2n flush)))

/-- UD_CNT_5 and CNT_OVF cleared (12 R376). -/
def clearUdCnt (s : State) (m : Nat) : State := wrAll s [(F.UD_CNT_COUNT m 5, 0), (F.UD_FLAGS_CNT_OVF m, 0)]

/-- UD_CLR_CNT (12 R376). -/
def execUdClrCnt (m : Fin 4) (s : State) : Host.Outcome State Fault Refusal :=
  .next (guarded s (F.UD_FLAGS_OVF m.val).word (clearUdCnt (wr s (F.UD_FLAGS_CLR_CNT m.val) 1) m.val))

/-- RR_CNT_7 and CNT_OVF cleared (14 R439). -/
def clearRrCnt (s : State) : State := wrAll s [(F.RR_CNT_COUNT 7, 0), (F.RR_FLAGS_CNT_OVF, 0)]

/-- RR_CLR_CNT (14 R439). -/
def execRrClrCnt (s : State) : Host.Outcome State Fault Refusal := .next (clearRrCnt (wr s F.RR_FLAGS_CLR_CNT 1))

/-- A port is taken out of service by ENABLE 0: DISABLED (13 R389); what its link held leaves by other ports or is lost. -/
def disablePort (s : State) (p : Nat) : State :=
  if portState s p = 0 then s
  else
    let s := if rd s (F.FP_STAT_WIDTH p) = 1 then wr s F.ID_HEALTH_FP_X4 (rd s F.ID_HEALTH_FP_X4 - 1) else s
    dropLink (setWidth (setPortState s p 0) p 0 0) p 0x06

/-- DIM, DATELINE and ENABLE of a port are set; a disabled port looks for a partner once enabled, after the release of the
fabric (13 R389, R390). -/
def setPortCfg (s : State) (p dim dateline enable : Nat) : State :=
  let s := wrAll s [(F.FP_CFG_DIM p, dim), (F.FP_CFG_DATELINE p, dateline), (F.FP_CFG_ENABLE p, enable)]
  if enable = 0 then disablePort s p
  else if portState s p = 0 ∧ s.boot.released then setPortState s p 1
  else s

/-- Is a value of DIM reserved (13 R410)? -/
def badDim (dim : Nat) : Bool := decide (4 ≤ dim ∧ dim ≤ 14)

/-- ROUTE_CONFIG_WRITE (13 R405, R410): discarded and recorded while a step runs. -/
def execRouteConfigWrite (w : RouteWrite) (s : State) : Host.Outcome State Fault Refusal :=
  .next (match w with
    | .entry dst ports alt =>
      allowIf (!stepRuns s) s (F.FAB_RT_PORTS dst.val).word
        (wrAll s [(F.FAB_RT_PORTS dst.val, ports.toNat), (F.FAB_RT_ALT dst.val, alt.toNat)])
    | .portCfg p dim dateline enable =>
      let off := (F.FP_CFG_ENABLE p.val).word
      allowIf (!stepRuns s && !badDim dim.val && !closedWindow s off) s off (setPortCfg s p.val dim.val (b2n dateline) (b2n enable)))

/-- FP_RETRAIN (13 R392, R410): RETRAIN is written with 1; it reads back the last value written. -/
def execFpRetrain (p : Fin 16) (s : State) : Host.Outcome State Fault Refusal :=
  .next (guarded s (F.FP_CFG_RETRAIN p.val).word (startRetrain (wr s (F.FP_CFG_RETRAIN p.val) 1) p.val))

/-- May a port's pool q take a LIMIT (13 R388)? -/
def creditOk (s : State) (p q limit : Nat) : Bool :=
  portState s p == 0 && decide (8 ≤ limit) &&
    decide (((List.range 14).map (fun i => if i = q then limit else rd s (F.FP_CRED_LIMIT p i))).foldl (· + ·) 0 ≤ 1024)

/-- FP_CRED_WRITE (13 R388). -/
def execFpCredWrite (p : Fin 16) (q : Fin 14) (limit : BitVec 16) (s : State) : Host.Outcome State Fault Refusal :=
  .next (allowIf (creditOk s p.val q.val limit.toNat && !closedWindow s (F.FP_CRED_LIMIT p.val q.val).word) s (F.FP_CRED_LIMIT p.val q.val).word
    (wr s (F.FP_CRED_LIMIT p.val q.val) limit.toNat))

/-- Regions n and m share a 2 MiB unit. -/
def regionsMeet (s : State) (n m : Nat) : Bool :=
  decide (rd s (F.SEC_PR_BASE_ADDR n) ≤ rd s (F.SEC_PR_LIMIT_ADDR m) ∧ rd s (F.SEC_PR_BASE_ADDR m) ≤ rd s (F.SEC_PR_LIMIT_ADDR n))

/-- Region n overlaps a view of the generation pair in force (12 R369). -/
def regionOverView (s : State) (n : Nat) : Bool :=
  match s.pair with
  | none => false
  | some (pa, pb, len) =>
    let lo := rd s (F.SEC_PR_BASE_ADDR n) * 2 ^ 21
    let size := (rd s (F.SEC_PR_LIMIT_ADDR n) + 1) * 2 ^ 21 - lo
    rangesMeet lo size pa len || rangesMeet lo size pb len

/-- May SEC_PR_CTL_n take a key slot and an enable (11 R344, 12 R369)? -/
def regionOk (s : State) (n slot : Nat) (en : Bool) : Bool :=
  !stepRuns s &&
    (!en || (decide (rd s (F.SEC_PR_BASE_ADDR n) ≤ rd s (F.SEC_PR_LIMIT_ADDR n)) && (mapFind s.keySlots slot).isSome &&
      !regionOverView s n && !(List.range 16).any (fun m => m != n && rdb s (F.SEC_PR_CTL_EN m) && regionsMeet s n m)))

/-- SEC_PR_CTL_WRITE (11 R344). -/
def execSecPrCtlWrite (n : Fin 16) (slot : Fin 16) (en : Bool) (s : State) : Host.Outcome State Fault Refusal :=
  .next (allowIf (regionOk s n.val slot.val en) s (F.SEC_PR_CTL_EN n.val).word
    (wrAll s [(F.SEC_PR_CTL_KEY_SLOT n.val, slot.val), (F.SEC_PR_CTL_EN n.val, b2n en)]))

/-- May the bounds of region n change (11 R344)? -/
def boundsOpen (s : State) (n : Nat) : Bool := !stepRuns s && !rdb s (F.SEC_PR_CTL_EN n)

/-- SEC_PR_BOUNDS_WRITE (11 R344): base or limit, in units of 2 MiB. -/
def execSecPrBoundsWrite (n : Fin 16) (limit : Bool) (addr : BitVec 27) (s : State) : Host.Outcome State Fault Refusal :=
  .next (
    let f := if limit then F.SEC_PR_LIMIT_ADDR n.val else F.SEC_PR_BASE_ADDR n.val
    allowIf (boundsOpen s n.val) s (f.at_ / 64 * 8) (wr s f addr.toNat))

/-- PWR_LIMIT_WRITE (20 R584): 1,200 to 4,800 W. -/
def execPwrLimitWrite (limit : BitVec 13) (s : State) : Host.Outcome State Fault Refusal :=
  .next (allowIf (decide (1200 ≤ limit.toNat ∧ limit.toNat ≤ 4800)) s F.PWR_LIMIT_LIMIT.word (wr s F.PWR_LIMIT_LIMIT limit.toNat))

/-- BIND_GROUPS is in force: a channel is bound (01 R38; DEDUCED, log 37). -/
def bindingHeld (s : State) : Bool := !(boundChannels s).isEmpty

/-- ID_MODULE_WRITE (01 R38). -/
def execIdModuleWrite (valid : Bool) (id : BitVec 10) (s : State) : Host.Outcome State Fault Refusal :=
  .next (allowIf (!bindingHeld s) s F.ID_MODULE_VALID.word
    (wrAll s [(F.ID_MODULE_VALID, b2n valid), (F.ID_MODULE_MODULE_ID, id.toNat)]))

/-- The field that a write of a core's state reaches, and its value. -/
def coreRegFld (c : CoreId) (w : CoreReg) : Fld × Nat :=
  match w with
  | .bt n v => (F.CO_BT_COUNT c n.val, v.toNat)
  | .pa n v => (F.CO_PA_COUNT c n.val, v.toNat)
  | .lap n v => (F.CO_LAP_COUNT c n.val, v.toNat)
  | .abCur n v => (F.CO_AB_CUR_VALUE c n.val, v.toNat)
  | .abBase n v => (F.CO_AB_BASE_VALUE c n.val, v.toNat)

/-- The core's counters and address bases may be written: its STATE is not 1 (04 R132). -/
def coreOpen (s : State) (c : CoreId) : Bool := rd s (F.CO_SEQ_STAT_STATE c) != 1

/-- CORE_STATE_REG_WRITE (04 R132). -/
def execCoreStateRegWrite (c : CoreId) (w : CoreReg) (s : State) : Host.Outcome State Fault Refusal :=
  .next (
    let f := (coreRegFld c w).1
    allowIf (coreOpen s c && !closedWindow s f.word) s f.word (wr (reachCluster s c.cluster) f (coreRegFld c w).2))

/-! Writes by offset. -/

/-- The outcome of another command's meaning as a state. -/
def outState (s : State) (o : Host.Outcome State Fault Refusal) : State :=
  match o with
  | .next t => t
  | _ => s

/-- A field after a write of n bits from bit b of its register on. -/
def mergeField (old lo width b n v : Nat) : Nat :=
  let from_ := max lo b
  let to_ := min (lo + width) (b + n)
  if from_ < to_ then setBits old (from_ - lo) (to_ - from_) (bits v (from_ - b) (to_ - from_)) else old

/-- A field of a register takes a write by its access code (00 R5). -/
def writeField (r : RegAt) (b n v : Nat) (s : State) (d : FldDesc) : State :=
  let f := fldOf r d
  match d.acc with
  | .rw => wr s f (mergeField (rd s f) d.lo d.width b n v)
  | .rws => wr s f (mergeField (rd s f) d.lo d.width b n v)
  | .rw1c => if b ≤ d.lo ∧ d.lo < b + n ∧ bit v (d.lo - b) then wr s f 0 else s
  | _ => s

/-- Every field of a register takes a write by its access code. -/
def writeFields (s : State) (r : RegAt) (b n v : Nat) : State := r.desc.fields.foldl (writeField r b n v) s

/-- A write of FP_CFG (13 R392, R405, R410): RETRAIN acts at any time, the rest by R405. Log 82 (DEDUCED). -/
def writeFpCfg (s : State) (p v off : Nat) : State :=
  let same := bits v 4 4 == rd s (F.FP_CFG_DIM p) && bits v 1 1 == rd s (F.FP_CFG_DATELINE p) && bits v 0 1 == rd s (F.FP_CFG_ENABLE p)
  if badDim (bits v 4 4) || (stepRuns s && !same && !bit v 8) then recordRsvd s off
  else
    let s := if same then s else if stepRuns s then recordRsvd s off else setPortCfg s p (bits v 4 4) (bits v 1 1) (bits v 0 1)
    let s := wr s (F.FP_CFG_RETRAIN p) (bits v 8 1)
    if bit v 8 then startRetrain s p else s

/-- A ring or slot number below 16 or 4,096 from a register's index or field. -/
def fin16 (n : Nat) : Fin 16 := ⟨n % 16, Nat.mod_lt _ (by decide)⟩

/-- A ring index from a field. -/
def fin4096 (n : Nat) : Fin 4096 := ⟨n % 4096, Nat.mod_lt _ (by decide)⟩

/-- A write to a cluster's window reaches the cluster (20 R572). -/
def reachWindow (s : State) (off : Nat) : State :=
  match inCluster off with
  | some (k, _) => reachCluster s (clusterOfKey k)
  | none => s

/-- HDM decoder 0 is committed and locked (15 R449: CXL 3.1's decoder, log 125). -/
def hdmLocked (s : State) : Bool := rdb s F.HC_HDM_DEC_COMMITTED && rdb s F.HC_HDM_DEC_LOCK

/-- The control of HDM decoder 0 has been written: COMMIT maps its range, of at most the 512 GiB of DPA and without interleave. -/
def commitHdm (s : State) : State :=
  let (_, size) := hdmRange s
  if !rdb s F.HC_HDM_DEC_COMMIT then wrAll s [(F.HC_HDM_DEC_COMMITTED, 0), (F.HC_HDM_DEC_ERR, 0)]
  else
    let ok := size != 0 && decide (size ≤ 2 ^ 39) && rd s F.HC_HDM_DEC_IW == 0
    wrAll s [(F.HC_HDM_DEC_COMMITTED, b2n ok), (F.HC_HDM_DEC_ERR, b2n !ok)]

/-- A write of n bits from bit b of a register on: each field by its access code, but for the registers with rules of their own. -/
def writeReg (s : State) (off : Nat) (r : RegAt) (b n v : Nat) : State :=
  if closedWindow s off then recordRsvd s off
  else
    let s := reachWindow s off
    let t := writeFields s r b n v
    let i := r.ix.getD 0 0
    let c := coreOfIx r.ix
    let onlyIf := fun (ok : Bool) => allowIf ok s off t
    match r.desc.reg with
    | .ID_MODULE => onlyIf (!bindingHeld s)
    | .ID_RSVD_WR => if bit v 31 then clearRsvd t else t
    | .CO_FMT_CTL => setFlush s c (v % 2)
    | .CO_FMT_FLAGS => if bit v 31 then clearCoCnt t c else t
    | .UD_FLAGS => if bit v 31 then clearUdCnt t i else t
    | .RR_FLAGS => if bit v 31 then clearRrCnt t else t
    | .CO_BT => onlyIf (coreOpen s c)
    | .CO_PA => onlyIf (coreOpen s c)
    | .CO_LAP => onlyIf (coreOpen s c)
    | .CO_AB_CUR => onlyIf (coreOpen s c)
    | .CO_AB_BASE => onlyIf (coreOpen s c)
    | .SEC_PR_BASE => onlyIf (boundsOpen s i)
    | .SEC_PR_LIMIT => onlyIf (boundsOpen s i)
    | .SEC_PR_CTL => onlyIf (regionOk s i (bits v 1 4) (bit v 0))
    | .FP_CFG => writeFpCfg s i v off
    | .FP_CRED => onlyIf (creditOk s i (r.ix.getD 1 0) (bits v 0 16))
    | .FAB_RT => onlyIf (!stepRuns s)
    | .CMD_SQ_BASE => onlyIf (!ringOn s i)
    | .CMD_CQ_BASE => onlyIf (!ringOn s i)
    | .CMD_SEQ_INIT => onlyIf (!ringOn s i)
    | .CMD_RING_CFG =>
      if bit v 31 then outState s (execRingEnable (fin16 i) (fin4096 v) s) else outState s (execRingDisable (fin16 i) (fin4096 v) s)
    | .CMD_SQ_TAIL => outState s (execSqDoorbell (fin16 i) (fin4096 v) s)
    | .CMD_CQ_HEAD => outState s (execCqHeadWrite (fin16 i) (fin4096 v) s)
    | .EVC_SRC_CFG => outState s (execEvcSrcCfgWrite (fin4096 i) (BitVec.ofNat 32 v) s)
    | .EVC_EOI => outState s (execEvcEoi (fin4096 v) s)
    | .TB_ADJ => { t with tbHalf := false }
    | .PWR_LIMIT => onlyIf (decide (1200 ≤ bits v 0 13 ∧ bits v 0 13 ≤ 4800))
    | .PWR_ALERT => showConds t
    | .HC_HDM_BASE_LO => onlyIf (!hdmLocked s)
    | .HC_HDM_BASE_HI => onlyIf (!hdmLocked s)
    | .HC_HDM_SIZE_LO => onlyIf (!hdmLocked s)
    | .HC_HDM_SIZE_HI => onlyIf (!hdmLocked s)
    | .HC_HDM_SKIP => onlyIf (!hdmLocked s)
    | .HC_HDM_DEC => if hdmLocked s then recordRsvd s off else commitHdm t
    | _ => t

/-- A 4-byte write (01 R31 to R33): of a 32-bit register, or of half of a 64-bit one. -/
def writeWord (s : State) (off v : Nat) : State :=
  match regAt off with
  | none => recordRsvd s off
  | some r => writeReg s off r (8 * (foldFab off - r.off)) 32 v

/-- An access must be 4 or 8 bytes and naturally aligned (01 R31). -/
def accessOk (off size : Nat) : Bool := (size == 4 || size == 8) && off % size == 0

/-- Any other access completes with Unsupported Request. -/
def unsupported (s : State) : State := { s with replies := s.replies ++ [.unsupported] }

/-- BAR0 at an offset is served (19 R555): in RECOVERY and HALT the ID, CMD and SEC blocks, and what the link and its mailbox need. -/
def barServed (s : State) (off : Nat) : Bool :=
  !inRecovery s || decide (off < 0x20000 ∨ (0x50000 ≤ off ∧ off < 0x6C000))

/-- REGISTER_WRITE (01 R31, R33 to R36; 00 R5 to R8): an 8-byte access over two 32-bit registers writes the lower one first. A write that
the starting block does not serve has no effect (19 R555; log 128). -/
def execRegisterWrite (off : BitVec 26) (size : Nat) (value : BitVec 64) (s : State) : Host.Outcome State Fault Refusal :=
  .next (
    let a := off.toNat
    let v := value.toNat
    if !accessOk a size then unsupported s
    else if !barServed s a then s
    else if size = 4 then writeWord s a (v % 2 ^ 32)
    else
      match regAt a, regAt (a + 4) with
      | none, none => recordRsvd s a
      | some r, _ => if r.desc.bits = 64 then writeReg s a r 0 64 v else writeWord (writeWord s a (v % 2 ^ 32)) (a + 4) (v / 2 ^ 32)
      | none, some _ => writeWord (writeWord s a (v % 2 ^ 32)) (a + 4) (v / 2 ^ 32))

/-! Reads. -/

/-- The latched upper half of a register for a requester (01 R32). -/
def latchOf (s : State) (q off : Nat) : Option Nat := (s.latches.find? (fun l => l.1 == q && l.2.1 == off)).map (fun l => l.2.2)

/-- The latch of a requester and register is dropped. -/
def dropLatch (s : State) (q off : Nat) : State := { s with latches := s.latches.filter (fun l => !(l.1 == q && l.2.1 == off)) }

/-- A 4-byte read: its value, and the state with the latch of R32. -/
def readWord (s : State) (q off : Nat) : Nat × State :=
  match regAt off with
  | none => (0, s)
  | some r =>
    let v := regVal s r
    if r.desc.bits = 64 then
      if foldFab off = r.off then (v % 2 ^ 32, { dropLatch s q r.off with latches := (dropLatch s q r.off).latches ++ [(q, r.off, v / 2 ^ 32)] })
      else
        match latchOf s q r.off with
        | some h => (h, dropLatch s q r.off)
        | none => (v / 2 ^ 32, s)
    else (v, s)

/-- REG_LOW_HALF_READ (01 R31 to R33): a read of BAR0, which for the lower half of a 64-bit register latches its upper half for the
requester; what it returns is appended to the read-out. Where the starting block does not serve it, that is a free value (19 R555; log 128). -/
def execRegLowHalfRead (requester : Nat) (off : BitVec 26) (size : Nat) (s : State) : Host.Outcome State Fault Refusal :=
  .next (
    let a := off.toNat
    if !accessOk a size then unsupported s
    else
      let (v, t) : Nat × State :=
        if !barServed s a then drawFree s (8 * size)
        else if size = 4 then readWord s requester a else (regWord s a + regWord s (a + 4) * 2 ^ 32, s)
      { t with readout := t.readout ++ [(a, v)] })

end Sys2Proof.Machine
end

