-- ==== Sys2Proof/Machine/Cache.lean ====
section
/-!
DEFINITION. The operations that the routines of the rollout cache share: the check of a configuration record, tables, removal of mappings,
allocation, eviction, descriptors (08 R232 to R245, R254, R255).
-/

namespace Sys2Proof.Machine

open Sys2Proof

/-! Configuration, 08 R235. -/

/-- Is a configuration record good (08 R235)? Its tables lie in populated HBM and its slow-tier pool outside the firmware areas. -/
def confOk (b : List Byte) : Bool :=
  let k := confOf b
  leAt b 0x3F 1 == 0 && leAt b 0x54 44 == 0
    && decide (1 ≤ k.precs ∧ k.precs ≤ 2097152 ∧ 1 ≤ k.seqs ∧ k.seqs ≤ 4096 ∧ 1 ≤ k.slots ∧ 1 ≤ k.layers ∧ k.layers ≤ 256
        ∧ 1 ≤ k.hgroups ∧ k.hgroups ≤ 16)
    && [k.prec, k.seqBase, k.pool, k.stPool, k.pset, k.tok].all (fun a => a % 4096 == 0) && k.epoch % 64 == 0
    && hbmRange k.prec (16 * k.precs) && hbmRange k.seqBase (32 * k.seqs) && hbmRange k.pool (pageSize * k.slots)
    && (k.psets == 0 || hbmRange k.pset (4 * k.tables * k.psets)) && hbmRange k.tok (1310720 * 512) && hbmRange k.epoch 4
    && (k.stSlots == 0 || ((match regionOf k.stPool with
        | .slow _ _ => true
        | _ => false) && populatedRun k.stPool (pageSize * k.stSlots) && !reachesFirmware k.stPool (pageSize * k.stSlots)))

/-! The module epoch, 08 R244. -/

/-- A cluster reads the epoch word; RC_LOW shows it where no descriptor is unretired (08 R256). -/
def readEpoch (s : State) (k : ClusterId) : Nat × State :=
  let e := epochWord s
  (e, showLow (setCluster s k { cluster s k with lastEpoch := e }) k)

/-- A mapping of a page is removed, its entry changed already (08 R244). -/
def removeMapping (s : State) (p : Nat) : State :=
  let (e, s) := advanceEpoch s
  let s := setStamp s p e
  let n := pageRef s p
  let s := setRef s p (n - 1)
  if n ≤ 1 then
    let out := pageState s p == 4 || pageState s p == 5
    let s := { s with rollout := { s.rollout with outPages := if out then s.rollout.outPages ++ [p] else s.rollout.outPages } }
    showReclaim (setPageState s p 2) (homeCluster (pageHome s p))
  else s

/-! Descriptors, 08 R240, R241, R244. -/

/-- Room for n more descriptors in a core's stream queue. -/
def streamRoom (s : State) (c : CoreId) (n : Nat) : Bool := decide ((core s c).sq.length + n ≤ 1024)

/-- A routine of a cluster emits a descriptor into a core's stream queue. -/
def emit (s : State) (c : CoreId) (e : StreamEntry) : State :=
  let k := c.cluster
  let x := core s c
  let s := setCore s c { x with sq := x.sq ++ [e] }
  let o := F.RC_OUT_COUNT k (e.epoch % 16)
  showLow (bump (wr s o (rd s o + 1)) (F.RC_CNT_COUNT k 8) 1) k

/-- Descriptor of a whole page between slots. -/
def pageCopy (kind page epoch src dst : Nat) : StreamEntry :=
  { desc := [], baton := 0, post := false, pacer := none, epoch := epoch, kind := kind, page := page, runs := [(src, dst, pageSize)] }

/-- A page begins to move to the slow tier (08 R254): a slow-tier slot is taken, the copy emitted. -/
def beginEvict (s : State) (c : CoreId) (p slot : Nat) : State :=
  let (e, s) := readEpoch s c.cluster
  let src := hbmSlot s (pageSlot s p)
  let s := setPageState s p 3
  emit { s with rollout := { s.rollout with evicts := s.rollout.evicts ++ [(p, slot, false)] } } c (pageCopy 1 p e src (stSlot s slot))

/-- An eviction under way is cancelled (08 R255). -/
def cancelEvict (s : State) (p : Nat) : State :=
  setPageState { s with rollout := { s.rollout with evicts := s.rollout.evicts.map (fun e => if e.1 = p then (e.1, e.2.1, true) else e) } } p 1

/-- The LIVE page of a HOME that firmware evicts next (08 R254): the one walked longest ago, the lowest record among equals; a page that no
walk has met comes first (DESIGN CHOICE, log 18). -/
def coldestPage (s : State) (k : ClusterId) : Option Nat :=
  let older := fun (a b : Nat) => match mapFind s.rollout.walked a, mapFind s.rollout.walked b with
    | none, some _ => true
    | some x, some y => decide (serialDiff 32 x y < 0)
    | _, _ => false
  ((pagesIn s [1]).filter (fun p => pageHome s p == homeOf k && !s.rollout.evicts.any (fun e => e.1 == p))).foldl
    (fun (best : Option Nat) p => match best with
      | none => some p
      | some b => if older p b then some p else some b) none

/-- What a routine that needs a free HBM slot finds: a slot; nothing yet, with what it does meanwhile; or a failure by its reason (08 R239). -/
inductive SlotSearch where
  | found (n : Nat)
  | wait (s : State)
  | fail (reason : Nat)
deriving DecidableEq, Repr

/-- Look for a free HBM slot: an eviction under way or a slot that awaits quiet is waited for, else a page of the HOME is evicted. -/
def findHbm (s : State) (c : CoreId) : SlotSearch :=
  match freeHbm s with
  | n :: _ => .found n
  | [] =>
    if s.rollout.evicts.any (fun e => !e.2.2) || s.rollout.quiets != [] || (pagesIn s [2]).any (fun p => pageHome s p == homeOf c.cluster) then
      .wait s
    else
      match coldestPage s c.cluster, freeSt s with
      | some p, t :: _ => if streamRoom s c 1 then .wait (beginEvict s c p t) else .fail 7
      | _, _ => .fail 3

/-! Tables and sequences, 08 R237. -/

/-- Address of a sequence's directory entry. -/
def seqAddr (s : State) (q : Nat) : Nat := (conf s).seqBase + 32 * q

/-- Is a sequence open? -/
def seqOpen (s : State) (q : Nat) : Bool := ldN s (seqAddr s q) 1 == 1

/-- NPAGES of a sequence. -/
def seqPages (s : State) (q : Nat) : Nat := ldN s (seqAddr s q + 4) 4

/-- TABLE_BASE of a sequence. -/
def seqTables (s : State) (q : Nat) : Nat := ldN s (seqAddr s q + 8) 8

/-- CHAIN_LAST of a sequence. -/
def seqChain (s : State) (q : Nat) : Nat := ldN s (seqAddr s q + 0x10) 4

/-- Address of entry i of table t of a sequence. -/
def pteAddr (s : State) (q t i : Nat) : Nat := seqTables s q + (t * seqPages s q + i) * 8

/-- A page-table entry. -/
def pte (s : State) (q t i : Nat) : Nat := ldN s (pteAddr s q t i) 8

/-- An entry written. -/
def setPte (s : State) (q t i v : Nat) : State := stN s (pteAddr s q t i) 8 v

/-- VALID of an entry. -/
def pteValid (v : Nat) : Bool := bit v 0

/-- SEALED of an entry. -/
def pteSealed (v : Nat) : Bool := bit v 1

/-- NTOK of an entry. -/
def pteTok (v : Nat) : Nat := bits v 2 8

/-- PREC of an entry. -/
def ptePage (v : Nat) : Nat := v / 2 ^ 32

/-- An entry that maps a page. -/
def pteOf (page ntok : Nat) (sealed : Bool) : Nat := 1 + 2 * b2n sealed + 4 * ntok + 2 ^ 32 * page

/-! Pages. -/

/-- A newly allocated page (08 R233). -/
def freshPage (page layer hg : Nat) : List Byte :=
  List.replicate 0x40000 0 ++ List.replicate 0x800 0x7C ++ List.replicate 0x200 0
    ++ (natLE 4 page ++ natLE 2 layer ++ natLE 1 hg ++ natLE 1 0 ++ List.replicate 56 0) ++ List.replicate 0x5C0 0

/-- A page is allocated in a record and an HBM slot: LIVE, mapped once, of the cluster's HOME. -/
def allocPage (s : State) (k : ClusterId) (p slot layer hg : Nat) : State :=
  let s := { s with rollout := { s.rollout with walked := mapErase s.rollout.walked p } }
  let s := stBytes s (hbmSlot s slot) (freshPage p layer hg)
  stBytes s (precAddr s p) (natLE 4 1 ++ natLE 4 (pageStamp s p) ++ natLE 1 1 ++ natLE 1 0 ++ natLE 2 (homeOf k) ++ natLE 4 slot)

/-- NTOK of a page's header. -/
def setPageTok (s : State) (slot v : Nat) : State := stN s (hbmSlot s slot + 0x40A07) 1 v

/-- What RC_WRITE moves into a page (08 R246): tokens from one up to another, from a staged page. -/
def writeRuns (src dst from_ to_ : Nat) : List (Nat × Nat × Nat) :=
  if to_ ≤ from_ then []
  else
    let n := to_ - from_
    [(src + 1024 * from_, dst + 1024 * from_, 1024 * n), (src + 0x20000 + 1024 * from_, dst + 0x20000 + 1024 * from_, 1024 * n),
     (src + 0x40000 + 8 * from_, dst + 0x40000 + 8 * from_, 8 * n), (src + 0x40400 + 8 * from_, dst + 0x40400 + 8 * from_, 8 * n),
     (src + 0x40800 + 4 * from_, dst + 0x40800 + 4 * from_, 4 * n)]

/-- What a walk's descriptor moves (08 R240): for each head its keys, their scales, its values, their scales. -/
def walkRuns (src dst first heads : Nat) : List (Nat × Nat × Nat) :=
  (List.range heads).flatMap (fun h =>
    let d := dst + 33024 * h
    let hd := first + h
    (List.range 128).flatMap (fun t =>
      [(src + 1024 * t + 128 * hd, d + 128 * t, 128), (src + 0x40000 + 8 * t + hd, d + 16384 + t, 1),
       (src + 0x20000 + 1024 * t + 128 * hd, d + 16512 + 128 * t, 128), (src + 0x40400 + 8 * t + hd, d + 32896 + t, 1)]))

/-! Copies that have retired. -/

/-- An eviction's copy has retired (08 R254, R255): the page is EVICTED, unless the eviction was cancelled meanwhile. -/
def evictDone (s : State) (p slot : Nat) (cancelled : Bool) : State :=
  let s := { s with rollout := { s.rollout with evicts := s.rollout.evicts.filter (fun e => !(e.1 == p && e.2.1 == slot)) } }
  if cancelled ∨ pageState s p ≠ 3 then s
  else
    let hbm := pageSlot s p
    let home := pageHome s p
    let s := setPageState (setSlot s p slot) p 4
    let (e, s) := advanceEpoch s
    let s := setStamp s p e
    let s := { s with rollout := { s.rollout with quiets := s.rollout.quiets ++ [(hbm, e, home)] } }
    let k := homeCluster home
    bump s (F.RC_CNT_COUNT k 5) 1

/-- A fetch's copy has completed (08 R243). -/
def fetchDone (s : State) (p slot : Nat) : State :=
  let s := { s with rollout := { s.rollout with fetches := s.rollout.fetches.filter (fun f => f.1 != p) } }
  if pageState s p ≠ 5 then s
  else
    let k := homeCluster (pageHome s p)
    bump (setPageState (setSlot s p slot) p 1) (F.RC_CNT_COUNT k 6) 1

end Sys2Proof.Machine
end

