-- ==== Sys2Proof/Machine/Rollout.lean ====
section
/-!
DEFINITION. The routines of the rollout cache, firmware's evictions and the prefix match units (08 R238 to R256).
-/

namespace Sys2Proof.Machine

open Sys2Proof

/-! A routine's run. -/

/-- RC_ERR of a cluster's first failure in the step, and the fault of the requesting core (08 R239). -/
def cacheFail (s : State) (k : ClusterId) (r : CcReq) (op reason : Nat) : State :=
  let s := if rdb s (F.RC_ERR_VALID k) then s
    else wrAll s [(F.RC_ERR_VALID k, 1), (F.RC_ERR_SLOT k, slotNum s r.core), (F.RC_ERR_OP k, op), (F.RC_ERR_REASON k, reason)]
  routineFail s r

/-- Where a cluster's routine stands is forgotten. -/
def clearProgress (s : State) (k : ClusterId) : State :=
  setCluster s k { cluster s k with rtBegun := false, rtPos := 0, rtSub := 0, rtCount := 0, rtEpoch := 0, rtNode := 0xFFFFFFFF }

/-- A cache routine has run. -/
def cacheDone (s : State) (k : ClusterId) (r : CcReq) (result : Nat) : State := routineDone (clearProgress s k) k r result

/-- The fields of an argument block that are reserved (08 R238). Log 39 (DEDUCED). -/
def argReserved (b : List Byte) : Bool :=
  bit (leAt b 9 1) 3 || bit (leAt b 9 1) 7 || leAt b 0xA 1 / 64 != 0 || bits (leAt b 0xB 1) 4 3 != 0 || leAt b 0x28 24 != 0

/-- Run a cache routine of a cluster: nothing happens unless it is at the head of the cluster's requests. The first time quiet pages are
reclaimed (08 R245), the epoch is read and the arguments are judged; then body goes on from where the routine stands. -/
def cacheRoutine (s : State) (k : ClusterId) (op : Nat) (judge : State → List Byte → Option Nat) (body : State → CcReq → List Byte → State) : State :=
  match routineHead s k op with
  | none => s
  | some r =>
    match argBlock s k r with
    | none => cacheFail s k r op 2
    | some b =>
      if (cluster s k).rtBegun then body s r b
      else if op ≠ 1 ∧ s.rollout.conf = [] then cacheFail s k r op 1
      else if leAt b 0 1 ≠ op ∨ argReserved b then cacheFail s k r op 2
      else
        let s := reclaim s k
        match judge s b with
        | some d => cacheFail s k r op d
        | none =>
          let e := if op = 1 then 0 else epochWord s
          let x := cluster s k
          let s := setCluster s k { x with rtBegun := true, rtPos := 0, rtSub := 0, rtCount := 0, rtNode := 0xFFFFFFFF, rtEpoch := e,
                                           lastEpoch := if op = 1 then x.lastEpoch else e }
          body (if op = 1 then s else showLow s k) r b

/-- The argument SEQ names an open sequence (08 R239). -/
def judgeSeq (s : State) (q : Nat) : Option Nat :=
  if (conf s).seqs ≤ q then some 2 else if !seqOpen s q then some 5 else none

/-- SEQ, LAYER, HG, FIRST and COUNT of a routine over pages. -/
def judgePages (s : State) (b : List Byte) : Option Nat :=
  match judgeSeq s (leAt b 4 4) with
  | some d => some d
  | none =>
    if (conf s).layers ≤ leAt b 2 2 ∨ (conf s).hgroups ≤ leAt b 8 1 ∨ seqPages s (leAt b 4 4) < leAt b 0xC 4 + leAt b 0x10 4 then some 2 else none

/-- Table of LAYER and HG. -/
def argTable (s : State) (b : List Byte) : Nat := leAt b 2 2 * (conf s).hgroups + leAt b 8 1

/-- The routine at the head of a cluster's requests moves on. -/
def progress (s : State) (k : ClusterId) (f : ClusterSt → ClusterSt) : State := setCluster s k (f (cluster s k))

/-! RC_INIT, RC_OPEN, RC_FORK. -/

/-- RC_INIT (08 R234, R238, R256): every cache structure of the module is emptied, the record adopted. Of a directory entry only STATE is
written (DEDUCED, log 19). -/
def execRcInit (k : ClusterId) (s : State) : Host.Outcome State Fault Refusal :=
  .next (cacheRoutine s k 1
    (fun s b =>
      let a := leAt b 0x18 8
      if !populatedRun a 128 ∨ !confOk (ldBytes s a 128) then some 2 else none)
    (fun s r b =>
      let rec_ := ldBytes s (leAt b 0x18 8) 128
      let s := { s with rollout := { conf := rec_ }, pageDone := [] }
      let s := stBytes s (conf s).prec (List.replicate (16 * (conf s).precs) 0)
      let s := (List.range (conf s).seqs).foldl (fun t q => stN t (seqAddr t q) 1 0) s
      let s := allClusters.foldl (fun t j =>
        let t := wrAll t [(F.RC_STAT_INIT j, 1), (F.RC_STAT_RECLAIM j, 0), (F.RC_STAT_NODES j, 0)]
        (List.range 9).foldl (fun u n => wr u (F.RC_CNT_COUNT j n) 0) t) s
      cacheDone s k r 0))

/-- A sequence's tables lie in HBM (08 R237). -/
def tablesFit (s : State) (base pages : Nat) : Bool :=
  decide (1 ≤ pages ∧ pages ≤ 4096) && base % 8 == 0 && hbmRange base ((conf s).tables * pages * 8)

/-- A directory entry of an open sequence. -/
def openSeq (s : State) (q pages base chain : Nat) : State :=
  stBytes s (seqAddr s q) (natLE 1 1 ++ natLE 3 0 ++ natLE 4 pages ++ natLE 8 base ++ natLE 4 chain ++ List.replicate 12 0)

/-- RC_OPEN (08 R238, R239). -/
def execRcOpen (k : ClusterId) (s : State) : Host.Outcome State Fault Refusal :=
  .next (cacheRoutine s k 2
    (fun s b =>
      if (conf s).seqs ≤ leAt b 4 4 then some 2
      else if seqOpen s (leAt b 4 4) then some 5
      else if !tablesFit s (leAt b 0x18 8) (leAt b 0x14 4) then some 2 else none)
    (fun s r b =>
      let base := leAt b 0x18 8
      let pages := leAt b 0x14 4
      let s := stBytes s base (List.replicate ((conf s).tables * pages * 8) 0)
      cacheDone (openSeq s (leAt b 4 4) pages base 0xFFFFFFFF) k r 0))

/-- Copy entry i of table t from one sequence to another; none where REFCNT would exceed its range. -/
def forkEntry (s : State) (q target t i : Nat) : Option State :=
  let v := pte s q t i
  let s := setPte s target t i v
  if !pteValid v then some s
  else if 2 ^ 32 - 1 ≤ pageRef s (ptePage v) then none
  else some (setRef s (ptePage v) (pageRef s (ptePage v) + 1))

/-- RC_FORK (08 R238): the target opens with the first COUNT entries of every table of the source; the others are invalid. The operands
give the target neither NPAGES nor TABLE_BASE: its directory entry holds them (DEDUCED, log 19). Its chain is empty. -/
def execRcFork (k : ClusterId) (s : State) : Host.Outcome State Fault Refusal :=
  .next (cacheRoutine s k 3
    (fun s b =>
      let q := leAt b 4 4
      let t := leAt b 0x14 4
      let n := leAt b 0x10 4
      match judgeSeq s q with
      | some d => some d
      | none =>
        if (conf s).seqs ≤ t then some 2
        else if seqOpen s t then some 5
        else if seqPages s q < n ∨ seqPages s t < n ∨ !tablesFit s (seqTables s t) (seqPages s t) then some 2 else none)
    (fun s r b =>
      let q := leAt b 4 4
      let t := leAt b 0x14 4
      let n := leAt b 0x10 4
      let s := stBytes s (seqTables s t) (List.replicate ((conf s).tables * seqPages s t * 8) 0)
      let cells := (List.range (conf s).tables).flatMap (fun h => (List.range n).map (fun i => (h, i)))
      match cells.foldl (fun (acc : State × Bool) e =>
          if acc.2 then acc
          else match forkEntry acc.1 q t e.1 e.2 with
            | some u => (u, false)
            | none => (acc.1, true)) (s, false) with
      | (s, true) => cacheFail s k r 3 8
      | (s, false) => cacheDone (openSeq s t (seqPages s t) (seqTables s t) 0xFFFFFFFF) k r 0))

/-! Bringing a page into HBM. -/

/-- What a walk or write that meets a page finds (08 R243, R255): the page in HBM; a wait, with what was done meanwhile; or a failure. -/
inductive PageReady where
  | live (s : State)
  | wait (s : State)
  | fail (s : State) (reason : Nat)
deriving DecidableEq, Repr

/-- Bring a page into HBM for a routine of core c: an eviction is cancelled, an evicted page fetched. -/
def bringPage (s : State) (c : CoreId) (p : Nat) : PageReady :=
  match pageState s p with
  | 3 => .live (cancelEvict s p)
  | 4 =>
    let s := reclaim s c.cluster
    (match findHbm s c with
      | .found n =>
        if !streamRoom s c 1 then .fail s 7
        else
          let (e, s) := readEpoch s c.cluster
          let src := stSlot s (pageSlot s p)
          let s := setPageState { s with rollout := { s.rollout with fetches := s.rollout.fetches ++ [(p, n)] } } p 5
          .wait (emit s c (pageCopy 2 p e src (hbmSlot s n)))
      | .wait s => .wait s
      | .fail d => .fail s d)
  | 5 => .wait s
  | _ => .live s

/-! RC_WALK. -/

/-- One entry of a walk; the Bool says that the walk may go on to the next. -/
def walkPage (s : State) (k : ClusterId) (r : CcReq) (b : List Byte) : State × Bool :=
  let c := r.core
  let q := leAt b 4 4
  let x := cluster s k
  let n := x.rtPos
  let v := pte s q (argTable s b) (leAt b 0xC 4 + n)
  let skip := fun (t : State) => progress t k (fun y => { y with rtPos := n + 1 })
  if !pteValid v then (skip s, true)
  else
    match bringPage s c (ptePage v) with
    | .wait s => (s, false)
    | .fail s d => (cacheFail s k r 6 d, false)
    | .live s =>
      if !streamRoom s c 1 then (cacheFail s k r 6 7, false)
      else
        let heads := bits (leAt b 9 1) 4 3 + 1
        let ring := leAt b 0x20 2
        let slot := (leAt b 0x22 2 + n) % ring
        let dst := leAt b 0x18 8 + slot * 33024 * heads
        let e : StreamEntry := { desc := [], baton := leAt b 0xA 1 % 64, post := true,
                                 pacer := if bit (leAt b 0xB 1) 7 then some (leAt b 0xB 1 % 16) else none, epoch := x.rtEpoch, kind := 0,
                                 page := ptePage v, runs := walkRuns (hbmSlot s (pageSlot s (ptePage v))) dst (bits (leAt b 9 1) 0 3) heads }
        let s := { s with rollout := { s.rollout with walked := mapPut s.rollout.walked (ptePage v) x.rtEpoch } }
        (progress (skip (emit s c e)) k (fun y => { y with rtCount := y.rtCount + 1 }), true)

/-- A routine goes on, page by page, until it is done or must wait. -/
def pageLoop (one : State → State × Bool) (done : State → Bool) : Nat → State → State
  | 0, s => s
  | n + 1, s => if done s then s else let (t, go) := one s; if go then pageLoop one done n t else t

/-- RC_WALK (08 R240 to R243). -/
def execRcWalk (k : ClusterId) (s : State) : Host.Outcome State Fault Refusal :=
  .next (cacheRoutine s k 6
    (fun s b =>
      match judgePages s b with
      | some d => some d
      | none =>
        if 8 < bits (leAt b 9 1) 0 3 + bits (leAt b 9 1) 4 3 + 1 ∨ leAt b 0x20 2 = 0 ∨ leAt b 0x20 2 ≤ leAt b 0x22 2 then some 2 else none)
    (fun s r b =>
      let n := leAt b 0x10 4
      let s := pageLoop (fun t => walkPage t k r b) (fun t => decide (n ≤ (cluster t k).rtPos) || !(cluster t k).rtBegun) n s
      let x := cluster s k
      if s.run.isSome && x.rtBegun && decide (n ≤ x.rtPos) then cacheDone s k r x.rtCount else s))

/-! RC_WRITE. -/

/-- The write of one page into a slot, and what the routine keeps of it (08 R246). -/
def writeInto (s : State) (k : ClusterId) (r : CcReq) (b : List Byte) (p from_ : Nat) : State :=
  let q := leAt b 4 4
  let n := (cluster s k).rtPos
  let to_ := leAt b 0x14 4
  let slot := pageSlot s p
  let (e, s) := readEpoch s k
  let runs := writeRuns (leAt b 0x18 8 + pageSize * n) (hbmSlot s slot) from_ to_
  let s := emit s r.core { desc := [], baton := 0, post := false, pacer := none, epoch := e, kind := 0, page := p, runs := runs }
  let s := setPageTok (setPte s q (argTable s b) (leAt b 0xC 4 + n) (pteOf p to_ false)) slot to_
  progress s k (fun y => { y with rtPos := n + 1, rtCount := y.rtCount + 1 })

/-- The copy of a shared page into a new one, before the write (08 R246). -/
def copyOnWrite (s : State) (k : ClusterId) (r : CcReq) (b : List Byte) (p q0 slot : Nat) : State :=
  let s := allocPage s k q0 slot (leAt b 2 2) (leAt b 8 1)
  let (e, s) := readEpoch s k
  let src := hbmSlot s (pageSlot s p)
  let s := emit s r.core { desc := [], baton := 0, post := false, pacer := none, epoch := e, kind := 3, page := q0,
                           runs := [(src, hbmSlot s slot, 0x40A00)] }
  let v := pte s (leAt b 4 4) (argTable s b) (leAt b 0xC 4 + (cluster s k).rtPos)
  let s := setPte s (leAt b 4 4) (argTable s b) (leAt b 0xC 4 + (cluster s k).rtPos) (pteOf q0 (pteTok v) false)
  let s := setRef s p (pageRef s p - 1)
  let (old, s) := advanceEpoch s
  let s := progress s k (fun y => { y with rtCount := y.rtCount + 1 })
  bump (setStamp s p old) (F.RC_CNT_COUNT k 4) 1

/-- One page of a write; the Bool says that the routine may go on. -/
def writePage (s : State) (k : ClusterId) (r : CcReq) (b : List Byte) : State × Bool :=
  let c := r.core
  let v := pte s (leAt b 4 4) (argTable s b) (leAt b 0xC 4 + (cluster s k).rtPos)
  let fresh := fun (t : State) (room : Nat) (use : State → Nat → Nat → State × Bool) =>
    match pagesIn t [0], findHbm t c with
    | [], _ => (cacheFail t k r 4 4, false)
    | p :: _, .found n => if streamRoom t c room then use t p n else (cacheFail t k r 4 7, false)
    | _, .wait u => (u, false)
    | _, .fail d => (cacheFail t k r 4 d, false)
  if !pteValid v then
    fresh s 1 (fun t p n => (writeInto (allocPage t k p n (leAt b 2 2) (leAt b 8 1)) k r b p 0, true))
  else if pteSealed v ∨ leAt b 0x14 4 < pteTok v then (cacheFail s k r 4 6, false)
  else
    match bringPage s c (ptePage v) with
    | .wait s => (s, false)
    | .fail s d => (cacheFail s k r 4 d, false)
    | .live s =>
      let p := ptePage v
      if pageRef s p ≤ 1 then
        if !quietAt s (pageStamp s p) then (s, false)
        else if !streamRoom s c 1 then (cacheFail s k r 4 7, false)
        else (writeInto s k r b p (pteTok v), true)
      else if !mayAdvance s then (s, false)
      else fresh s 2 (fun t q0 n => (writeInto (copyOnWrite t k r b p q0 n) k r b q0 (pteTok v), true))

/-- RC_WRITE (08 R246). -/
def execRcWrite (k : ClusterId) (s : State) : Host.Outcome State Fault Refusal :=
  .next (cacheRoutine s k 4
    (fun s b =>
      match judgePages s b with
      | some d => some d
      | none => if leAt b 0x14 4 = 0 ∨ 128 < leAt b 0x14 4 then some 2 else none)
    (fun s r b =>
      let n := leAt b 0x10 4
      let s := pageLoop (fun t => writePage (reclaim t k) k r b) (fun t => decide (n ≤ (cluster t k).rtPos) || !(cluster t k).rtBegun) n s
      let x := cluster s k
      if s.run.isSome && x.rtBegun && decide (n ≤ x.rtPos) then cacheDone s k r x.rtCount else s))

/-! RC_EVICT. -/

/-- One page of an eviction by request (08 R254, R255). -/
def evictPage (s : State) (k : ClusterId) (r : CcReq) (b : List Byte) : State × Bool :=
  let n := (cluster s k).rtPos
  let v := pte s (leAt b 4 4) (argTable s b) (leAt b 0xC 4 + n)
  let on := fun (t : State) => progress t k (fun y => { y with rtPos := n + 1 })
  if !pteValid v ∨ pageState s (ptePage v) ≠ 1 ∨ (conf s).stSlots = 0 then (on s, true)
  else
    match freeSt s with
    | [] => (cacheFail s k r 7 3, false)
    | t :: _ => if streamRoom s r.core 1 then (on (beginEvict s r.core (ptePage v) t), true) else (cacheFail s k r 7 7, false)

/-- RC_EVICT (08 R254). ST_SLOTS 0 disables it. -/
def execRcEvict (k : ClusterId) (s : State) : Host.Outcome State Fault Refusal :=
  .next (cacheRoutine s k 7 judgePages (fun s r b =>
    let n := leAt b 0x10 4
    let s := pageLoop (fun t => evictPage t k r b) (fun t => decide (n ≤ (cluster t k).rtPos) || !(cluster t k).rtBegun) n s
    let x := cluster s k
    if s.run.isSome && x.rtBegun && decide (n ≤ x.rtPos) then cacheDone s k r 0 else s))

/-! The prefix tree, 08 R248 to R253. -/

/-- The fields of a node's record. -/
structure PNode where
  key    : Nat
  parent : Nat
  pset   : Nat
  ref    : Nat
deriving DecidableEq, Repr

/-- The node that 32 bytes spell (08 R249). -/
def nodeOf (b : List Byte) : PNode := ⟨leAt b 0 8, leAt b 8 4, leAt b 0xC 4, leAt b 0x10 4⟩

/-- The 32-byte record of a node (08 R249). -/
def nodeRecord (n : PNode) : List Byte := natLE 8 n.key ++ natLE 4 n.parent ++ natLE 4 n.pset ++ natLE 4 n.ref ++ List.replicate 12 0

/-- The node of a global index. -/
def nodeAt (s : State) (g : Nat) : Option PNode := (mapFind s.rollout.nodes g).map nodeOf

/-- A node's record is written. -/
def putNode (s : State) (g : Nat) (n : PNode) : State :=
  { s with rollout := { s.rollout with nodes := mapPut s.rollout.nodes g (nodeRecord n) } }

/-- The key of a token page after its parent's key (08 R248). -/
def pageKey (parent : Nat) (toks : List Nat) : Nat :=
  ((toks.mapIdx (fun i t => (i, t))).foldl (fun h e => mix64 ((h ^^^ e.2) ^^^ (e.1 * 2 ^ 32))) parent)

/-- The unit of a key, counted in die and cluster order (08 R249). -/
def keyUnit (key : Nat) : Nat := key / 2 ^ 32 * 80 / 2 ^ 32

/-- The cluster whose prefix match unit has a number. -/
def unitOfPmu (u : Nat) : ClusterId := (coreOfKey (u % 80 * 9)).cluster

/-- Global index of the first way of a key's bucket. -/
def bucketBase (key : Nat) : Nat := keyUnit key * 16384 + key % 4096 * 4

/-- The token identifiers of a node (08 R249). -/
def nodeToks (s : State) (g : Nat) : List Byte := ldBytes s ((conf s).tok + 512 * g) 512

/-- Address of a page set. -/
def psetAddr (s : State) (p : Nat) : Nat := (conf s).pset + 4 * (conf s).tables * p

/-- NODES of a unit. -/
def showNodes (s : State) (u : Nat) : State :=
  wr s (F.RC_STAT_NODES (unitOfPmu u)) ((s.rollout.nodes.filter (fun (e : Nat × List Byte) => e.1 / 16384 == u)).length)

/-- A node with its way free of it. Log 109 (DEDUCED). -/
def dropNode (s : State) (g : Nat) : State :=
  let s := stBytes { s with rollout := { s.rollout with nodes := mapErase s.rollout.nodes g } } ((conf s).tok + 512 * g) (List.replicate 512 0)
  showNodes s (g / 16384)

/-- A sequence leaves a node: REF falls, and a node that no chain includes is removed (08 R253); its unit has served an operation. -/
def releaseNode (s : State) (g : Nat) : State :=
  match nodeAt s g with
  | none => s
  | some n =>
    let s := bump s (F.RC_CNT_COUNT (unitOfPmu (g / 16384)) 0) 1
    if n.ref ≤ 1 then dropNode s g else putNode s g { n with ref := n.ref - 1 }

/-- The nodes of a chain from its last back to the root; the fuel is more than a chain can hold. -/
def chainNodes (s : State) : Nat → Nat → List Nat
  | 0, _ => []
  | n + 1, g =>
    match nodeAt s g with
    | none => []
    | some x => g :: chainNodes s n x.parent

/-- Nodes of a module at most. -/
def maxNodes : Nat := 1310720

/-- The key of a position of a seal's run (08 R248). -/
def sealKey (s : State) (addr : Nat) : Nat → Nat
  | 0 => pageKey 0 ((List.range 128).map (fun i => ldN s (addr + 4 * i) 4))
  | n + 1 => pageKey (sealKey s addr n) ((List.range 128).map (fun i => ldN s (addr + 512 * (n + 1) + 4 * i) 4))

/-- The own page of a position, where it is one (08 R251). -/
def ownPage (s : State) (b : List Byte) (j : Nat) : Option Nat :=
  let first := leAt b 0x14 4
  if first ≤ j ∧ j < first + seqPages s (leAt b 4 4) then some (j - first) else none

/-- Mark a page of the sequence SEALED in every table where it is valid. -/
def sealPage (s : State) (q i : Nat) : State :=
  (List.range (conf s).tables).foldl (fun t h =>
    let v := pte t q h i
    if pteValid v then setPte t q h i (setBits v 1 1 1) else t) s

/-- The free page sets. -/
def freePsets (s : State) : List Nat :=
  (List.range (conf s).psets).filter (fun p => !s.rollout.nodes.any (fun (e : Nat × List Byte) => (nodeOf e.2).pset == p))

/-- A seal goes on to the next position with a node as the last. -/
def sealNext (s : State) (k : ClusterId) (g : Nat) : State := progress s k (fun y => { y with rtPos := y.rtPos + 1, rtSub := 0, rtNode := g })

/-- A position of a seal is over: an own page is marked SEALED. -/
def sealOver (s : State) (k : ClusterId) (b : List Byte) (g : Nat) : State :=
  let j := (cluster s k).rtPos
  sealNext (match ownPage s b j with
    | some i => sealPage s (leAt b 4 4) i
    | none => s) k g

/-- The node operation of a seal's next position (08 R250, R251, R253): match, insert, or the end of the chain. -/
def sealNode (s : State) (k : ClusterId) (r : CcReq) (b : List Byte) : State :=
  let x := cluster s k
  let j := x.rtPos
  let q := leAt b 4 4
  let addr := leAt b 0x18 8
  let key := sealKey s addr j
  let toks := ldBytes s (addr + 512 * j) 512
  let base := bucketBase key
  let u := unitOfPmu (keyUnit key)
  let ways := (List.range 4).map (fun w => base + w)
  let same := ways.filter (fun g => (nodeAt s g).any (fun n => n.key == key))
  let s := bump s (F.RC_CNT_COUNT u 0) 1
  let s := bump s (F.RC_CNT_COUNT u 2) (same.filter (fun g => nodeToks s g != toks)).length
  let hit := same.find? (fun g => nodeToks s g == toks && (nodeAt s g).any (fun n => n.parent == x.rtNode))
  let own := ownPage s b j
  match hit with
  | some g =>
    let deep := decide ((chainNodes s maxNodes (seqChain s q)).length ≤ j)
    match nodeAt s g with
    | none => s
    | some n =>
      let s := if deep then putNode s g { n with ref := n.ref + 1 } else s
      if own.isSome && n.pset != 0xFFFFFFFF then progress s k (fun y => { y with rtSub := 1, rtNode := g })
      else sealOver s k b g
  | none =>
    match ways.find? (fun g => (mapFind s.rollout.nodes g).isNone) with
    | none => progress (bump s (F.RC_CNT_COUNT u 3) 1) k (fun y => { y with rtPos := leAt b 0x10 4, rtSub := 0 })
    | some g =>
      let put := fun (t : State) (ps : Nat) =>
        let t := stBytes (putNode t g ⟨key, x.rtNode, ps, 1⟩) ((conf t).tok + 512 * g) toks
        sealOver (showNodes t (g / 16384)) k b g
      match own with
      | none => put s 0xFFFFFFFF
      | some i =>
        match freePsets s with
        | [] => cacheFail s k r 5 4
        | p :: _ =>
          let recs := (List.range (conf s).tables).flatMap (fun h =>
            let v := pte s q h i
            natLE 4 (if pteValid v then ptePage v else 0xFFFFFFFF))
          put (stBytes s (psetAddr s p) recs) p

/-- One table of a merge (08 R251): the entry is mapped to the node's page, its former page removed. -/
def mergeEntry (s : State) (k : ClusterId) (r : CcReq) (b : List Byte) : State × Bool :=
  let x := cluster s k
  let q := leAt b 4 4
  let h := x.rtSub - 1
  let next := fun (t : State) => progress t k (fun y => { y with rtSub := y.rtSub + 1 })
  match ownPage s b x.rtPos, nodeAt s x.rtNode with
  | some i, some n =>
    if (conf s).tables ≤ h then (sealOver s k b x.rtNode, true)
    else
      let v := pte s q h i
      let p := ldN s (psetAddr s n.pset + 4 * h) 4
      if !pteValid v ∨ ptePage v = p ∨ p = 0xFFFFFFFF then (next s, true)
      else if !mayAdvance s then (s, false)
      else if 2 ^ 32 - 1 ≤ pageRef s p then (cacheFail s k r 5 8, false)
      else
        let s := setPte (setRef s p (pageRef s p + 1)) q h i (pteOf p (pteTok v) true)
        let s := bump (removeMapping s (ptePage v)) (F.RC_CNT_COUNT k 1) 1
        (progress (next s) k (fun y => { y with rtCount := y.rtCount + 1 }), true)
  | _, _ => (sealOver s k b x.rtNode, true)

/-- RC_SEAL (08 R248 to R253): its node operations are commands of their own; a merge goes on table by table; at the end CHAIN_LAST is the
last node matched or inserted. -/
def execRcSeal (k : ClusterId) (s : State) : Host.Outcome State Fault Refusal :=
  .next (cacheRoutine s k 5
    (fun s b =>
      match judgeSeq s (leAt b 4 4) with
      | some d => some d
      | none => if leAt b 0x10 4 = 0 ∨ leAt b 0x10 4 % 2 ^ 32 > maxNodes ∨ !populatedRun (leAt b 0x18 8) (512 * leAt b 0x10 4) then some 2 else none)
    (fun s r b =>
      let s := pageLoop (fun t => mergeEntry t k r b) (fun t => (cluster t k).rtSub == 0 || !(cluster t k).rtBegun) ((conf s).tables + 1) s
      let x := cluster s k
      if s.run.isSome && x.rtBegun && x.rtSub == 0 && decide (leAt b 0x10 4 ≤ x.rtPos) then
        let s := if x.rtNode = 0xFFFFFFFF then s else stN s (seqAddr s (leAt b 4 4) + 0x10) 4 x.rtNode
        cacheDone s k r x.rtCount
      else s))

/-- PREFIX_NODE_OP (08 R249 to R251, R253): the prefix match unit of the next position serves the seal of a cluster. -/
def execPrefixNodeOp (k : ClusterId) (s : State) : Host.Outcome State Fault Refusal :=
  .next (match routineHead s k 5 with
    | none => s
    | some r =>
      match argBlock s k r with
      | none => s
      | some b =>
        let x := cluster s k
        if !x.rtBegun || x.rtSub != 0 || decide (leAt b 0x10 4 ≤ x.rtPos) then s else sealNode s k r b)

/-! RC_FREE. -/

/-- One entry of RC_FREE, in increasing table order (08 R247). -/
def freeEntry (s : State) (k : ClusterId) (b : List Byte) : State × Bool :=
  let q := leAt b 4 4
  let x := cluster s k
  let t := x.rtPos / seqPages s q
  let i := x.rtPos % seqPages s q
  let v := pte s q t i
  let on := fun (u : State) => progress u k (fun y => { y with rtPos := y.rtPos + 1 })
  if !pteValid v then (on s, true)
  else if !mayAdvance s then (s, false)
  else (on (removeMapping (setPte s q t i 0) (ptePage v)), true)

/-- RC_FREE (08 R247, R253). -/
def execRcFree (k : ClusterId) (s : State) : Host.Outcome State Fault Refusal :=
  .next (cacheRoutine s k 8 (fun s b => judgeSeq s (leAt b 4 4)) (fun s r b =>
    let q := leAt b 4 4
    let n := (conf s).tables * seqPages s q
    let s := pageLoop (fun t => freeEntry t k b) (fun t => decide (n ≤ (cluster t k).rtPos)) n s
    if decide (n ≤ (cluster s k).rtPos) then
      let s := (chainNodes s maxNodes (seqChain s q)).foldl releaseNode s
      cacheDone (stN (stN s (seqAddr s q) 1 0) (seqAddr s q + 0x10) 4 0xFFFFFFFF) k r 0
    else s))

/-! Firmware's own work. -/

/-- The core of a cluster whose stream queue firmware's eviction uses: that of the lowest slot whose core runs (DESIGN CHOICE, log 18; by
slot, so that a remap changes nothing, 01 R23). -/
def evictCore (s : State) (k : ClusterId) : Option CoreId :=
  ((List.finRange 8).filterMap (fun j => slotCore s ⟨k.die, k.cl, j⟩)).find? (fun c => running s c && streamRoom s c 1)

/-- LOW_WATER_EVICT (08 R254): free HBM slots are below LOW_WATER, and the control core of a cluster evicts a LIVE page of its HOME. -/
def execLowWaterEvict (k : ClusterId) (s : State) : Host.Outcome State Fault Refusal :=
  .next (
    if s.rollout.conf = [] ∨ replaying s ∨ (conf s).low ≤ (freeHbm s).length then s
    else
      match coldestPage s k, freeSt s, evictCore s k with
      | some p, t :: _, some c => beginEvict s c p t
      | _, _, _ => s)

/-- EVICTION_COPY_DONE (08 R254, R255): the oldest eviction copy that has retired; the removal it makes waits where the epoch may not
advance. -/
def execEvictionCopyDone (s : State) : Host.Outcome State Fault Refusal :=
  .next (match s.pageDone.find? (fun d => d.1 == 1) with
    | none => s
    | some d =>
      match s.rollout.evicts.find? (fun e => e.1 == d.2) with
      | none => { s with pageDone := s.pageDone.erase d }
      | some (p, slot, cancelled) =>
        if !cancelled && pageState s p == 3 && !mayAdvance s then s
        else evictDone { s with pageDone := s.pageDone.erase d } p slot cancelled)

/-- PAGE_FETCH_DONE (08 R243): the oldest fetch copy that has completed. -/
def execPageFetchDone (s : State) : Host.Outcome State Fault Refusal :=
  .next (match s.pageDone.find? (fun d => d.1 == 2) with
    | none => s
    | some d =>
      match s.rollout.fetches.find? (fun f => f.1 == d.2) with
      | none => { s with pageDone := s.pageDone.erase d }
      | some (p, slot) => fetchDone { s with pageDone := s.pageDone.erase d } p slot)

/-- PAGE_RECLAIM (08 R245): a control core reclaims at the start of a routine, and at a step boundary. -/
def execPageReclaim (k : ClusterId) (s : State) : Host.Outcome State Fault Refusal :=
  .next (if s.run.isNone || (!(cluster s k).rtBegun && !(cluster s k).ccq.isEmpty) then reclaim s k else s)

end Sys2Proof.Machine
end

