-- ==== Sys2Proof/Machine/Dispatch.lean ====
section
/-!
DEFINITION. The meaning of each command, one arm per row of the command table: exec acts on everything but the queue.
-/

namespace Sys2Proof.Machine

open Sys2Proof

def exec (i : Instr) (s : State) : Host.Outcome State Fault Refusal :=
  match i with
  | .instructionDispatch c => Sys2Proof.Machine.execInstructionDispatch c s
  | .nop c => Sys2Proof.Machine.execNop c s
  | .wait c => Sys2Proof.Machine.execWait c s
  | .sync c => Sys2Proof.Machine.execSync c s
  | .jump c => Sys2Proof.Machine.execJump c s
  | .lapSet c => Sys2Proof.Machine.execLapSet c s
  | .loop c => Sys2Proof.Machine.execLoop c s
  | .abSet c => Sys2Proof.Machine.execAbSet c s
  | .abAdd c => Sys2Proof.Machine.execAbAdd c s
  | .hurdleArrive c => Sys2Proof.Machine.execHurdleArrive c s
  | .hurdleWait c => Sys2Proof.Machine.execHurdleWait c s
  | .hurdleArriveWait c => Sys2Proof.Machine.execHurdleArriveWait c s
  | .split c => Sys2Proof.Machine.execSplit c s
  | .callCc c => Sys2Proof.Machine.execCallCc c s
  | .callCcComplete k w ds => Sys2Proof.Machine.execCallCcComplete k w ds s
  | .endStep c => Sys2Proof.Machine.execEndStep c s
  | .batonPost x bt n => Sys2Proof.Machine.execBatonPost x bt n s
  | .pacerReturn x pa n => Sys2Proof.Machine.execPacerReturn x pa n s
  | .stallTimeout c eng => Sys2Proof.Machine.execStallTimeout c eng s
  | .mac c err => Sys2Proof.Machine.execMac c err s
  | .macDepthwise c err => Sys2Proof.Machine.execMacDepthwise c err s
  | .macRetire c => Sys2Proof.Machine.execMacRetire c s
  | .passVerified c => Sys2Proof.Machine.execPassVerified c s
  | .passMismatch c kind => Sys2Proof.Machine.execPassMismatch c kind s
  | .refeedDone c => Sys2Proof.Machine.execRefeedDone c s
  | .emit c => Sys2Proof.Machine.execEmit c s
  | .emitTokenEnter c => Sys2Proof.Machine.execEmitTokenEnter c s
  | .tbCfg c => Sys2Proof.Machine.execTbCfg c s
  | .vx c err => Sys2Proof.Machine.execVx c err s
  | .vxRetire c k => Sys2Proof.Machine.execVxRetire c k s
  | .chCfg c => Sys2Proof.Machine.execChCfg c s
  | .chConst c => Sys2Proof.Machine.execChConst c s
  | .cxBuild c err => Sys2Proof.Machine.execCxBuild c err s
  | .cxLoad c err => Sys2Proof.Machine.execCxLoad c err s
  | .cxRelease c => Sys2Proof.Machine.execCxRelease c s
  | .cxPack c => Sys2Proof.Machine.execCxPack c s
  | .slotDrained k n => Sys2Proof.Machine.execSlotDrained k n s
  | .packBlock c misses => Sys2Proof.Machine.execPackBlock c misses s
  | .expandBlock c misses err => Sys2Proof.Machine.execExpandBlock c misses err s
  | .expandDrain c => Sys2Proof.Machine.execExpandDrain c s
  | .dxMove c err => Sys2Proof.Machine.execDxMove c err s
  | .dxGather c err => Sys2Proof.Machine.execDxGather c err s
  | .dxWindow c err => Sys2Proof.Machine.execDxWindow c err s
  | .lpack c err => Sys2Proof.Machine.execLpack c err s
  | .lexpand c err => Sys2Proof.Machine.execLexpand c err s
  | .lcopy c err => Sys2Proof.Machine.execLcopy c err s
  | .fmEnc c err => Sys2Proof.Machine.execFmEnc c err s
  | .fmDec c err => Sys2Proof.Machine.execFmDec c err s
  | .earlyRead c => Sys2Proof.Machine.execEarlyRead c s
  | .streamDescriptorTake c err => Sys2Proof.Machine.execStreamDescriptorTake c err s
  | .descriptorRetire c stream => Sys2Proof.Machine.execDescriptorRetire c stream s
  | .messageDeliver j => Sys2Proof.Machine.execMessageDeliver j s
  | .hurdleFlitReceive => Sys2Proof.Machine.execHurdleFlitReceive s
  | .hurdlePass h => Sys2Proof.Machine.execHurdlePass h s
  | .stepAbortReceive => Sys2Proof.Machine.execStepAbortReceive s
  | .spareCopyDone k => Sys2Proof.Machine.execSpareCopyDone k s
  | .nopCmd r seq => Sys2Proof.Machine.execNopCmd r seq s
  | .echo r seq => Sys2Proof.Machine.execEcho r seq s
  | .queryVersion r seq => Sys2Proof.Machine.execQueryVersion r seq s
  | .loadProgram r seq image => Sys2Proof.Machine.execLoadProgram r seq image s
  | .bindGroups r seq record => Sys2Proof.Machine.execBindGroups r seq record s
  | .setTablePair r seq tables => Sys2Proof.Machine.execSetTablePair r seq tables s
  | .setTableUpdate r seq job group curve tensor => Sys2Proof.Machine.execSetTableUpdate r seq job group curve tensor s
  | .setScales r seq data => Sys2Proof.Machine.execSetScales r seq data s
  | .runStep r seq => Sys2Proof.Machine.execRunStep r seq s
  | .runProgram r seq => Sys2Proof.Machine.execRunProgram r seq s
  | .commitStep r seq => Sys2Proof.Machine.execCommitStep r seq s
  | .stepCommit => Sys2Proof.Machine.execStepCommit s
  | .commitMessageReceive => Sys2Proof.Machine.execCommitMessageReceive s
  | .commitRoundEnd => Sys2Proof.Machine.execCommitRoundEnd s
  | .commitLimit => Sys2Proof.Machine.execCommitLimit s
  | .copyIn r seq data => Sys2Proof.Machine.execCopyIn r seq data s
  | .copyOut r seq err => Sys2Proof.Machine.execCopyOut r seq err s
  | .checkpointMap r seq => Sys2Proof.Machine.execCheckpointMap r seq s
  | .readState r seq => Sys2Proof.Machine.execReadState r seq s
  | .readJournal r seq => Sys2Proof.Machine.execReadJournal r seq s
  | .retirePart r seq lost => Sys2Proof.Machine.execRetirePart r seq lost s
  | .repairPart r seq => Sys2Proof.Machine.execRepairPart r seq s
  | .resetPart r seq lost => Sys2Proof.Machine.execResetPart r seq lost s
  | .partActionDone u pass lanes mods => Sys2Proof.Machine.execPartActionDone u pass lanes mods s
  | .fwStage r seq image => Sys2Proof.Machine.execFwStage r seq image s
  | .fwActivate r seq fail => Sys2Proof.Machine.execFwActivate r seq fail s
  | .flashingDone => Sys2Proof.Machine.execFlashingDone s
  | .attest r seq => Sys2Proof.Machine.execAttest r seq s
  | .getCert r seq => Sys2Proof.Machine.execGetCert r seq s
  | .signatureDone => Sys2Proof.Machine.execSignatureDone s
  | .fwRecoverBegin via req => Sys2Proof.Machine.execFwRecoverBegin via req s
  | .fwRecoverData via req => Sys2Proof.Machine.execFwRecoverData via req s
  | .fwRecoverEnd via req => Sys2Proof.Machine.execFwRecoverEnd via req s
  | .sqDoorbell r tail => Sys2Proof.Machine.execSqDoorbell r tail s
  | .entryTake r entry => Sys2Proof.Machine.execEntryTake r entry s
  | .completionWrite r => Sys2Proof.Machine.execCompletionWrite r s
  | .cqHeadWrite r head => Sys2Proof.Machine.execCqHeadWrite r head s
  | .ringEnable r size => Sys2Proof.Machine.execRingEnable r size s
  | .ringDisable r size => Sys2Proof.Machine.execRingDisable r size s
  | .marshalRestart => Sys2Proof.Machine.execMarshalRestart s
  | .rrArm k err => Sys2Proof.Machine.execRrArm k err s
  | .relayStreamSend gather err => Sys2Proof.Machine.execRelayStreamSend gather err s
  | .relayRecordProcess n k err => Sys2Proof.Machine.execRelayRecordProcess n k err s
  | .relayReleaseReceive j => Sys2Proof.Machine.execRelayReleaseReceive j s
  | .gatherRecordWrite n k err => Sys2Proof.Machine.execGatherRecordWrite n k err s
  | .chainSumsReceive j => Sys2Proof.Machine.execChainSumsReceive j s
  | .unitTake m err => Sys2Proof.Machine.execUnitTake m err s
  | .statisticsPass m => Sys2Proof.Machine.execStatisticsPass m s
  | .normPass => Sys2Proof.Machine.execNormPass s
  | .updatePass m err => Sys2Proof.Machine.execUpdatePass m err s
  | .rcInit k => Sys2Proof.Machine.execRcInit k s
  | .rcOpen k => Sys2Proof.Machine.execRcOpen k s
  | .rcFork k => Sys2Proof.Machine.execRcFork k s
  | .rcWrite k => Sys2Proof.Machine.execRcWrite k s
  | .rcSeal k => Sys2Proof.Machine.execRcSeal k s
  | .rcWalk k => Sys2Proof.Machine.execRcWalk k s
  | .rcEvict k => Sys2Proof.Machine.execRcEvict k s
  | .rcFree k => Sys2Proof.Machine.execRcFree k s
  | .lowWaterEvict k => Sys2Proof.Machine.execLowWaterEvict k s
  | .evictionCopyDone => Sys2Proof.Machine.execEvictionCopyDone s
  | .pageFetchDone => Sys2Proof.Machine.execPageFetchDone s
  | .pageReclaim k => Sys2Proof.Machine.execPageReclaim k s
  | .prefixNodeOp k => Sys2Proof.Machine.execPrefixNodeOp k s
  | .patrolScrub a row err => Sys2Proof.Machine.execPatrolScrub a row err s
  | .softPpr u row => Sys2Proof.Machine.execSoftPpr u row s
  | .pcRetireRemap n bad => Sys2Proof.Machine.execPcRetireRemap n bad s
  | .panelLaneFail link m receive => Sys2Proof.Machine.execPanelLaneFail link m receive s
  | .flitTime p => Sys2Proof.Machine.execFlitTime p s
  | .flitReceive p raw => Sys2Proof.Machine.execFlitReceive p raw s
  | .nakReceive p raw => Sys2Proof.Machine.execNakReceive p raw s
  | .ackTimeout p => Sys2Proof.Machine.execAckTimeout p s
  | .holdReceive p raw => Sys2Proof.Machine.execHoldReceive p raw s
  | .holdExpiry p => Sys2Proof.Machine.execHoldExpiry p s
  | .identSend p => Sys2Proof.Machine.execIdentSend p s
  | .identReceive p raw => Sys2Proof.Machine.execIdentReceive p raw s
  | .controlRetire p raw => Sys2Proof.Machine.execControlRetire p raw s
  | .portDetect p partner => Sys2Proof.Machine.execPortDetect p partner s
  | .portTrainDone p lanes rtt conf => Sys2Proof.Machine.execPortTrainDone p lanes rtt conf s
  | .portRetrain p cause => Sys2Proof.Machine.execPortRetrain p cause s
  | .retrainDone link lanes => Sys2Proof.Machine.execRetrainDone link lanes s
  | .laneLossOfLock p lane => Sys2Proof.Machine.execLaneLossOfLock p lane s
  | .featuresReceive => Sys2Proof.Machine.execFeaturesReceive s
  | .replayStart => Sys2Proof.Machine.execReplayStart s
  | .replayStopReceive => Sys2Proof.Machine.execReplayStopReceive s
  | .stoppedReceive => Sys2Proof.Machine.execStoppedReceive s
  | .stoppedRoundsEnd => Sys2Proof.Machine.execStoppedRoundsEnd s
  | .drainReceive => Sys2Proof.Machine.execDrainReceive s
  | .drainSetEnd => Sys2Proof.Machine.execDrainSetEnd s
  | .restoreEnd => Sys2Proof.Machine.execRestoreEnd s
  | .configRequestRetry => Sys2Proof.Machine.execConfigRequestRetry s
  | .cxlMemRead line err => Sys2Proof.Machine.execCxlMemRead line err s
  | .cxlMemWrite line data => Sys2Proof.Machine.execCxlMemWrite line data s
  | .h2dSnoop addr => Sys2Proof.Machine.execH2dSnoop addr s
  | .birspReceive addr => Sys2Proof.Machine.execBirspReceive addr s
  | .hotReset => Sys2Proof.Machine.execHotReset s
  | .linkUpFlush bme => Sys2Proof.Machine.execLinkUpFlush bme s
  | .ideIntegrityFail => Sys2Proof.Machine.execIdeIntegrityFail s
  | .ideKm stream key go => Sys2Proof.Machine.execIdeKm stream key go s
  | .doeDiscovery index => Sys2Proof.Machine.execDoeDiscovery index s
  | .cdatRead => Sys2Proof.Machine.execCdatRead s
  | .spdmRequest via kind req => Sys2Proof.Machine.execSpdmRequest via kind req s
  | .setCertificate via slot chain => Sys2Proof.Machine.execSetCertificate via slot chain s
  | .keySet via slot key => Sys2Proof.Machine.execKeySet via slot key s
  | .keyErase via slot => Sys2Proof.Machine.execKeyErase via slot s
  | .mctpControl msg => Sys2Proof.Machine.execMctpControl msg s
  | .pldmMonitor => Sys2Proof.Machine.execPldmMonitor s
  | .sidebandReadStatus => Sys2Proof.Machine.execSidebandReadStatus s
  | .eventFiring n => Sys2Proof.Machine.execEventFiring n s
  | .eventDelivery => Sys2Proof.Machine.execEventDelivery s
  | .evcEoi n => Sys2Proof.Machine.execEvcEoi n s
  | .internalCompletion n => Sys2Proof.Machine.execInternalCompletion n s
  | .evcSrcCfgWrite n word => Sys2Proof.Machine.execEvcSrcCfgWrite n word s
  | .msixEntryWrite w => Sys2Proof.Machine.execMsixEntryWrite w s
  | .sliceSleep j => Sys2Proof.Machine.execSliceSleep j s
  | .sliceWake j => Sys2Proof.Machine.execSliceWake j s
  | .tbAdjWrite value => Sys2Proof.Machine.execTbAdjWrite value s
  | .tbAdjDone => Sys2Proof.Machine.execTbAdjDone s
  | .idRsvdWrClear => Sys2Proof.Machine.execIdRsvdWrClear s
  | .coFmtClrCnt c => Sys2Proof.Machine.execCoFmtClrCnt c s
  | .denormFlushWrite c flush => Sys2Proof.Machine.execDenormFlushWrite c flush s
  | .udClrCnt m => Sys2Proof.Machine.execUdClrCnt m s
  | .rrClrCnt => Sys2Proof.Machine.execRrClrCnt s
  | .fpRetrain p => Sys2Proof.Machine.execFpRetrain p s
  | .routeConfigWrite w => Sys2Proof.Machine.execRouteConfigWrite w s
  | .fpCredWrite p q limit => Sys2Proof.Machine.execFpCredWrite p q limit s
  | .secPrCtlWrite n slot en => Sys2Proof.Machine.execSecPrCtlWrite n slot en s
  | .secPrBoundsWrite n limit addr => Sys2Proof.Machine.execSecPrBoundsWrite n limit addr s
  | .pwrLimitWrite limit => Sys2Proof.Machine.execPwrLimitWrite limit s
  | .idModuleWrite valid id => Sys2Proof.Machine.execIdModuleWrite valid id s
  | .coreStateRegWrite c w => Sys2Proof.Machine.execCoreStateRegWrite c w s
  | .regLowHalfRead requester off size => Sys2Proof.Machine.execRegLowHalfRead requester off size s
  | .registerWrite off size value => Sys2Proof.Machine.execRegisterWrite off size value s
  | .powerOn => Sys2Proof.Machine.execPowerOn s
  | .powerLoss => Sys2Proof.Machine.execPowerLoss s
  | .inputExcursion volts => Sys2Proof.Machine.execInputExcursion volts s
  | .railsGood => Sys2Proof.Machine.execRailsGood s
  | .startingBlockRun => Sys2Proof.Machine.execStartingBlockRun s
  | .imageVerify => Sys2Proof.Machine.execImageVerify s
  | .sectionsLoad fail => Sys2Proof.Machine.execSectionsLoad fail s
  | .fabricRelease => Sys2Proof.Machine.execFabricRelease s
  | .portStart p => Sys2Proof.Machine.execPortStart p s
  | .cxlTrainingStart => Sys2Proof.Machine.execCxlTrainingStart s
  | .cfgReady p => Sys2Proof.Machine.execCfgReady p s
  | .dramTrainingDone hbm st pcs => Sys2Proof.Machine.execDramTrainingDone hbm st pcs s
  | .ready => Sys2Proof.Machine.execReady s
  | .perstAssert => Sys2Proof.Machine.execPerstAssert s
  | .perstDeassert => Sys2Proof.Machine.execPerstDeassert s
  | .warmReset => Sys2Proof.Machine.execWarmReset s
  | .brakeAssert => Sys2Proof.Machine.execBrakeAssert s
  | .brakeDeassert => Sys2Proof.Machine.execBrakeDeassert s
  | .brakeRiseDone => Sys2Proof.Machine.execBrakeRiseDone s
  | .powerSample volts amps watts mean10ms => Sys2Proof.Machine.execPowerSample volts amps watts mean10ms s
  | .thermalSample n temp => Sys2Proof.Machine.execThermalSample n temp s
  | .thermalShutdown n => Sys2Proof.Machine.execThermalShutdown n s
  | .clockGate k => Sys2Proof.Machine.execClockGate k s
  | .clusterSleep k => Sys2Proof.Machine.execClusterSleep k s
  | .clusterWake k cause => Sys2Proof.Machine.execClusterWake k cause s
  | .fatalFault u => Sys2Proof.Machine.execFatalFault u s
  | .sourceLevelLeft n => Sys2Proof.Machine.execSourceLevelLeft n s
  | .dynamicAddressAssignment addr => Sys2Proof.Machine.execDynamicAddressAssignment addr s

end Sys2Proof.Machine
end

