-- ==== Sys2Proof/Machine/Time.lean ====
section
/-!
DEFINITION. A nanosecond of the timebase: what passes when no command waits (17 R508, R509).
-/

namespace Sys2Proof.Machine

open Sys2Proof

/-- One nanosecond: TB_NOW advances by 1, by 2 while the remaining offset of TB_ADJ is positive, and by 1 in two while it
is negative (17 R508, R509); the wait timers run (04 R119); PWR_CNT_1 counts the nanoseconds under the power brake (20 R584). Nothing passes without power. DESIGN CHOICE, log 1.
Log 100 (DESIGN CHOICE). -/
def tick (s : State) : State :=
  if !s.powered then s
  else
    let off := rd s F.TB_ADJ_OFFSET
    let t := rd s F.TB_NOW_TIME
    let s :=
      if off = 0 then { wr s F.TB_NOW_TIME (t + 1) with tbHalf := false }
      else if off < 2 ^ 63 then { wrAll s [(F.TB_NOW_TIME, t + 2), (F.TB_ADJ_OFFSET, off - 1)] with tbHalf := false }
      else if s.tbHalf then { wrAll s [(F.TB_NOW_TIME, t + 1), (F.TB_ADJ_OFFSET, off + 1)] with tbHalf := false }
      else { s with tbHalf := true }
    let s := stallPass s 1
    if rdb s F.PWR_STAT_BRAKE then bump s (F.PWR_CNT_COUNT 1) 1 else s

end Sys2Proof.Machine
end

