-- ==== Sys2Proof/Safety.lean ====
section
/-!
DEFINITION. The terms the statements use: the canonical form of a state, what a command leaves as it was, and what every
sequencer instruction does beside its own effect.
-/

namespace Sys2Proof

open Sys2Proof.Machine

/-- The register map, the memory and the records of units are in canonical form. -/
def Machine.State.Inv (s : State) : Prop :=
  keysRise s.regs = true ∧ Memory.wf s.mem = true ∧ keysRise s.cores = true ∧ keysRise s.clusters = true

/-- Every register field but those listed reads as it did. -/
def Machine.RegsKept (s t : State) (l : List Fld) : Prop := ∀ f : Fld, f.at_ ∉ l.map Fld.at_ → rd t f = rd s f

/-- Every byte of memory reads as it did, by physical key. -/
def Machine.MemKept (s t : State) : Prop := ∀ k, memByte t.mem k = memByte s.mem k

/-- Only the bytes stored in runs (address, length) may differ: every byte of a 256-byte line that no run reaches reads as before
(a line whose key changes is written whole, 11 R343), and where nothing is or was protected every byte outside the runs does. -/
def Machine.StoresWithin (s t : State) (l : List (Nat × Nat)) : Prop :=
  (∀ k, (∀ r ∈ l, ∀ i, i < r.2 → (physKey s (r.1 + i)).map (fun j => j / 256) ≠ some (k / 256)) →
      memByte t.mem k = memByte s.mem k)
    ∧ (prRegions s = [] → s.lineKeys = [] →
        ∀ k, (∀ r ∈ l, ∀ i, i < r.2 → physKey s (r.1 + i) ≠ some k) → memByte t.mem k = memByte s.mem k)

/-- Nothing but registers differs. -/
def Machine.OnlyRegs (s t : State) : Prop := t = { s with regs := t.regs }

/-- The event controller as it was, but for the time at which EVC_CSAT captured a saturated counter (17 R506). -/
def Machine.satOf (s t : State) : EventSt := { s.events with csatAt := t.events.csatAt }

/-- Nothing but registers, event inputs and the time of EVC_CSAT differs. -/
def Machine.OnlyRegsEvents (s t : State) : Prop := t = { s with regs := t.regs, events := satOf s t, fired := t.fired }

/-- A sequencer instruction (ENG 0) of an opcode stands at the front of a core's stream (04 R97, R100). -/
abbrev Machine.FrontIs (s : State) (c : CoreId) (op w : Nat) : Prop := frontWord s c = some w ∧ engOf w = 0 ∧ opc w = op

/-- The counter that an instruction's wait names: a pacer or a baton (04 R100, R102, R107). -/
def Machine.waitFld (c : CoreId) (w : Nat) : Fld :=
  if waitPacer w then F.CO_PA_COUNT c (waitIdx w % 16) else F.CO_BT_COUNT c (waitIdx w)

/-- What a wait leaves in its counter (04 R102). -/
def Machine.waitLeft (s : State) (c : CoreId) (w : Nat) : Nat :=
  if waitCnt w = 0 then rd s (waitFld c w) else (rd s (waitFld c w) - waitCnt w) % 2 ^ 16

/-- A device counter has room for one more (17 R505). -/
abbrev Machine.Room (s : State) (f : Fld) : Prop := rd s f + 1 < counterMax

/-- The registers that a device counter touches beside itself when it saturates (17 R506). -/
def Machine.satTouched : List Fld := [F.EVC_CSAT_VALID, F.EVC_CSAT_MEM, F.EVC_CSAT_ADDR, F.EVC_CNT_COUNT 2]

/-- The registers that show the duties in force (20 R568). -/
def Machine.dutyFlds : List Fld := F.PWR_STAT_DUTY_MIN :: F.PWR_STAT_THERM :: F.PWR_STAT_LIMIT :: (List.range 8).map F.PWR_TEMP_DUTY

/-- A journalled command of an opcode begins and passes what is judged before its own parameters (16 R468, R469, R473). -/
abbrev Machine.Begins (s : State) (r : Fin 16) (seq op : Nat) (c : Cmd) : Prop :=
  cmdOf s r.val seq = some c ∧ c.opcode = op ∧ mayBegin s c = true ∧ headReserved c = false ∧ fenceInvalid s c = false
    ∧ (op = 0 ∨ op = 1 ∨ (c.param 3 1, c.param 2 1) = c.ver)

/-- A command has been executed: its journal record holds its status, detail and RESULT (RECOVERED in place of OK for one that ran
again), its ring gives the statuses that are due in order, and nothing but the journal, the ring's INFLIGHT and the two counts of
terminal statuses differs (16 R465 to R468). -/
def Machine.Executed (u t : State) (r seq st detail : Nat) (res : List Byte) : Prop :=
  (∃ c, cmdOf u r seq = some c ∧ t.journal = trimRing (settleFrom (mirrors u) (u.journal.map (fun x => if x.is r seq
      then { c with started := true, fin := some (if st = 0 ∧ c.replayed then 0x20 else st, detail), result := sliceBytes res 0 16 }
      else x)) r (now u)) r)
    ∧ RegsKept u t (F.CMD_RING_STAT_INFLIGHT r :: F.CMD_CNT_COUNT 5 :: F.CMD_CNT_COUNT 6 :: satTouched)
    ∧ t = { u with regs := t.regs, journal := t.journal, events := satOf u t, fired := t.fired }

/-- A core at the start of a step (04 R129), from state s: it runs at index 0 with its batons 0, its pacers full and its address bases as the
stream gives them, and with nothing in its queues; its limits are those that stand, or those of the stream after a reset. -/
def Machine.CoreStarted (s t : State) (c : CoreId) : Prop :=
  rd t (F.CO_SEQ_STAT_STATE c) = 1 ∧ rd t (F.CO_SEQ_STAT_INDEX c) = 0 ∧ rd t (F.CO_SEQ_STAT_STALL c) = 0
    ∧ (∀ n, n < 64 → rd t (F.CO_BT_COUNT c n) = 0)
    ∧ (∀ n, n < 16 → rd t (F.CO_PA_COUNT c n) = rd t (F.CO_PA_LIMIT c n) % 2 ^ 16
        ∧ ((Machine.core s c).cleared = false → rd t (F.CO_PA_LIMIT c n) = rd s (F.CO_PA_LIMIT c n))
        ∧ rd t (F.CO_AB_CUR_VALUE c n) = ((Machine.core s c).abInit.getD n (0, 0)).1 % 2 ^ 48
        ∧ rd t (F.CO_AB_BASE_VALUE c n) = ((Machine.core s c).abInit.getD n (0, 0)).2 % 2 ^ 48)
    ∧ (Machine.core t c).instrs = (Machine.core s c).instrs ∧ outstanding t c = []

/-- What a core holds after it went on: one more place in its order, the new front of its stream timed from now (04 R97, R119). -/
def Machine.gone (s : State) (c : CoreId) : CoreSt :=
  { Machine.core s c with seq := (Machine.core s c).seq + 1, since := setAt (Machine.core s c).since 0 s.stallClock }

/-- What each sequencer instruction does beside its own effect: its wait takes its count, its post leaves, execution continues
at i, dispatch is not stopped, one place in the core's order is used; nothing else differs but the fields in own. -/
def Machine.Flowed (s t : State) (c : CoreId) (w i : Nat) (own : List Fld) : Prop :=
  rd t (F.CO_SEQ_STAT_INDEX c) = i % 2 ^ 12 ∧ rd t (F.CO_SEQ_STAT_STALL c) = 0 ∧ rd t (waitFld c w) = waitLeft s c w
    ∧ t.posts = (makePost s c w).posts ∧ Machine.core t c = gone s c
    ∧ (∀ d, d ≠ c → Machine.core t d = Machine.core s d) ∧ MemKept s t
    ∧ RegsKept s t (F.CO_SEQ_STAT_INDEX c :: F.CO_SEQ_STAT_STALL c :: waitFld c w :: own)
    ∧ t = { s with regs := t.regs, cores := t.cores, posts := t.posts }

/-- Dispatch of a core is stopped (04 R97); nothing else differs. -/
def Machine.Halts (s t : State) (c : CoreId) : Prop :=
  rd t (F.CO_SEQ_STAT_STALL c) = 1 ∧ RegsKept s t [F.CO_SEQ_STAT_STALL c] ∧ OnlyRegs s t

/-- Program fault (04 R117, R118): the core stops with its code, counter, instruction and engine; a step that runs is aborted, as
AbortsEndTheStep says. -/
def Machine.ProgramFaulted (s t : State) (c : CoreId) (code idx index eng : Nat) : Prop :=
  ∃ u, rd u (F.CO_SEQ_STAT_STATE c) = 3 ∧ rd u (F.CO_FAULT_CODE c) = code ∧ rd u (F.CO_FAULT_IDX c) = idx % 2 ^ 6
    ∧ rd u (F.CO_FAULT_INDEX c) = index % 2 ^ 12 ∧ rd u (F.CO_FAULT_ENG c) = eng % 2 ^ 4
    ∧ RegsKept s u [F.CO_SEQ_STAT_STATE c, F.CO_FAULT_CODE c, F.CO_FAULT_IDX c, F.CO_FAULT_INDEX c, F.CO_FAULT_ENG c] ∧ OnlyRegs s u
    ∧ t = (if s.run.isSome then abortStep u 0x30 else u)

/-- An engine has taken the head of its queue (04 R98, R102): the wait took its count, the entry left, the new head is timed from now; nothing
else differs. -/
def Machine.HeadTaken (s u : State) (c : CoreId) (eng : Nat) (e : QEntry) : Prop :=
  rd u (waitFld c e.word) = waitLeft s c e.word ∧ RegsKept s u [waitFld c e.word]
    ∧ Machine.core u c = { popQueue (Machine.core s c) eng with since := setAt (Machine.core s c).since eng s.stallClock }
    ∧ (∀ d, d ≠ c → Machine.core u d = Machine.core s d) ∧ u = { s with regs := u.regs, cores := u.cores }

/-- Only the registers and a core's holdings differ. -/
def Machine.OnlyCore (s t : State) (c : CoreId) : Prop :=
  (∀ d, d ≠ c → Machine.core t d = Machine.core s d) ∧ t = { s with regs := t.regs, cores := t.cores }

/-- What every failing or waiting take of a descriptor answers (10 R310; 11 R340, R342): a poisoned index list or window record is a data
fault; a check that fails stops the core; an unusable table slot does once nothing is left to write; reads that fail are a data fault; and
it waits for an earlier descriptor over the same lines. pop takes it from its queue, f is its flight. -/
def Machine.TakeOtherwise (s : State) (c : CoreId) (d : Desc) (f : DxFlight) (err : ReadErr) (pop : State → State) (i : Instr) : Prop :=
  let reads := readRuns s (takeRuns s c d) err
  (∀ t, auxFault s c d err = some t → exec i s = .next t)
  ∧ (auxFault s c d err = none → (∀ r, descReason s c d = some r → exec i s = .next (descFail (pop s) c f.stream f.entry r))
    ∧ (descReason s c d = none → (∀ r, tableReason s c d = some r → exec i s = .next (if (Machine.core s c).dxs.all (fun g => g.done)
          then codecFail (pop s) c r (bits f.entry.word 64 4) (if f.stream then 0xFFF else f.entry.idx) 4 else s))
      ∧ (tableReason s c d = none → (reads = none → exec i s = .next s) ∧ (∀ u, reads = some (false, u) → exec i s = .next u)
        ∧ (∀ u, reads = some (true, u) →
            mustWait s c d.mode (srcRuns s d (descWindow s d)) (if d.remote then [] else dstRuns c d) = true → exec i s = .next s))))

/-- A descriptor's checks hold, its reads succeed and leave u, and it need not wait (11 R340 to R342). -/
def Machine.TakeMay (s u : State) (c : CoreId) (d : Desc) (err : ReadErr) : Prop :=
  auxFault s c d err = none ∧ descReason s c d = none ∧ tableReason s c d = none ∧ readRuns s (takeRuns s c d) err = some (true, u)
    ∧ mustWait s c d.mode (srcRuns s d (descWindow s d)) (if d.remote then [] else dstRuns c d) = false

/-- A DX leaves the head of its queue (11 R341). -/
def Machine.dxPop (c : CoreId) (e : QEntry) (t : State) : State :=
  setCore (takeHead t c 4 e) c { Machine.core (takeHead t c 4 e) c with lastStream := false }

/-- What a descriptor that is taken from state v does, f its flight, and what it leaves (03 R81, R89, R94; 09 R282, R283; 10 R303, R306 to R308;
11 R335 to R339): the bytes of a move are written or leave as messages, its flags and its amax record count, and it stands in flight; an
LPACK's plain bytes enter the packer, an LEXPAND's job, and that of an LCOPY into a protected region, waits for its blocks, with the scale
bytes gone first; another LCOPY and the fixed-rate modes write at once. -/
def Machine.DescRan (v t : State) (c : CoreId) (d : Desc) (f : DxFlight) : Prop :=
  let y := addFlight v c f
  let len := fun (w : List (Nat × List Byte)) => w.map (fun e => (e.1, e.2.length))
  let kept := fun (w : List (Nat × Nat)) => (d.remote = true → MemKept v t) ∧ (d.remote = false → StoresWithin v t w)
  let g : DxFlight := if d.remote then { f with done := false, tag := channelTag v d.vc } else { f with done := false }
  let prot := destProtected v c d
  let x := Machine.core v c
  let scales := scaleMoves v d
  (∀ b, b ≠ c → Machine.core t b = Machine.core v b)
  ∧ (d.mode = 0 →
      let m := moveOut y c d
      let z := coreFlags (if d.remote then sendRemote y d m.1 else landAll y m.1) c m.2.sum
      let amax := d.dsc.amax && d.sfmt != d.dfmt
      t = (if amax then mergeAmax z { m.2.amax with hist := d.dsc.hist } else z) ∧ Machine.core t c = { x with dxs := x.dxs ++ [f] }
        ∧ (amax = false → kept (len m.1)) ∧ (d.remote = false → StoresWithin v t (len m.1 ++ [(amaxAddr v d.dsc.hist + 0x40, 40)])))
  ∧ (d.mode = 1 → ∃ j, Machine.core t c = { x with dxs := x.dxs ++ [g], packs := x.packs ++ [j] } ∧ j.dma = true ∧ j.entry = f.entry
      ∧ j.tslot = d.tslot ∧ j.fmt = d.sfmt ∧ j.block = d.first ∧ j.left = 0 ∧ j.prot = prot ∧ j.fed = plainLen d
      ∧ j.buf = ldBytes (startBlocks (countProt v c d) c d f) d.src (plainLen d) ∧ kept (len (spread c d scales)))
  ∧ (d.mode = 2 → (Machine.core t c).dxs = x.dxs ++ [g] ∧ (∃ j ∈ (Machine.core t c).exps, j.entry.seq = f.entry.seq ∧ j.taken = true)
      ∧ (x.exps.any (fun j => j.entry.seq == f.entry.seq) = false → ∃ j, (Machine.core t c).exps = x.exps ++ [j] ∧ j.entry = f.entry
          ∧ j.desc = f.desc ∧ j.stream = f.stream ∧ j.begun = 0 ∧ j.count = blockCount d ∧ j.copy = false)
      ∧ kept (len (spread c d scales)))
  ∧ (d.mode = 3 → prot = true → ∃ j, Machine.core t c = { x with dxs := x.dxs ++ [g], exps := x.exps ++ [j] } ∧ j.entry = f.entry ∧ j.desc = f.desc
      ∧ j.taken = true ∧ j.begun = 0 ∧ j.count = blockCount d ∧ j.copy = true ∧ kept (len (spread c d scales)))
  ∧ (d.mode = 3 → prot = false → t = deliverAll y c d (scaleMoves y d ++ lcopyOut y d) ∧ Machine.core t c = { x with dxs := x.dxs ++ [f] }
      ∧ kept (len (spread c d (scaleMoves y d ++ lcopyOut y d))))
  ∧ (4 ≤ d.mode →
      let o := lossyOut y c d
      let z := coreFlags (deliverAll y c d o.1) c { flags := o.2.1 }
      t = (if d.mode < 6 then bump (bump z (F.FM_CNT_COUNT c.cluster 0) o.2.2.1) (F.FM_CNT_COUNT c.cluster 2) o.2.2.2.1
          else bump (bump z (F.FM_CNT_COUNT c.cluster 1) o.2.2.1) (F.FM_CNT_COUNT c.cluster 3) o.2.2.2.2)
        ∧ Machine.core t c = { x with dxs := x.dxs ++ [f] } ∧ kept (len (spread c d o.1)))

/-- A core's arrival at a hurdle is the last local one of a group hurdle (04 R111). -/
def Machine.lastLocal (s : State) (h : Nat) : Bool :=
  rd s (F.HD_CFG_SCOPE 0 h) == 1 && rd s (F.HD_STAT_LOCAL_ARR 0 h) + 1 == rd s (F.HD_CFG_LOCAL_EXPECT 0 h)

/-- An instruction at the front arrives at hurdle h (04 R111, R112): its wait takes its count, every copy counts the arrival, and counts the
module as a member that has arrived at the last local one; the core remembers the epoch. -/
def Machine.Arrived (s u : State) (c : CoreId) (w h : Nat) : Prop :=
  (∀ d < 8, rd u (F.HD_STAT_LOCAL_ARR d h) = (rd s (F.HD_STAT_LOCAL_ARR 0 h) + 1) % 2 ^ (F.HD_STAT_LOCAL_ARR d h).width)
    ∧ (lastLocal s h = true → ∀ d < 8, rd u (F.HD_ARR_MEMBER_ARR d h) = (rd s (F.HD_ARR_MEMBER_ARR 0 h) + 1) % 2 ^ (F.HD_ARR_MEMBER_ARR d h).width)
    ∧ rd u (waitFld c w) = waitLeft s c w
    ∧ Machine.core u c = { Machine.core s c with seq := (Machine.core s c).seq + 1, arrivals := mapPut (Machine.core s c).arrivals h (hdEpoch s h) }
    ∧ (∀ d, d ≠ c → Machine.core u d = Machine.core s d)
    ∧ RegsKept s u (waitFld c w :: (List.range 8).map (fun d => F.HD_STAT_LOCAL_ARR d h)
        ++ (if lastLocal s h then (List.range 8).map (fun d => F.HD_ARR_MEMBER_ARR d h) else []))
    ∧ u = { s with regs := u.regs, cores := u.cores }

/-- The module's arrival is sent to every other member (04 R111, 13 R400). -/
def Machine.tellMembers (s u : State) (h : Nat) : State :=
  if lastLocal s h then sendHurdleAll u (rd s (F.HD_CFG_VC 0 h)) 1 h (hdEpoch s h) (stepNum u) else u

/-- Why the arguments of a cache routine are refused (08 R234, R239): the reason of RC_ERR, none where they are good. -/
def Machine.cacheRefuses (op : Nat) (s : State) (b : List Byte) : Option Nat :=
  let q := leAt b 4 4
  let n := leAt b 0x10 4
  let z := leAt b 0x14 4
  let addr := leAt b 0x18 8
  match op with
  | 1 => if populatedRun addr 128 = false ∨ confOk (ldBytes s addr 128) = false then some 2 else none
  | 2 => if (conf s).seqs ≤ q then some 2 else if seqOpen s q then some 5 else if tablesFit s addr z = false then some 2 else none
  | 3 => (judgeSeq s q).or (if (conf s).seqs ≤ z then some 2 else if seqOpen s z then some 5
      else if seqPages s q < n ∨ seqPages s z < n ∨ tablesFit s (seqTables s z) (seqPages s z) = false then some 2 else none)
  | 4 => (judgePages s b).or (if z = 0 ∨ 128 < z then some 2 else none)
  | 5 => (judgeSeq s q).or (if n = 0 ∨ maxNodes < n ∨ populatedRun addr (512 * n) = false then some 2 else none)
  | 6 => (judgePages s b).or (if 8 < bits (leAt b 9 1) 0 3 + bits (leAt b 9 1) 4 3 + 1 ∨ leAt b 0x20 2 = 0 ∨ leAt b 0x20 2 ≤ leAt b 0x22 2
      then some 2 else none)
  | 7 => judgePages s b
  | _ => judgeSeq s q

/-- A cache routine begins (08 R245, R256): quiet pages are reclaimed, the epoch is read, and it stands at its first position. -/
def Machine.cacheBegun (s : State) (k : ClusterId) (op : Nat) : State :=
  let v := reclaim s k
  let e := if op = 1 then 0 else epochWord v
  let x := cluster v k
  let w := setCluster v k { x with rtBegun := true, rtPos := 0, rtSub := 0, rtCount := 0, rtNode := 0xFFFFFFFF, rtEpoch := e,
                                   lastEpoch := if op = 1 then x.lastEpoch else e }
  if op = 1 then w else showLow w k

/-- A cache routine of a cluster may run on from v (08 R238, R239): its request stands at the head with a good argument block, and it has begun, or
begins now with good arguments. -/
def Machine.CacheRuns (s v : State) (k : ClusterId) (op : Nat) (r : CcReq) (b : List Byte) : Prop :=
  routineHead s k op = some r ∧ argBlock s k r = some b
    ∧ (((cluster s k).rtBegun = true ∧ v = s)
      ∨ ((cluster s k).rtBegun = false ∧ (op ≠ 1 → s.rollout.conf ≠ []) ∧ leAt b 0 1 = op ∧ argReserved b = false
          ∧ cacheRefuses op (reclaim s k) b = none ∧ v = cacheBegun s k op))

/-- A cache routine has run (08 R238): its result is in its argument block, its request has completed, where it stood is forgotten; it stored in
the runs l beside. -/
def Machine.CacheEnded (w t : State) (k : ClusterId) (r : CcReq) (res : Nat) (l : List (Nat × Nat)) : Prop :=
  (cluster t k).ccq.head? = some { r with done := true } ∧ (cluster t k).rtBegun = false ∧ (cluster t k).rtPos = 0
    ∧ t.cores = w.cores ∧ StoresWithin w t (l ++ [(r.arg + 1, 1), (r.arg + 0x24, 4)])
    ∧ (l = [] → t.mem = (stN (stN w (r.arg + 1) 1 0) (r.arg + 0x24) 4 res).mem ∧ t.rollout = w.rollout)

end Sys2Proof
end

