-- ==== Sys2Proof/WellFormed.lean ====
section
/-!
DEFINITION. Which commands a sender can form: the byte strings a command carries have the length the spec gives them, and a request of
FW_RECOVER is the one its command names.
-/

namespace Sys2Proof

/-- A FW_RECOVER request: its 16 bytes of header with the operation in byte 0 (19 R556). -/
def requestOf (op : Nat) (req : List Byte) : Bool := decide (16 ≤ req.length) && (req.getD 0 0).toNat == op

/-- Is the command one that a sender can form? A flit has 256 bytes (13 R380), a configuration set 37 (13 R390), a ring entry 64 (16 R459), a
line of CXL.mem 64 (15 R449), an IDE key 32 (15 R455), a key slot's key 64 (19 R562). -/
def Instr.WellFormed (i : Instr) : Bool :=
  match i with
  | .instructionDispatch .. | .nop .. | .wait .. | .sync .. | .jump .. | .lapSet .. => true
  | .loop .. | .abSet .. | .abAdd .. | .hurdleArrive .. | .hurdleWait .. | .hurdleArriveWait .. => true
  | .split .. | .callCc .. | .callCcComplete .. | .endStep .. | .batonPost .. | .pacerReturn .. => true
  | .stallTimeout .. | .mac .. | .macDepthwise .. | .macRetire .. | .passVerified .. | .passMismatch .. => true
  | .refeedDone .. | .emit .. | .emitTokenEnter .. | .tbCfg .. | .vx .. | .vxRetire .. => true
  | .chCfg .. | .chConst .. | .cxBuild .. | .cxLoad .. | .cxRelease .. | .cxPack .. => true
  | .slotDrained .. | .packBlock .. | .expandBlock .. | .expandDrain .. | .dxMove .. | .dxGather .. => true
  | .dxWindow .. | .lpack .. | .lexpand .. | .lcopy .. | .fmEnc .. | .fmDec .. => true
  | .earlyRead .. | .streamDescriptorTake .. | .descriptorRetire .. | .messageDeliver .. | .hurdleFlitReceive .. | .hurdlePass .. => true
  | .stepAbortReceive .. | .spareCopyDone .. | .nopCmd .. | .echo .. | .queryVersion .. | .loadProgram .. => true
  | .bindGroups .. | .setTablePair .. | .setTableUpdate .. | .setScales .. | .runStep .. | .runProgram .. => true
  | .commitStep .. | .stepCommit .. | .commitMessageReceive .. | .commitRoundEnd .. | .commitLimit .. | .copyIn .. => true
  | .copyOut .. | .checkpointMap .. | .readState .. | .readJournal .. | .retirePart .. | .repairPart .. => true
  | .resetPart .. | .partActionDone .. | .fwStage .. | .fwActivate .. | .flashingDone .. | .attest .. => true
  | .getCert .. | .signatureDone .. => true
  | .fwRecoverBegin _ req => requestOf 1 req
  | .fwRecoverData _ req => requestOf 2 req
  | .fwRecoverEnd _ req => requestOf 3 req
  | .sqDoorbell .. => true
  | .entryTake _ entry => entry.length == 64
  | .completionWrite .. | .cqHeadWrite .. | .ringEnable .. | .ringDisable .. | .marshalRestart .. | .rrArm .. => true
  | .relayStreamSend .. | .relayRecordProcess .. | .relayReleaseReceive .. | .gatherRecordWrite .. | .chainSumsReceive .. | .unitTake .. => true
  | .statisticsPass .. | .normPass .. | .updatePass .. | .rcInit .. | .rcOpen .. | .rcFork .. => true
  | .rcWrite .. | .rcSeal .. | .rcWalk .. | .rcEvict .. | .rcFree .. | .lowWaterEvict .. => true
  | .evictionCopyDone .. | .pageFetchDone .. | .pageReclaim .. | .prefixNodeOp .. | .patrolScrub .. | .softPpr .. => true
  | .pcRetireRemap .. | .panelLaneFail .. | .flitTime .. => true
  | .flitReceive _ raw => raw.length == 256
  | .nakReceive _ raw => raw.length == 256
  | .ackTimeout .. => true
  | .holdReceive _ raw => raw.length == 256
  | .holdExpiry .. | .identSend .. => true
  | .identReceive _ raw => raw.length == 256
  | .controlRetire _ raw => raw.length == 256
  | .portDetect .. => true
  | .portTrainDone _ _ _ conf => conf.length == 37
  | .portRetrain .. | .retrainDone .. | .laneLossOfLock .. | .featuresReceive .. | .replayStart .. | .replayStopReceive .. => true
  | .stoppedReceive .. | .stoppedRoundsEnd .. | .drainReceive .. | .drainSetEnd .. | .restoreEnd .. | .configRequestRetry .. => true
  | .cxlMemRead .. => true
  | .cxlMemWrite _ data => data.length == 64
  | .h2dSnoop .. | .birspReceive .. | .hotReset .. | .linkUpFlush .. | .ideIntegrityFail .. => true
  | .ideKm _ key _ => key.length == 32
  | .doeDiscovery .. | .cdatRead .. | .spdmRequest .. | .setCertificate .. => true
  | .keySet _ _ key => key.length == 64
  | .keyErase .. | .mctpControl .. | .pldmMonitor .. | .sidebandReadStatus .. | .eventFiring .. | .eventDelivery .. => true
  | .evcEoi .. | .internalCompletion .. | .evcSrcCfgWrite .. | .msixEntryWrite .. | .sliceSleep .. | .sliceWake .. => true
  | .tbAdjWrite .. | .tbAdjDone .. | .idRsvdWrClear .. | .coFmtClrCnt .. | .denormFlushWrite .. | .udClrCnt .. => true
  | .rrClrCnt .. | .fpRetrain .. | .routeConfigWrite .. | .fpCredWrite .. | .secPrCtlWrite .. | .secPrBoundsWrite .. => true
  | .pwrLimitWrite .. | .idModuleWrite .. | .coreStateRegWrite .. | .regLowHalfRead .. | .registerWrite .. | .powerOn .. => true
  | .powerLoss .. | .inputExcursion .. | .railsGood .. | .startingBlockRun .. | .imageVerify .. | .sectionsLoad .. => true
  | .fabricRelease .. | .portStart .. | .cxlTrainingStart .. | .cfgReady .. | .dramTrainingDone .. | .ready .. => true
  | .perstAssert .. | .perstDeassert .. | .warmReset .. | .brakeAssert .. | .brakeDeassert .. | .brakeRiseDone .. => true
  | .powerSample .. | .thermalSample .. | .thermalShutdown .. | .clockGate .. | .clusterSleep .. | .clusterWake .. => true
  | .fatalFault .. | .sourceLevelLeft .. | .dynamicAddressAssignment .. => true

end Sys2Proof
end

