-- ==== Sys2Proof/Certificates/Slice0/Obligations.lean ====
section
/-!
DEFINITION. The statements about the model, for the provers.
-/

open Sys2Proof Sys2Proof.Machine

/-- The block's step (log 1); 17 R508, R509 and 20 R584 for a nanosecond. -/
def Obligations.StepRunsFront : Prop :=
  (∀ (s : State) (c : Instr) (cs : List Instr), s.pending = c :: cs → step s = exec c { s with pending := cs })
  ∧ (∀ s : State, s.pending = [] → s.powered = false → step s = .next s)
  ∧ (∀ s : State, s.pending = [] → s.powered = true → Room s (F.PWR_CNT_COUNT 1) →
      let off := rd s F.TB_ADJ_OFFSET
      let timed := decide (rd s F.ID_REPLAY_PHASE = 0 ∧ 8 ≤ rd s F.PWR_STAT_DUTY_MIN)
      ∃ t, step s = .next t
        ∧ rd t F.TB_NOW_TIME = (if off = 0 then (rd s F.TB_NOW_TIME + 1) % 2 ^ 64
            else if off < 2 ^ 63 then (rd s F.TB_NOW_TIME + 2) % 2 ^ 64
            else if s.tbHalf then (rd s F.TB_NOW_TIME + 1) % 2 ^ 64 else rd s F.TB_NOW_TIME)
        ∧ rd t F.TB_ADJ_OFFSET = (if off = 0 then off else if off < 2 ^ 63 then off - 1
            else if s.tbHalf then (off + 1) % 2 ^ 64 else off)
        ∧ t.tbHalf = (decide (2 ^ 63 ≤ off) && !s.tbHalf)
        ∧ rd t (F.PWR_CNT_COUNT 1) = rd s (F.PWR_CNT_COUNT 1) + (if rd s F.PWR_STAT_BRAKE = 1 then 1 else 0)
        ∧ RegsKept s t [F.TB_NOW_TIME, F.TB_ADJ_OFFSET, F.PWR_CNT_COUNT 1]
        ∧ t.stallClock = s.stallClock + (if timed then 1 else 0)
        ∧ (∀ c, Machine.core t c =
            { Machine.core s c with
              since := (if timed && memberReplays s c then setAt (Machine.core s c).since 0 ((Machine.core s c).since.getD 0 0 + 1)
                else (Machine.core s c).since) })
        ∧ t = { s with regs := t.regs, tbHalf := t.tbHalf, stallClock := t.stallClock, cores := t.cores })

/-- 00 R5 and the reset values of the register tables; the rest by logs 2 and 3. -/
def Obligations.ResetInv : Prop :=
  State.reset.Inv ∧ (∀ f, rd State.reset f = f.reset) ∧ State.reset.mem = [] ∧ (∀ k, memByte State.reset.mem k = emptyByte)
    ∧ State.reset.pending = [] ∧ State.reset.prog = none ∧ State.reset.journal = [] ∧ State.reset.powered = false
    ∧ rd State.reset F.ID_CAPS_FP_COUNT = 0x10 ∧ rd State.reset F.ID_CAPS_HBM_COUNT = 0x10 ∧ rd State.reset F.ID_CAPS_UD_COUNT = 4
    ∧ rd State.reset F.ID_CAPS_CO_PER_CL = 9 ∧ rd State.reset F.ID_CAPS_CL_PER_CD = 10 ∧ rd State.reset F.ID_CAPS_CD_COUNT = 8
    ∧ rd State.reset F.ID_CORES_ACTIVE = 640 ∧ rd State.reset F.ID_CORES_SPARES_FREE = 80
    ∧ (∀ k n, n < 8 → rd State.reset (remapFld k n) = n)
    ∧ (∀ p, rd State.reset (F.FP_CFG_ENABLE p) = 1 ∧ rd State.reset (F.FP_CFG_DIM p) = 0xF)
    ∧ rd State.reset F.PWR_LIMIT_LIMIT = 4800 ∧ rd State.reset F.PWR_STAT_DUTY_MIN = 8

/-- The invariant of the model's maps (log 3 for memory). -/
def Obligations.StepKeepsInv : Prop := ∀ s t : State, s.Inv → step s = .next t → t.Inv

/-- 18 R514: every fault of the module is a next state. -/
def Obligations.EveryCommandAnswers : Prop :=
  (∀ (i : Instr) (s : State), ∃ t, exec i s = .next t)
  ∧ (∀ s : State, ∃ t, step s = .next t)

/-- 00 R5 to R8; 01 R31 to R35; 20 R572: register accesses. Where the starting block does not serve an access: log 128. -/
def Obligations.RegisterAccessesReadAndWrite : Prop :=
  (∀ (s : State) (off : BitVec 26) (size : Nat) (v : BitVec 64),
    (accessOk off.toNat size = false → exec (.registerWrite off size v) s = .next { s with replies := s.replies ++ [.unsupported] }
      ∧ ∀ q, exec (.regLowHalfRead q off size) s = .next { s with replies := s.replies ++ [.unsupported] })
    ∧ (accessOk off.toNat size = true → barServed s off.toNat = false → exec (.registerWrite off size v) s = .next s
      ∧ ∀ q, exec (.regLowHalfRead q off size) s = .next { s with free := s.free + 1, readout := s.readout ++ [(off.toNat, Config.freeNat s.free % 2 ^ (8 * size))] }))
  ∧ (∀ (s : State) (off : BitVec 26) (v : BitVec 64), off.toNat % 4 = 0 → barServed s off.toNat = true →
      (regAt off.toNat).isNone = true ∨ closedWindow s off.toNat = true → Room s F.ID_RSVD_WR_CNT_COUNT →
      ∃ t, exec (.registerWrite off 4 v) s = .next t ∧ rd t F.ID_RSVD_WR_CNT_COUNT = rd s F.ID_RSVD_WR_CNT_COUNT + 1
        ∧ rd t F.ID_RSVD_WR_FIRST_VALID = 1
        ∧ rd t F.ID_RSVD_WR_FIRST_OFFSET = (if rd s F.ID_RSVD_WR_FIRST_VALID = 1 then rd s F.ID_RSVD_WR_FIRST_OFFSET else off.toNat)
        ∧ RegsKept s t [F.ID_RSVD_WR_CNT_COUNT, F.ID_RSVD_WR_FIRST_VALID, F.ID_RSVD_WR_FIRST_OFFSET] ∧ OnlyRegsEvents s t)
  ∧ (∀ (s : State) (off : BitVec 26) (size b n : Nat) (v : BitVec 64) (r : RegAt), regAt off.toNat = some r →
      accessOk off.toNat size = true → barServed s off.toNat = true → closedWindow s off.toNat = false →
      (size = 4 ∧ b = 8 * (foldFab off.toNat - r.off) ∧ n = 32) ∨ (size = 8 ∧ r.desc.bits = 64 ∧ b = 0 ∧ n = 64) →
      r.desc.reg ∉ [Reg.ID_MODULE, .ID_RSVD_WR, .CO_FMT_CTL, .CO_FMT_FLAGS, .UD_FLAGS, .RR_FLAGS, .CO_BT, .CO_PA, .CO_LAP, .CO_AB_CUR, .CO_AB_BASE,
        .SEC_PR_BASE, .SEC_PR_LIMIT, .SEC_PR_CTL, .FP_CFG, .FP_CRED, .FAB_RT, .CMD_SQ_BASE, .CMD_CQ_BASE, .CMD_SEQ_INIT, .CMD_RING_CFG, .CMD_SQ_TAIL,
        .CMD_CQ_HEAD, .EVC_SRC_CFG, .EVC_EOI, .TB_ADJ, .PWR_LIMIT, .PWR_ALERT, .HC_HDM_BASE_LO, .HC_HDM_BASE_HI, .HC_HDM_SIZE_LO,
        .HC_HDM_SIZE_HI, .HC_HDM_SKIP, .HC_HDM_DEC] →
      let u := reachWindow s off.toNat
      ∃ t, exec (.registerWrite off size v) s = .next t ∧ OnlyRegs u t ∧ RegsKept u t (r.desc.fields.map (fldOf r))
        ∧ ∀ d ∈ r.desc.fields, (match d.acc with
            | .rw => ∀ i < d.width, bit (rd t (fldOf r d)) i
                = if b ≤ d.lo + i ∧ d.lo + i < b + n then bit v.toNat (d.lo + i - b) else bit (rd u (fldOf r d)) i
            | .rws => ∀ i < d.width, bit (rd t (fldOf r d)) i
                = if b ≤ d.lo + i ∧ d.lo + i < b + n then bit v.toNat (d.lo + i - b) else bit (rd u (fldOf r d)) i
            | .rw1c => rd t (fldOf r d) = if b ≤ d.lo ∧ d.lo < b + n ∧ bit v.toNat (d.lo - b) then 0 else rd u (fldOf r d)
            | _ => rd t (fldOf r d) = rd u (fldOf r d)))
  ∧ (∀ (s : State) (off : BitVec 26) (v : BitVec 64), off.toNat % 8 = 0 → barServed s off.toNat = true →
      (regAt off.toNat).all (fun r => r.desc.bits == 32) = true → (regAt (off.toNat + 4)).isSome = true ∨ (regAt off.toNat).isSome = true →
      exec (.registerWrite off 8 v) s = .next (writeWord (writeWord s off.toNat (v.toNat % 2 ^ 32)) (off.toNat + 4) (v.toNat / 2 ^ 32))
      ∧ exec (.registerWrite off 4 v) s = .next (writeWord s off.toNat (v.toNat % 2 ^ 32)))
  ∧ (∀ (s : State) (off : BitVec 26) (v : BitVec 64) (r : RegAt), regAt off.toNat = some r → off.toNat % 4 = 0 → barServed s off.toNat = true →
      closedWindow s off.toNat = false → inCluster off.toNat = none →
      let i := r.ix.getD 0 0
      let as_ := fun (c : Instr) => exec (.registerWrite off 4 v) s = exec c s
      (r.desc.reg = .CMD_SQ_TAIL → as_ (.sqDoorbell (fin16 i) (fin4096 v.toNat)))
      ∧ (r.desc.reg = .CMD_CQ_HEAD → as_ (.cqHeadWrite (fin16 i) (fin4096 v.toNat)))
      ∧ (r.desc.reg = .EVC_EOI → as_ (.evcEoi (fin4096 v.toNat)))
      ∧ (r.desc.reg = .EVC_SRC_CFG → as_ (.evcSrcCfgWrite (fin4096 i) (BitVec.ofNat 32 v.toNat)))
      ∧ (r.desc.reg = .CMD_RING_CFG → bit v.toNat 31 = true → as_ (.ringEnable (fin16 i) (fin4096 v.toNat)))
      ∧ (r.desc.reg = .CMD_RING_CFG → bit v.toNat 31 = false → as_ (.ringDisable (fin16 i) (fin4096 v.toNat))))
  ∧ (∀ (s : State) (off : Nat),
      (∀ k i, inCluster off = some (k, i) → rd s (clStateFld (clusterOfKey k)) = 1 →
        rd (reachWindow s off) (clStateFld (clusterOfKey k)) = 0 ∧ OnlyRegs s (reachWindow s off))
      ∧ ((∀ k i, inCluster off = some (k, i) → rd s (clStateFld (clusterOfKey k)) ≠ 1) → reachWindow s off = s))
  ∧ (∀ (s : State) (q : Nat) (off : BitVec 26), barServed s off.toNat = true →
      (off.toNat % 8 = 0 → exec (.regLowHalfRead q off 8) s = .next { s with
        readout := s.readout ++ [(off.toNat, regWord s off.toNat + regWord s (off.toNat + 4) * 2 ^ 32)] })
      ∧ (off.toNat % 4 = 0 → regAt off.toNat = none → exec (.regLowHalfRead q off 4) s = .next { s with readout := s.readout ++ [(off.toNat, 0)] })
      ∧ (∀ r, off.toNat % 4 = 0 → regAt off.toNat = some r →
        (r.desc.bits ≠ 64 → exec (.regLowHalfRead q off 4) s = .next { s with readout := s.readout ++ [(off.toNat, regVal s r)] })
        ∧ (r.desc.bits = 64 → foldFab off.toNat = r.off →
          ∃ t, exec (.regLowHalfRead q off 4) s = .next t ∧ t.readout = s.readout ++ [(off.toNat, regVal s r % 2 ^ 32)]
            ∧ latchOf t q r.off = some (regVal s r / 2 ^ 32) ∧ (∀ p o, (p, o) ≠ (q, r.off) → latchOf t p o = latchOf s p o)
            ∧ t = { s with readout := t.readout, latches := t.latches })
        ∧ (r.desc.bits = 64 → foldFab off.toNat ≠ r.off →
          ∃ t, exec (.regLowHalfRead q off 4) s = .next t
            ∧ t.readout = s.readout ++ [(off.toNat, (latchOf s q r.off).getD (regVal s r / 2 ^ 32))] ∧ latchOf t q r.off = none
            ∧ (latchOf s q r.off = none → t = { s with readout := t.readout })
            ∧ t = { s with readout := t.readout, latches := t.latches })))

/-- 00 R8; 01 R34, R38, R39; 02 R67, R71; 04 R132; 11 R344; 12 R376; 13 R388, R405, R410; 14 R439; 20 R584. -/
def Obligations.RegistersWithRulesOfTheirOwn : Prop :=
  ∀ s : State,
    let from_ := fun (u : State) (i : Instr) (l : List (Fld × Nat)) => ∃ t, exec i s = .next t ∧ (∀ e ∈ l, rd t e.1 = e.2)
      ∧ RegsKept u t (l.map (fun e => e.1)) ∧ OnlyRegs u t
    let sets := from_ s
    let ruled := fun (i : Instr) (off : Nat) (ok : Bool) (l : List (Fld × Nat)) =>
      (ok = true → sets i l) ∧ (ok = false → exec i s = .next (recordRsvd s off))
    let reached := fun (k : ClusterId) (i : Instr) (off : Nat) (ok : Bool) (l : List (Fld × Nat)) =>
      (ok = true → from_ (reachCluster s k) i l) ∧ (ok = false → exec i s = .next (recordRsvd s off))
    sets .idRsvdWrClear [(F.ID_RSVD_WR_CLEAR, 1), (F.ID_RSVD_WR_CNT_COUNT, 0), (F.ID_RSVD_WR_OVF, 0), (F.ID_RSVD_WR_FIRST_VALID, 0),
      (F.ID_RSVD_WR_FIRST_OFFSET, 0)]
    ∧ (∀ c : CoreId, reached c.cluster (.coFmtClrCnt c) (F.CO_FMT_FLAGS_OVF c).word (!closedWindow s (F.CO_FMT_FLAGS_OVF c).word)
        [(F.CO_FMT_FLAGS_CLR_CNT c, 1), (F.CO_OVF_CNT_COUNT c, 0), (F.CO_FMT_FLAGS_CNT_OVF c, 0)])
    ∧ (∀ k : ClusterId, (rd s (clStateFld k) ≠ 1 → reachCluster s k = s)
        ∧ (rd s (clStateFld k) = 1 → rd (reachCluster s k) (clStateFld k) = 0
          ∧ RegsKept s (reachCluster s k) (clStateFld k :: (coresOf k).map F.CO_FMT_CTL_FLUSH_ACTIVE) ∧ OnlyRegs s (reachCluster s k)))
    ∧ (∀ (c : CoreId) (v : Bool),
        let i := Instr.denormFlushWrite c v
        let off := (F.CO_FMT_CTL_DENORM_FLUSH c).word
        let waits := s.run.isSome && (Machine.core s c).occupied
        (closedWindow s off = true → exec i s = .next (recordRsvd s off))
        ∧ (closedWindow s off = false →
          (rd s (clStateFld c.cluster) = 0 → sets i ((F.CO_FMT_CTL_DENORM_FLUSH c, b2n v)
            :: (if waits then [] else [(F.CO_FMT_CTL_FLUSH_ACTIVE c, b2n v)])))
          ∧ (rd s (clStateFld c.cluster) = 1 → ∃ t, exec i s = .next t ∧ rd t (F.CO_FMT_CTL_DENORM_FLUSH c) = b2n v
            ∧ rd t (clStateFld c.cluster) = 0
            ∧ rd t (F.CO_FMT_CTL_FLUSH_ACTIVE c) = (if waits then rd s (F.CO_FMT_CTL_FLUSH_ACTIVE c) else b2n v)
            ∧ RegsKept s t (F.CO_FMT_CTL_DENORM_FLUSH c :: clStateFld c.cluster :: (coresOf c.cluster).map F.CO_FMT_CTL_FLUSH_ACTIVE)
            ∧ OnlyRegs s t)
          ∧ (2 ≤ rd s (clStateFld c.cluster) → sets i [(F.CO_FMT_CTL_DENORM_FLUSH c, b2n v)])))
    ∧ (∀ m : Fin 4, ruled (.udClrCnt m) (F.UD_FLAGS_OVF m.val).word (!closedWindow s (F.UD_FLAGS_OVF m.val).word)
        [(F.UD_FLAGS_CLR_CNT m.val, 1), (F.UD_CNT_COUNT m.val 5, 0), (F.UD_FLAGS_CNT_OVF m.val, 0)])
    ∧ sets .rrClrCnt [(F.RR_FLAGS_CLR_CNT, 1), (F.RR_CNT_COUNT 7, 0), (F.RR_FLAGS_CNT_OVF, 0)]
    ∧ (∀ (d : Fin 1024) (p a : BitVec 16), ruled (.routeConfigWrite (.entry d p a)) (F.FAB_RT_PORTS d.val).word s.run.isNone
        [(F.FAB_RT_PORTS d.val, p.toNat), (F.FAB_RT_ALT d.val, a.toNat)])
    ∧ (∀ (p dim : Fin 16) (dl en : Bool),
        let off := (F.FP_CFG_ENABLE p.val).word
        (s.run.isSome = true ∨ badDim dim.val = true ∨ closedWindow s off = true →
          exec (.routeConfigWrite (.portCfg p dim dl en)) s = .next (recordRsvd s off))
        ∧ (s.run.isNone = true → badDim dim.val = false → closedWindow s off = false →
          (en = true → portState s p.val ≠ 0 → sets (.routeConfigWrite (.portCfg p dim dl en))
            [(F.FP_CFG_DIM p.val, dim.val), (F.FP_CFG_DATELINE p.val, b2n dl), (F.FP_CFG_ENABLE p.val, 1)])
          ∧ (en = true → portState s p.val = 0 → s.boot.released = true →
            ∃ t, exec (.routeConfigWrite (.portCfg p dim dl en)) s = .next t ∧ portState t p.val = 1 ∧ rd t (F.FP_CFG_ENABLE p.val) = 1
              ∧ rd t (F.FP_CFG_DIM p.val) = dim.val ∧ rd t (F.FP_CFG_DATELINE p.val) = b2n dl
              ∧ RegsKept s t [F.FP_CFG_DIM p.val, F.FP_CFG_DATELINE p.val, F.FP_CFG_ENABLE p.val, F.FP_STAT_STATE p.val] ∧ OnlyRegsEvents s t)
          ∧ (en = true → portState s p.val = 0 → s.boot.released = false → sets (.routeConfigWrite (.portCfg p dim dl en))
            [(F.FP_CFG_DIM p.val, dim.val), (F.FP_CFG_DATELINE p.val, b2n dl), (F.FP_CFG_ENABLE p.val, 1)])
          ∧ (en = false → rd s F.ID_FLT_NEXT_NEXT < 16 →
            ∃ t, exec (.routeConfigWrite (.portCfg p dim dl en)) s = .next t ∧ portState t p.val = 0 ∧ rd t (F.FP_CFG_ENABLE p.val) = 0
              ∧ rd t (F.FP_CFG_DIM p.val) = dim.val ∧ MemKept s t)))
    ∧ (∀ (p : Fin 16) (q : Fin 14) (v : BitVec 16), ruled (.fpCredWrite p q v) (F.FP_CRED_LIMIT p.val q.val).word
        (creditOk s p.val q.val v.toNat && !closedWindow s (F.FP_CRED_LIMIT p.val q.val).word) [(F.FP_CRED_LIMIT p.val q.val, v.toNat)])
    ∧ (∀ (n slot : Fin 16) (en : Bool), ruled (.secPrCtlWrite n slot en) (F.SEC_PR_CTL_EN n.val).word (regionOk s n.val slot.val en)
        [(F.SEC_PR_CTL_KEY_SLOT n.val, slot.val), (F.SEC_PR_CTL_EN n.val, b2n en)])
    ∧ (∀ (n : Fin 16) (limit : Bool) (a : BitVec 27),
        let f := if limit then F.SEC_PR_LIMIT_ADDR n.val else F.SEC_PR_BASE_ADDR n.val
        ruled (.secPrBoundsWrite n limit a) (f.at_ / 64 * 8) (boundsOpen s n.val) [(f, a.toNat)])
    ∧ (∀ v : BitVec 13, ruled (.pwrLimitWrite v) F.PWR_LIMIT_LIMIT.word (decide (1200 ≤ v.toNat ∧ v.toNat ≤ 4800)) [(F.PWR_LIMIT_LIMIT, v.toNat)])
    ∧ (∀ (v : Bool) (id : BitVec 10), ruled (.idModuleWrite v id) F.ID_MODULE_VALID.word (boundChannels s).isEmpty
        [(F.ID_MODULE_VALID, b2n v), (F.ID_MODULE_MODULE_ID, id.toNat)])
    ∧ (∀ (c : CoreId) (w : CoreReg), reached c.cluster (.coreStateRegWrite c w) (coreRegFld c w).1.word
        (decide (rd s (F.CO_SEQ_STAT_STATE c) ≠ 1) && !closedWindow s (coreRegFld c w).1.word) [coreRegFld c w])

/-- 02 R44 and R47: the value of every code. -/
def Obligations.NarrowCodesNumbers : Prop :=
  (∀ f : Fmt, f = .k4 ∨ f = .k8m ∨ f = .k8e → ∀ c, c < 2 ^ f.width →
    (decodeFloat f c = .nan ↔ c = 2 ^ (f.width - 1)) ∧ (∀ neg, decodeFloat f c ≠ .inf neg)
      ∧ (c ≠ 2 ^ (f.width - 1) → ∃ neg num den, decodeFloat f c = .fin neg num den ∧ 0 < den ∧ ¬ (neg = true ∧ num = 0)))
  ∧ (∀ c, c < 255 → ∃ num den, decodeFloat .ks8 c = .fin false num den ∧ 0 < num ∧ 0 < den
      ∧ num * (4 * 2 ^ 31) = (4 + c % 4) * 2 ^ (c / 4) * den ∧ den ≤ num * 2 ^ 31 ∧ 2 * num ≤ 3 * 2 ^ 32 * den
      ∧ (c = 0 → num * 2 ^ 31 = den) ∧ (c = 0xFE → 2 * num = 3 * 2 ^ 32 * den) ∧ (c = 0x7C → num = den))

/-- 04 R101: NOP, WAIT, SYNC and JUMP, with their frame. -/
def Obligations.SequencerPlainInstructionsFlow : Prop :=
  (∀ (s : State) (c : CoreId) (w : Nat), waitMet s c w = true →
    (FrontIs s c 0x00 w → ∃ t, exec (.nop c) s = .next t ∧ Flowed s t c w (pcOf s c + 1) [])
    ∧ (FrontIs s c 0x01 w → ∃ t, exec (.wait c) s = .next t ∧ Flowed s t c w (pcOf s c + 1) [])
    ∧ (FrontIs s c 0x02 w → outstanding s c = [] → ∃ t, exec (.sync c) s = .next t ∧ Flowed s t c w (pcOf s c + 1) [])
    ∧ (FrontIs s c 0x03 w → ∃ t, exec (.jump c) s = .next t ∧ Flowed s t c w (bits w 64 12) []))
  ∧ (∀ (s : State) (c : CoreId) (w : Nat), FrontIs s c 0x02 w → outstanding s c ≠ [] → ∃ t, exec (.sync c) s = .next t ∧ Halts s t c)
  ∧ (∀ (s : State) (c : CoreId) (w : Nat), waitMet s c w = false →
    ∀ e ∈ [(0x00, Instr.nop c), (0x01, .wait c), (0x02, .sync c), (0x03, .jump c), (0x04, .lapSet c), (0x05, .loop c), (0x06, .abSet c),
      (0x07, .abAdd c), (0x09, .split c), (0x0A, .callCc c), (0x0B, .endStep c)], FrontIs s c e.1 w → ∃ t, exec e.2 s = .next t ∧ Halts s t c)
  -- a post leaves for a counter of the core's own slot or of the slot it names; an instruction retires with its post
  ∧ (∀ (s : State) (c : CoreId) (w : Nat), (postCnt w = 0 → makePost s c w = s)
    ∧ (∀ x, postCnt w ≠ 0 → (if postRemote w then slotOfBits (postSlot w) else coreSlot s c) = some x →
        makePost s c w = { s with posts := s.posts ++ [⟨x, postPacer w, postIdx w, postCnt w⟩] }))
  ∧ (∀ (s : State) (c : CoreId) (e : QEntry), ((Machine.core s c).pend = [] → retired s c e = makePost s c e.word) ∧ MemKept s (retired s c e))

/-- 04 R101, R109, R110: LAP_SET, LOOP, AB_SET and AB_ADD, with their frame. -/
def Obligations.LapCountersAndAddressBases : Prop :=
  ∀ (s : State) (c : CoreId) (w : Nat), waitMet s c w = true →
    (FrontIs s c 0x04 w → ∃ t, exec (.lapSet c) s = .next t ∧ Flowed s t c w (pcOf s c + 1) [F.CO_LAP_COUNT c (bits w 64 3)]
        ∧ rd t (F.CO_LAP_COUNT c (bits w 64 3)) = bits w 96 32)
    ∧ (FrontIs s c 0x05 w →
        (rd s (F.CO_LAP_COUNT c (bits w 64 3)) = 0 →
          ∃ t, exec (.loop c) s = .next t ∧ Flowed s t c w (pcOf s c + 1) [])
        ∧ (rd s (F.CO_LAP_COUNT c (bits w 64 3)) = 1 →
          ∃ t, exec (.loop c) s = .next t ∧ Flowed s t c w (pcOf s c + 1) [F.CO_LAP_COUNT c (bits w 64 3)]
            ∧ rd t (F.CO_LAP_COUNT c (bits w 64 3)) = 0)
        ∧ (∀ n, rd s (F.CO_LAP_COUNT c (bits w 64 3)) = n + 2 → n + 2 < 2 ^ 32 →
          ∃ t, exec (.loop c) s = .next t ∧ Flowed s t c w (bits w 76 12) [F.CO_LAP_COUNT c (bits w 64 3)]
            ∧ rd t (F.CO_LAP_COUNT c (bits w 64 3)) = n + 1))
    ∧ (FrontIs s c 0x06 w → ∃ t, exec (.abSet c) s = .next t
        ∧ Flowed s t c w (pcOf s c + 1) [F.CO_AB_CUR_VALUE c (bits w 64 4), F.CO_AB_BASE_VALUE c (bits w 64 4)]
        ∧ rd t (F.CO_AB_CUR_VALUE c (bits w 64 4)) = bits w 80 48 ∧ rd t (F.CO_AB_BASE_VALUE c (bits w 64 4)) = bits w 80 48)
    ∧ (FrontIs s c 0x07 w → ∃ t, exec (.abAdd c) s = .next t
        ∧ Flowed s t c w (pcOf s c + 1) [F.CO_AB_CUR_VALUE c (bits w 64 4)]
        ∧ (rd t (F.CO_AB_CUR_VALUE c (bits w 64 4)) : Int) =
            (if bits w 72 24 = 0 then (rd s (F.CO_AB_CUR_VALUE c (bits w 64 4)) : Int) + signed 32 (bits w 96 32)
             else (rd s (F.CO_AB_BASE_VALUE c (bits w 64 4)) : Int)
               + ((rd s (F.CO_AB_CUR_VALUE c (bits w 64 4)) : Int) - rd s (F.CO_AB_BASE_VALUE c (bits w 64 4))
                  + signed 32 (bits w 96 32)) % ((bits w 72 24 * 64 : Nat) : Int)) % 2 ^ 48)

/-- 04 R101, R131: SPLIT, with its frame. -/
def Obligations.SplitRecordsTimebase : Prop :=
  ∀ (s : State) (c : CoreId) (w n : Nat), FrontIs s c 0x09 w → waitMet s c w = true →
    rd s (F.CO_SPLIT_NEXT_NEXT c) = n → n < 64 →
    ∃ t, exec (.split c) s = .next t
      ∧ rd t (F.CO_SPLIT_TIME_TIME c n) = now s % 2 ^ 64 ∧ rd t (F.CO_SPLIT_TAG_INDEX c n) = pcOf s c % 2 ^ 12
      ∧ rd t (F.CO_SPLIT_TAG_TAG c n) = bits w 64 32 ∧ rd t (F.CO_SPLIT_NEXT_NEXT c) = (n + 1) % 64
      ∧ rd t (F.CO_SPLIT_NEXT_WRAPPED c) = (if 64 ≤ (Machine.core s c).splits then 1 else rd s (F.CO_SPLIT_NEXT_WRAPPED c))
      ∧ rd t (F.CO_SEQ_STAT_INDEX c) = (pcOf s c + 1) % 2 ^ 12 ∧ t.posts = (makePost s c w).posts ∧ MemKept s t
      ∧ RegsKept s t [F.CO_SPLIT_TIME_TIME c n, F.CO_SPLIT_TAG_INDEX c n, F.CO_SPLIT_TAG_TAG c n, F.CO_SPLIT_NEXT_NEXT c,
          F.CO_SPLIT_NEXT_WRAPPED c, F.CO_SEQ_STAT_INDEX c, F.CO_SEQ_STAT_STALL c, waitFld c w]
      ∧ rd t (waitFld c w) = waitLeft s c w ∧ rd t (F.CO_SEQ_STAT_STALL c) = 0
      ∧ Machine.core t c = { gone s c with splits := min 64 ((Machine.core s c).splits + 1) }
      ∧ (∀ d, d ≠ c → Machine.core t d = Machine.core s d) ∧ t = { s with regs := t.regs, cores := t.cores, posts := t.posts }

/-- 04 R97, R99, R586; 11 R333: dispatch of an engine instruction. A CX_PACK counts for 10 R315; an empty queue times its new head (R119). -/
def Obligations.DispatchQueuesOrStops : Prop :=
  ∀ (s : State) (c : CoreId) (w : Nat), frontWord s c = some w → 1 ≤ engOf w → engOf w ≤ 5 →
    ((queueOf (Machine.core s c) (engOf w)).length < 16 → badOperand s c w (abValues s c) = none →
      ∃ t, exec (.instructionDispatch c) s = .next t
        ∧ queueOf (Machine.core t c) (engOf w) = queueOf (Machine.core s c) (engOf w) ++ [frontEntry s c w]
        ∧ (frontEntry s c w).ab = (List.range 16).map (fun n => rd s (F.CO_AB_CUR_VALUE c n)) ∧ (frontEntry s c w).word = w
        ∧ (frontEntry s c w).idx = pcOf s c ∧ (frontEntry s c w).seq = (Machine.core s c).seq
        ∧ (engOf w = 4 → opc w = 1 → (frontEntry s c w).desc = ldBytes s (rd s (F.CO_AB_CUR_VALUE c (bits w 64 4))) 128)
        ∧ (∀ e, e ≠ engOf w → queueOf (Machine.core t c) e = queueOf (Machine.core s c) e)
        ∧ Machine.core t c = { pushQueue (Machine.core s c) (engOf w) (frontEntry s c w) with
            seq := (Machine.core s c).seq + 1
            packed := (Machine.core s c).packed + (if engOf w = 5 ∧ opc w = 4 then 1 else 0)
            since := setAt (if queueOf (Machine.core s c) (engOf w) = [] then setAt (Machine.core s c).since (engOf w) s.stallClock
              else (Machine.core s c).since) 0 s.stallClock }
        ∧ rd t (F.CO_SEQ_STAT_INDEX c) = (pcOf s c + 1) % 2 ^ 12 ∧ rd t (F.CO_SEQ_STAT_STALL c) = 0
        ∧ (∀ d, d ≠ c → Machine.core t d = Machine.core s d)
        ∧ RegsKept s t [F.CO_SEQ_STAT_INDEX c, F.CO_SEQ_STAT_STALL c] ∧ t = { s with regs := t.regs, cores := t.cores })
    ∧ ((queueOf (Machine.core s c) (engOf w)).length = 16 → ∃ t, exec (.instructionDispatch c) s = .next t ∧ Halts s t c)
    ∧ (∀ b, (queueOf (Machine.core s c) (engOf w)).length < 16 → badOperand s c w (abValues s c) = some b →
      ∃ t, exec (.instructionDispatch c) s = .next t ∧ ProgramFaulted s t c 0x05 b (pcOf s c) (engOf w))

/-- 04 R101, R111, R112: the three modes of HURDLE. -/
def Obligations.HurdleInstructionsArriveAndWait : Prop :=
  ∀ (s : State) (c : CoreId) (w : Nat),
    let h := bits w 64 8
    let x := Machine.core s c
    let kept := fun (e : QEntry) => x.pend ++ [(⟨e, h⟩ : PendArrival)]
    let early := fun (e : QEntry) => ∃ p ∈ (kept e).head?, ∃ n ∈ outstanding s c, n < p.entry.seq
    let plain := frontEntry s c w
    let mute := frontEntry s c (setBits w 39 8 0)
    (frontHurdle s c 1 = some w → waitMet s c w = true →
      (outstanding s c = [] → ∃ t u, exec (.hurdleArrive c) s = .next t ∧ Arrived s u c w h
        ∧ (let v := tellMembers s u h
           rd t (F.CO_SEQ_STAT_INDEX c) = (pcOf s c + 1) % 2 ^ 12 ∧ rd t (F.CO_SEQ_STAT_STALL c) = 0
            ∧ t.posts = (makePost v c w).posts
            ∧ Machine.core t c = { Machine.core u c with since := setAt x.since 0 s.stallClock }
            ∧ RegsKept v t [F.CO_SEQ_STAT_INDEX c, F.CO_SEQ_STAT_STALL c]
            ∧ t = { v with regs := t.regs, cores := t.cores, posts := t.posts }))
      ∧ (early plain → ∃ t, exec (.hurdleArrive c) s = .next t
        ∧ rd t (F.CO_SEQ_STAT_INDEX c) = (pcOf s c + 1) % 2 ^ 12 ∧ rd t (F.CO_SEQ_STAT_STALL c) = 0 ∧ rd t (waitFld c w) = waitLeft s c w
        ∧ Machine.core t c = { gone s c with pend := kept plain } ∧ (∀ d, d ≠ c → Machine.core t d = Machine.core s d)
        ∧ RegsKept s t [F.CO_SEQ_STAT_INDEX c, F.CO_SEQ_STAT_STALL c, waitFld c w] ∧ t = { s with regs := t.regs, cores := t.cores }))
    ∧ (frontHurdle s c 2 = some w → waitMet s c w = true →
      ∃ t, exec (.hurdleWait c) s = .next t
        ∧ (if hurdlePassed s c h then Flowed s t c w (pcOf s c + 1) [] else Halts s t c))
    ∧ (frontHurdle s c 3 = some w → x.inWait = true →
      ∃ t, exec (.hurdleArriveWait c) s = .next t
        ∧ (if hurdlePassed s c h then rd t (F.CO_SEQ_STAT_INDEX c) = (pcOf s c + 1) % 2 ^ 12 ∧ rd t (F.CO_SEQ_STAT_STALL c) = 0
              ∧ Machine.core t c = { x with inWait := false, since := setAt x.since 0 s.stallClock }
              ∧ (∀ d, d ≠ c → Machine.core t d = Machine.core s d) ∧ t.posts = (makePost s c w).posts
              ∧ RegsKept s t [F.CO_SEQ_STAT_INDEX c, F.CO_SEQ_STAT_STALL c]
              ∧ t = { s with regs := t.regs, cores := t.cores, posts := t.posts }
           else Halts s t c))
    ∧ (frontHurdle s c 3 = some w → x.inWait = false → waitMet s c w = true →
      (outstanding s c = [] → ∃ t u, exec (.hurdleArriveWait c) s = .next t ∧ Arrived s u c w h
        ∧ (let v := tellMembers s u h
           rd t (F.CO_SEQ_STAT_STALL c) = 1 ∧ Machine.core t c = { Machine.core u c with inWait := true }
            ∧ RegsKept v t [F.CO_SEQ_STAT_STALL c] ∧ t = { v with regs := t.regs, cores := t.cores }))
      ∧ (early mute → ∃ t, exec (.hurdleArriveWait c) s = .next t
        ∧ rd t (F.CO_SEQ_STAT_STALL c) = 1 ∧ rd t (waitFld c w) = waitLeft s c w
        ∧ Machine.core t c = { x with seq := x.seq + 1, pend := kept mute, inWait := true }
        ∧ (∀ d, d ≠ c → Machine.core t d = Machine.core s d)
        ∧ RegsKept s t [F.CO_SEQ_STAT_STALL c, waitFld c w] ∧ t = { s with regs := t.regs, cores := t.cores }))
    ∧ (waitMet s c w = false →
      (frontHurdle s c 1 = some w → ∃ t, exec (.hurdleArrive c) s = .next t ∧ Halts s t c)
      ∧ (frontHurdle s c 2 = some w → ∃ t, exec (.hurdleWait c) s = .next t ∧ Halts s t c)
      ∧ (frontHurdle s c 3 = some w → x.inWait = false → ∃ t, exec (.hurdleArriveWait c) s = .next t ∧ Halts s t c))

/-- 04 R122, 08 R241: requests to a cluster control core. -/
def Obligations.ControlCoreServesCalls : Prop :=
  (∀ (s : State) (c : CoreId) (w : Nat), FrontIs s c 0x0A w → waitMet s c w = true →
    ∃ t r, exec (.callCc c) s = .next t ∧ cluster t c.cluster = { cluster s c.cluster with ccq := (cluster s c.cluster).ccq ++ [r] }
      ∧ r.core = c ∧ r.routine = bits w 64 6 ∧ r.arg = rd s (F.CO_AB_CUR_VALUE c (bits w 70 4)) ∧ r.done = false
      ∧ r.entry.word = w ∧ r.entry.idx = pcOf s c ∧ r.entry.seq = (Machine.core s c).seq
      ∧ rd t (F.CO_SEQ_STAT_INDEX c) = (pcOf s c + 1) % 2 ^ 12 ∧ rd t (F.CO_SEQ_STAT_STALL c) = 0
      ∧ rd t (waitFld c w) = waitLeft s c w ∧ Machine.core t c = gone s c ∧ (∀ d, d ≠ c → Machine.core t d = Machine.core s d)
      ∧ (∀ k, k ≠ c.cluster → cluster t k = cluster s k)
      ∧ RegsKept s t [F.CO_SEQ_STAT_INDEX c, F.CO_SEQ_STAT_STALL c, waitFld c w]
      ∧ t = { s with regs := t.regs, cores := t.cores, clusters := t.clusters })
  ∧ (∀ (s : State) (k : ClusterId) (r : CcReq) (rest : List CcReq) (rs : List (CcPlace × Nat)) (w : List (CcPlace × List Byte))
      (ds : List (Fin 8 × List Byte)), (cluster s k).ccq = r :: rest →
    let served := fun (u : State) => setCluster u k { cluster u k with ccq := rest }
    let firmware := s.prog.any (fun p => (p.routines.find? (fun e => e.1 == k.key && e.2.1 == r.routine)).any (fun e => e.2.2.1 == 1))
    let inside := (∀ e ∈ rs, routineMay k e.1 e.2 = true) ∧ (∀ e ∈ w, routineMay k e.1 e.2.length = true)
    (firmware = true → r.done = false → exec (.callCcComplete k ⟨rs, w⟩ ds) s = .next s)
    ∧ (firmware = true → r.done = true → exec (.callCcComplete k ⟨rs, w⟩ ds) s = .next (retired (served s) r.core r.entry))
    ∧ (firmware = false → inside → routineRoom s k ds = true →
      ∃ u v t, exec (.callCcComplete k ⟨rs, w⟩ ds) s = .next t
        -- the data memory and what was stored, in order
        ∧ u = w.foldl (fun (y : State) e => routineWrite y k e) s
        -- the descriptors, per slot and in order
        ∧ (∀ (j : Fin 8) (c : CoreId), slotCore s ⟨k.die, k.cl, j⟩ = some c → (∀ i : Fin 8, slotCore s ⟨k.die, k.cl, i⟩ = some c → i = j) →
            ((Machine.core v c).sq.drop (Machine.core s c).sq.length).map StreamEntry.desc
                = (ds.filter (fun e => e.1 == j)).map (fun e => sliceBytes e.2 0 128)
              ∧ (Machine.core v c).sq.take (Machine.core s c).sq.length = (Machine.core s c).sq
              ∧ { Machine.core v c with sq := [] } = { Machine.core s c with sq := [] })
        ∧ v = { u with cores := v.cores }
        -- the request's end
        ∧ t = retired (served v) r.core r.entry)
    ∧ (firmware = false → inside → routineRoom s k ds = false → exec (.callCcComplete k ⟨rs, w⟩ ds) s = .next s)
    ∧ (firmware = false → ¬ inside →
      ∃ t, exec (.callCcComplete k ⟨rs, w⟩ ds) s = .next t ∧ ProgramFaulted (served s) t r.core 0x05 (bits r.entry.word 70 4) r.entry.idx 0)
    -- what the end of a request does: its post; and with no arrival waiting behind it nothing else
    ∧ ((Machine.core s r.core).pend = [] → ∃ t, retired (served s) r.core r.entry = t ∧ cluster t k = { cluster s k with ccq := rest }
        ∧ t.posts = (makePost s r.core r.entry.word).posts ∧ t = { s with clusters := t.clusters, posts := t.posts }))
  ∧ (∀ (s : State) (k : ClusterId) (a off : Nat) (bs : List Byte),
    routineWrite s k (.store a, bs) = stBytes s a bs
    ∧ (∀ i, mapGet 0 (cluster (routineWrite s k (.data off, bs)) k).dmem i
        = (if off ≤ i ∧ i < off + bs.length then (bs.getD (i - off) 0).toNat else mapGet 0 (cluster s k).dmem i)))

/-- 04 R120, 16 R479: END_STEP; shareComplete is the completion of the module's share. -/
def Obligations.EndStepHaltsOrFindsResidue : Prop :=
  (∀ (s : State) (c : CoreId) (w : Nat), FrontIs s c 0x0B w →
    let ready := waitMet s c w = true ∧ outstanding s c = [] ∧ (Machine.core s c).mx.unver = [] ∧ (Machine.core s c).mx.refeed = []
    let u := flushAllFlags (nextSeq (takeWait s c w) c) c
    (ready → ∃ t, exec (.endStep c) s = .next t ∧
        (match residueAt u c with
         | none => ∃ v, rd v (F.CO_SEQ_STAT_STATE c) = 2 ∧ rd v (F.CO_SEQ_STAT_STALL c) = 0 ∧ v.posts = (makePost u c w).posts
             ∧ RegsKept u v [F.CO_SEQ_STAT_STATE c, F.CO_SEQ_STAT_STALL c] ∧ v = { u with regs := v.regs, posts := v.posts }
             ∧ t = shareComplete v
         | some n => ProgramFaulted u t c 0x04 n (pcOf u c) 0))
    ∧ (¬ ready → ∃ t, exec (.endStep c) s = .next t ∧ Halts s t c)
    ∧ ((Machine.core s c).mx.flags = [] → rd u (waitFld c w) = waitLeft s c w ∧ RegsKept s u [waitFld c w]
        ∧ u = { s with regs := u.regs, cores := u.cores })
    ∧ ((∀ n < 64, rd s (F.CO_BT_COUNT c n) = 0) ∧ (∀ n < 16, rd s (F.CO_PA_LIMIT c n) ≤ rd s (F.CO_PA_COUNT c n)) ↔
        residueAt s c = none)
    ∧ (∀ n, residueAt s c = some n → (n < 64 ∧ rd s (F.CO_BT_COUNT c n) ≠ 0 ∧ ∀ m < n, rd s (F.CO_BT_COUNT c m) = 0)
        ∨ (n < 16 ∧ rd s (F.CO_PA_COUNT c n) < rd s (F.CO_PA_LIMIT c n) ∧ ∀ m < 64, rd s (F.CO_BT_COUNT c m) = 0)))
  ∧ (∀ s : State, (s.run = none ∨ ∃ c ∈ occupiedCores s, rd s (F.CO_SEQ_STAT_STATE c) ≠ 2) → shareComplete s = s)
  ∧ (∀ (s : State) (r : StepRun), s.run = some r → r.halted = false → r.started = true →
    (∀ c ∈ occupiedCores s, rd s (F.CO_SEQ_STAT_STATE c) = 2) →
    let ok := if r.replays = 0 then 0 else 0x20
    let done := { s with run := some { r with halted := true } }
    (r.program = true → shareComplete s = endRun (finish s r.ring r.seq ok 0 []) ∧ (shareComplete s).run = none
      ∧ rd (shareComplete s) F.CMD_STAT_STEP_STATE = (if s.prog.isSome then 1 else 0))
    ∧ (r.program = false → r.committing = false → r.commit = false →
      shareComplete s = setStepState (finish done r.ring r.seq ok 0 (stepResult done r.step r.replays)) 3
      ∧ rd (shareComplete s) F.CMD_STAT_STEP_STATE = 3 ∧ (shareComplete s).run = some { r with halted := true })
    ∧ (r.program = false → r.committing = true → rd (shareComplete s) F.CMD_STAT_STEP_STATE = 4
      ∧ (shareComplete s).run = some { r with halted := true, cTime := now s } ∧ RegsKept s (shareComplete s) [F.CMD_STAT_STEP_STATE]
      ∧ shareComplete s = { s with regs := (shareComplete s).regs, fired := (shareComplete s).fired, run := (shareComplete s).run })
    ∧ (r.program = false → r.committing = false → r.commit = true → rd (shareComplete s) F.CMD_STAT_STEP_STATE = 4
      ∧ (shareComplete s).run = some { r with halted := true, committing := true, cRing := r.ring, cSeq := r.seq, cRounds := r.rounds, cRoundVc := r.roundVc, round := 0, cTime := now s, cLimit := r.limit }
      ∧ RegsKept s (shareComplete s) [F.CMD_STAT_STEP_STATE]
      ∧ shareComplete s = { s with regs := (shareComplete s).regs, fired := (shareComplete s).fired, run := (shareComplete s).run }))

/-- 04 R102, R103, R105, R107, R119, 20 R569: posts and returns arriving at a counter, where INDEX and ENG of the fault are free (log 6); the
stall timer. -/
def Obligations.PostsAndTimeoutsFault : Prop :=
  (∀ (s : State) (x : SlotId) (n : Nat),
    (∀ bt : Fin 64, (⟨x, false, bt.val, n⟩ : Post) ∈ s.posts →
      let u := wakeCluster { s with posts := s.posts.erase ⟨x, false, bt.val, n⟩ } x.cluster
      ∃ t, exec (.batonPost x bt n) s = .next t ∧
        match slotCore u x with
        | none => t = u
        | some c =>
          let f := F.CO_BT_COUNT c bt.val
          if rd u f + n ≤ 65535 then rd t f = rd u f + n ∧ RegsKept u t [f] ∧ OnlyRegs u t
          else ∃ i e, ProgramFaulted { u with free := u.free + 2 } t c 0x01 bt.val i e)
    ∧ (∀ pa : Fin 16, (⟨x, true, pa.val, n⟩ : Post) ∈ s.posts →
      let u := wakeCluster { s with posts := s.posts.erase ⟨x, true, pa.val, n⟩ } x.cluster
      ∃ t, exec (.pacerReturn x pa n) s = .next t ∧
        match slotCore u x with
        | none => t = u
        | some c =>
          let f := F.CO_PA_COUNT c pa.val
          if rd u f + n ≤ rd u (F.CO_PA_LIMIT c pa.val) then rd t f = (rd u f + n) % 2 ^ 16 ∧ RegsKept u t [f] ∧ OnlyRegs u t
          else ∃ i e, ProgramFaulted { u with free := u.free + 2 } t c 0x02 pa.val i e)
    ∧ (∀ bt : Fin 64, (⟨x, false, bt.val, n⟩ : Post) ∉ s.posts → exec (.batonPost x bt n) s = .next s)
    ∧ (∀ pa : Fin 16, (⟨x, true, pa.val, n⟩ : Post) ∉ s.posts → exec (.pacerReturn x pa n) s = .next s)
    ∧ slotCore (wakeCluster s x.cluster) x = slotCore s x
    ∧ (rd s (clStateFld x.cluster) = 0 → wakeCluster s x.cluster = s)
    ∧ (rd s (clStateFld x.cluster) ≠ 0 → rd (wakeCluster s x.cluster) (clStateFld x.cluster) = 0 ∧ MemKept s (wakeCluster s x.cluster)
        ∧ ∀ c : CoreId, (∀ i < 64, rd (wakeCluster s x.cluster) (F.CO_BT_COUNT c i) = rd s (F.CO_BT_COUNT c i))
          ∧ ∀ i < 16, rd (wakeCluster s x.cluster) (F.CO_PA_COUNT c i) = rd s (F.CO_PA_COUNT c i)))
  ∧ (∀ (s : State) (c : CoreId) (eng : Engine),
    let late := rd s F.ID_REPLAY_PHASE = 0 ∧ 8 ≤ rd s F.PWR_STAT_DUTY_MIN
      ∧ (Machine.core s c).since.getD eng.code 0 + 1000 * rd s (F.CO_STALL_LIMIT_LIMIT c) < s.stallClock
    (¬ late → exec (.stallTimeout c eng) s = .next s)
    ∧ (unmetWait s c eng = none → exec (.stallTimeout c eng) s = .next s)
    ∧ (∀ i n, late → unmetWait s c eng = some (i, n) →
      ∃ t, exec (.stallTimeout c eng) s = .next t ∧ ProgramFaulted s t c 0x03 n i eng.code))

/-- 05 R135, R149, R151, R152, R161, R162; 04 R98, R102; 01 R18: a pass of the matrix engine, and what every engine does as it takes a head. -/
def Obligations.MacAddsAPass : Prop :=
  (∀ (s : State) (c : CoreId) (e : QEntry) (err : StoreErr), readyHead s c 1 (fun w => opc w == 1 && !bit w 121) = some e →
    let b := bits e.word 64 2
    let clear := bit e.word 66
    let head := takeHead (storeError s c err) c 1 e
    let m := (Machine.core s c).mx
    let u := if clear then flushFlags head c b (m.epoch.getD b 0) 0xFFFF 0xFFFF else head
    let m0 := if clear then resetStatus m b else m
    (arrayFree s c e = true → err ≠ .uncorrectable →
      ∃ t p, exec (.mac c err) s = .next t ∧ (Machine.core t c).mx.cur = some p ∧ p.entry = e ∧ p.bank = b
        ∧ p.frozen = frozenRows head e.word e.ab ∧ p.products = (p.frozen != 2 ^ 128 - 1)
        ∧ p.prior = m.banks.getD b [] ∧ p.priorSt = m.status.getD b 0 ∧ p.priorRm = m.rowmask.getD b 0
        ∧ (Machine.core t c).mx.banks = setAt m.banks b p.after
        ∧ (Machine.core t c).mx.status = setAt m0.status b (statusPass (m0.status.getD b 0) (tbFfmt (rd s (F.TB_CFG_CFG c (bits e.word 71 5)))) (p.frozen != 0))
        ∧ (Machine.core t c).mx.rowmask = setAt m0.rowmask b (rowmaskPass (m0.status.getD b 0) (m0.rowmask.getD b 0) p.frozen)
        ∧ (Machine.core t c).mx.epoch = m0.epoch ∧ (Machine.core t c).mx.unver.map Pass.entry = m.unver.map Pass.entry
        ∧ (Machine.core t c).mq = (Machine.core s c).mq.drop 1
        ∧ (∀ i < 128, ∀ j < 128, bit p.frozen i = true → bankAt p.after i j = if clear then 0 else bankAt (m.banks.getD b []) i j)
        ∧ (∀ i < 128, ∀ j < 128, bit p.frozen i = false →
            let ca := rd head (F.TB_CFG_CFG c (bits e.word 71 5))
            let cb := rd head (F.TB_CFG_CFG c (bits e.word 76 5))
            let base := e.ab.getD (bits e.word 67 4) 0
            let k := 32 * bits e.word 81 4
            bankAt p.after i j = (cellPass (flushOn head c) (!(alignedOp ca && alignedOp cb)) (runEnds ca cb k)
              (if clear then 0 else bankAt (m.banks.getD b []) i j)
              ((operandRows head (flushOn head c) ca base (base + 64 * bits e.word 95 10) k).getD i [])
              ((operandRows head (flushOn head c) cb (base + 64 * bits e.word 85 10) (base + 64 * bits e.word 105 10) k).getD j [])).1)
        ∧ (∀ d, d ≠ c → Machine.core t d = Machine.core s d)
        ∧ t = { (if p.products then u else bump u (F.MX_BLK_SKIP_COUNT c) 1) with cores := t.cores })
    ∧ (arrayFree s c e = true → err = .uncorrectable → exec (.mac c err) s = .next (storeError s c err))
    ∧ (arrayFree s c e = false → exec (.mac c err) s = .next s))
  ∧ (∀ (s : State) (c : CoreId) (n : Nat) (e : QEntry), 1 ≤ n → n ≤ 5 → HeadTaken s (takeHead s c n e) c n e)
  ∧ (∀ (s : State) (c : CoreId), storeError s c .clean = s
    ∧ storeError s c .corrected = { s with storeErrs := (storeError s c .corrected).storeErrs, events := satOf s s, fired := s.fired ++ [clSrc c.cluster 13] }
    ∧ mapGet 0 (storeError s c .corrected).storeErrs (coreUnit c) = mapGet 0 s.storeErrs (coreUnit c) + 1
    ∧ (rd s F.ID_FLT_NEXT_NEXT < 16 → rdb (storeError s c .uncorrectable) (F.ID_FLT_LOG_W0_VALID (rd s F.ID_FLT_NEXT_NEXT)) = true
        ∧ (s.run.isSome = true → (coreUnit c, 0x04) ∈ (storeError s c .uncorrectable).faults)
        ∧ (Machine.core (storeError s c .uncorrectable) c).mq = (Machine.core s c).mq
        ∧ MemKept s (storeError s c .uncorrectable)))

/-- 09 R265, R274; 05 R152: depth-wise passes. -/
def Obligations.DepthwisePassReadsTheRing : Prop :=
  ∀ (s : State) (c : CoreId) (e : QEntry) (err : StoreErr), readyHead s c 1 (fun w => opc w == 1 && bit w 121) = some e →
    let d := dwOf (ldBytes s (e.ab.getD (bits e.word 117 4) 0) 32)
    let r := windowOf (ldBytes s d.wrec 64)
    let cfg := rd s (F.TB_CFG_CFG c (bits e.word 71 5))
    let cb := rd s (F.TB_CFG_CFG c (bits e.word 76 5))
    let ffmt := tbFfmt cfg
    let head := takeHead (storeError s c err) c 1 e
    let beyond := decide (outCount r ≤ d.first)
    let ring := if beyond then (Machine.core s c).ring else (deliver head c e d).1
    let busy := !beyond && (Machine.core s c).mx.unver.any (fun p => p.places.any (fun q => (deliverPlaces ffmt d).contains q))
    let b := bits e.word 64 2
    let old := (Machine.core s c).mx.banks.getD b []
    let has := fun (n : Nat) => (mapFind ring (n % ringSize ffmt)).any (fun q => q.tag == n)
    let base := e.ab.getD (bits e.word 67 4) 0
    let filt := tileElems head (flushOn head c) cb (base + 64 * bits e.word 85 10) (base + 64 * bits e.word 105 10) r.taps 128
    let chan := fun (p : Option Nat) (j : Nat) => match p with
      | none => Elem.zero
      | some n => let q := mapGet ⟨0, [], [], 0⟩ ring (n % ringSize ffmt)
                  elemOf ((Fmt.ofCode ffmt).getD .k8m) q.shift (q.codes.getD j 0) (q.scales.getD j 0x7C) {}
    let padding := !beyond && (dwReads r d).all (fun l => l.all Option.isNone)
    (arrayFree s c e = true → busy = false → err ≠ .uncorrectable → (∀ l ∈ dwReads r d, ∀ n, some n ∈ l → has n = true) →
      ∃ t p, exec (.macDepthwise c err) s = .next t ∧ (Machine.core t c).mx.cur = some p ∧ p.entry = e ∧ p.bank = b
        ∧ (Machine.core t c).ring = ring ∧ (Machine.core t c).mq = (Machine.core s c).mq.drop 1
        ∧ (Machine.core t c).mx.banks = setAt (Machine.core s c).mx.banks b p.after
        ∧ (beyond = true → p.products = false ∧ ∀ i < 128, ∀ j < 128, bankAt p.after i j = if bit e.word 66 then 0 else bankAt old i j)
        ∧ (padding = true → p.products = false ∧ p.omitted = true
            ∧ (∀ i < 128, ∀ j < 128, bankAt p.after i j = if bit e.word 66 then 0 else bankAt old i j)
            ∧ (bit e.word 66 = false → (Machine.core t c).mx.status = (Machine.core s c).mx.status
                ∧ (Machine.core t c).mx.rowmask = (Machine.core s c).mx.rowmask))
        ∧ (beyond = false → padding = false → p.products = (p.frozen != 2 ^ 128 - 1)
            ∧ (∀ i < 128, bit p.frozen i = decide (outCount r ≤ d.first + i))
            ∧ ∀ i < 128, d.first + i < outCount r → ∀ j < 128,
              bankAt p.after i j = (cellPass (flushOn head c) true (fun _ => false) (if bit e.word 66 then 0 else bankAt old i j)
                (((dwReads r d).getD i []).map (fun q => chan q j)) (filt.map (fun row => row.getD j Elem.zero))).1)
        ∧ MemKept s t ∧ (∀ d, d ≠ c → Machine.core t d = Machine.core s d))
    ∧ (arrayFree s c e = true → busy = false → err ≠ .uncorrectable → (∃ l ∈ dwReads r d, ∃ n, some n ∈ l ∧ has n = false) →
      ∃ t, exec (.macDepthwise c err) s = .next t
        ∧ ProgramFaulted (setCore head c { Machine.core head c with ring := ring }) t c 0x05 (bits e.word 67 4) e.idx 1)
    ∧ (arrayFree s c e = false ∨ busy = true → exec (.macDepthwise c err) s = .next s)
    ∧ (arrayFree s c e = true → busy = false → err = .uncorrectable → exec (.macDepthwise c err) s = .next (storeError s c err))

/-- 05 R138, R156, R157, R158, R160, R162: retirement, verification and the end of a re-feed. -/
def Obligations.PassesRetireAndVerify : Prop :=
  ∀ (s : State) (c : CoreId), running s c = true →
    let m := (Machine.core s c).mx
    (∀ p, m.cur = some p → m.refeed = [] →
      let q := pendFor m.flags p.bank p.epoch
      let u := coreFlags s c p.conv
      ∃ t v, exec (.macRetire c) s = .next t ∧ t = retired v c p.entry ∧ v = { u with cores := v.cores }
        ∧ (∀ d, d ≠ c → Machine.core v d = Machine.core s d)
        ∧ Machine.core v c =
          { Machine.core s c with
            mx := { m with
              cur := none
              status := setAt m.status p.bank (if m.epoch.getD p.bank 0 = p.epoch then orBits (m.status.getD p.bank 0) (statusBits p.conv.flags)
                else m.status.getD p.bank 0)
              unver := if p.products then m.unver ++ [p] else m.unver
              skipped := if !p.products && m.unver.any (fun q => q.bank == p.bank) then m.skipped ++ [p] else m.skipped
              flags := if p.conv.occs = [] then m.flags else setPend m.flags { q with occs := p.conv.occs.foldl occAdd q.occs } } })
    ∧ (∀ p rest, m.unver = p :: rest → m.refeed = [] → compareFails p.ffmt p.frozen p.check = (none, none) →
      let u := bump s (F.MX_CHK_PASSES_COUNT c) 1
      let q := pendFor m.flags p.bank p.epoch
      ∃ t v, exec (.passVerified c) s = .next t ∧ v = { u with cores := v.cores } ∧ (∀ d, d ≠ c → Machine.core v d = Machine.core s d)
        ∧ Machine.core v c =
          { Machine.core s c with
            mx := { m with
              unver := rest
              skipped := m.skipped.filter (fun q => rest.any (fun p => p.bank == q.bank && decide (p.entry.seq < q.entry.seq)))
              flags := if p.flagsDue then m.flags else setPend m.flags { q with sum := q.sum.join p.arith } } }
        ∧ t = (if p.flagsDue then logOccs (coreFlags v c p.arith) c 0xFFFF 0xFFFF p.arith.occs else v))
    ∧ (m.refeed ≠ [] → exec (.macRetire c) s = .next s ∧ exec (.passVerified c) s = .next s)
    ∧ (∀ p ps (err : StoreErr), m.refeed = p :: ps →
      let fed := inOrder (p :: ps) m.skipped
      (err ≠ .uncorrectable → ∃ t, exec (.refeedDone ⟨c, err⟩) s = .next t ∧ (Machine.core t c).mx.refeed = []
        ∧ (Machine.core t c).mx.banks = (fed ++ m.cur.toList).foldl (fun bs q => setAt bs q.bank q.after) m.banks
        ∧ (Machine.core t c).mx.epoch = (fed ++ m.cur.toList).foldl (fun es q => setAt es q.bank q.epoch) m.epoch
        ∧ (Machine.core t c).mx.unver.map (fun q => (q.entry, q.after, q.refed)) = (fed.filter (fun q => q.products)).map (fun q => (q.entry, q.after, true))
        ∧ (Machine.core t c).mx.skipped.map (fun q => (q.entry, q.after)) = (fed.filter (fun q => !q.products)).map (fun q => (q.entry, q.after))
        ∧ (m.cur = none → (Machine.core t c).mx.status = (fed.foldl (applyAgain true) m).status)
        ∧ (∀ d, d ≠ c → Machine.core t d = Machine.core s d) ∧ t = { storeError s c err with cores := t.cores })
      ∧ (err = .uncorrectable → exec (.refeedDone ⟨c, err⟩) s = .next (storeError s c err)))

/-- 05 R152, R154 to R160; 18 R516: mismatches of a pass. -/
def Obligations.MismatchRestoresAndRefeeds : Prop :=
  (∀ (s : State) (c : CoreId), running s c = true →
    let m := (Machine.core s c).mx
    let u := countMismatch (bump s (F.MX_CHK_PASSES_COUNT c) 1) c
    let fails := fun (i : Instr) (p : Pass) (rest : List Pass) (row col : Nat) =>
      (p.compared < 2 →
        let q := pendFor m.flags p.bank p.epoch
        let again := { p with compared := p.compared + 1, retries := p.retries + 1 }
        let back := (inOrder (p :: rest) m.skipped ++ m.cur.toList).reverse
        ∃ t, exec i s = .next t ∧ (Machine.core t c).mx =
            { m with
              banks := back.foldl (fun bs q => setAt bs q.bank q.prior) m.banks
              status := back.foldl (fun l q => setAt l q.bank q.priorSt) m.status
              rowmask := back.foldl (fun l q => setAt l q.bank q.priorRm) m.rowmask
              epoch := back.foldl (fun l q => setAt l q.bank q.priorEp) m.epoch
              unver := again :: rest
              refeed := again :: rest
              waits := m.emits.map (fun e => e.seq)
              flags := setPend m.flags { q with occs := occAdd q.occs ⟨5, 0, p.entry.idx, row, col⟩ } }
          ∧ (∀ d, d ≠ c → Machine.core t d = Machine.core u d) ∧ t = { u with cores := t.cores })
      ∧ (2 ≤ p.compared → ∃ t, exec i s = .next t ∧ rd t (F.CO_SEQ_STAT_STATE c) = 3 ∧ rd t (F.CO_FAULT_CODE c) = rd u (F.CO_FAULT_CODE c)
          ∧ (s.run.isSome = true → (coreUnit c, 0x01) ∈ t.faults) ∧ MemKept u t)
    (m.refeed = [] → ∀ p rest, m.unver = p :: rest →
      (∀ cells rowLane colLane,
        let k := upset p.check cells rowLane colLane
        let i := Instr.passMismatch c (.compare cells rowLane colLane)
        (∀ row col, compareFails p.ffmt p.frozen k = (row, col) → row.isSome = true ∨ col.isSome = true →
          rd s F.ID_FLT_NEXT_NEXT < 16 → fails i p rest (row.getD 0xFF) (col.getD 0xFF))
        ∧ (compareFails p.ffmt p.frozen k = (none, none) → ∃ t, exec i s = .next t ∧ (Machine.core t c).mx.unver = rest
            ∧ (Machine.core t c).mx.banks = m.banks ∧ (p.flagsDue = false → t = { bump s (F.MX_CHK_PASSES_COUNT c) 1 with cores := t.cores })))
      ∧ (∀ op row a b res rem,
        (residueFails op a b res rem = true → bit p.frozen row.val = false → rd s F.ID_FLT_NEXT_NEXT < 16 →
          fails (.passMismatch c (.residue op row a b res rem)) p rest 0xFF 0xFF)
        ∧ (residueFails op a b res rem = false ∨ bit p.frozen row.val = true → exec (.passMismatch c (.residue op row a b res rem)) s = .next s)))
    ∧ (∀ (a b : BitVec 32) p, m.cur = some p → p.products = true →
      (a ≠ b → exec (.passMismatch c (.turnPath a b)) s = .next (countMismatch s c))
      ∧ (a = b → exec (.passMismatch c (.turnPath a b)) s = .next s)))
  ∧ (∀ (s : State) (c : CoreId), Room s (F.MX_CHK_MISS_COUNT c) → rd s (F.MX_CHK_MISS_COUNT c) < 2 →
      let t := countMismatch s c
      rd t (F.MX_CHK_MISS_COUNT c) = rd s (F.MX_CHK_MISS_COUNT c) + 1 ∧ rd t (F.MX_CHK_AT_COUNT c 2) = rd s (F.MX_CHK_AT_COUNT c 1) % 2 ^ 64
        ∧ rd t (F.MX_CHK_AT_COUNT c 1) = rd s (F.MX_CHK_AT_COUNT c 0) % 2 ^ 64 ∧ rd t (F.MX_CHK_AT_COUNT c 0) = rd s (F.MX_CHK_PASSES_COUNT c) % 2 ^ 64
        ∧ RegsKept s t [F.MX_CHK_MISS_COUNT c, F.MX_CHK_AT_COUNT c 0, F.MX_CHK_AT_COUNT c 1, F.MX_CHK_AT_COUNT c 2] ∧ OnlyRegs s t)

/-- 05 R142 to R144, R161 to R166: EMIT, its token, and TB_CFG. -/
def Obligations.EmitAndConfigureComplete : Prop :=
  (∀ (s : State) (c : CoreId) (e : QEntry), readyHead s c 1 (fun w => opc w == 2) = some e →
    let b := bits e.word 64 2
    (bankState (Machine.core s c) b = 0 →
      ∃ t, exec (.emit c) s = .next t ∧ bankState (Machine.core t c) b = 1
        ∧ Machine.core t c =
          { Machine.core s c with
            mq := (Machine.core s c).mq.drop 1
            since := setAt (Machine.core s c).since 1 s.stallClock
            mx := { (Machine.core s c).mx with emits := (Machine.core s c).mx.emits ++ [e] } }
        ∧ rd t (waitFld c e.word) = waitLeft s c e.word ∧ RegsKept s t [waitFld c e.word] ∧ OnlyCore s t c)
    ∧ (bankState (Machine.core s c) b ≠ 0 → exec (.emit c) s = .next s))
  ∧ (∀ (s : State) (c : CoreId) (e : QEntry) (rest : List QEntry), running s c = true → (Machine.core s c).mx.emits = e :: rest →
    let m := (Machine.core s c).mx
    let b := bits e.word 64 2
    let ready := m.refeed = [] ∧ (∀ p ∈ m.unver, p.bank ≠ b) ∧ (∀ p, m.cur = some p → p.bank ≠ b)
      ∧ (e.seq ∈ m.waits → ∀ p ∈ m.unver, p.refed = false)
    let rm := if bits (m.status.getD b 0) 12 8 = 0 then 0 else m.rowmask.getD b 0
    let inf := bit e.word 66 && (m.banks.getD b []).any (fun x => x.2 == infCode .k32 false && !bit rm (x.1 / 128))
    (ready → ∃ t u tok, exec (.emitTokenEnter c) s = .next t ∧ u = { s with cores := u.cores } ∧ (∀ d, d ≠ c → Machine.core u d = Machine.core s d)
        ∧ (Machine.core u c).mx.zone = m.zone ++ [tok] ∧ (Machine.core u c).mx.emits = rest ∧ (Machine.core u c).mx.banks = m.banks
        ∧ tok.bank = b ∧ tok.trow = bits e.word 80 16 ∧ tok.tcol = bits e.word 96 16 ∧ tok.index = e.idx ∧ tok.rowmask = rm
        ∧ tok.status = (if inf then setBits (bankStatus m b) 4 1 1 else bankStatus m b)
        ∧ (inf = false → Machine.core u c = { Machine.core s c with mx := { m with emits := rest, zone := m.zone ++ [tok] } })
        ∧ t = retired (flushFlags u c b (m.epoch.getD b 0) tok.trow tok.tcol) c e
        ∧ (Machine.core t c).mx.zone = m.zone ++ [tok] ∧ MemKept s t)
    ∧ (¬ ready → exec (.emitTokenEnter c) s = .next s))
  ∧ (∀ (s : State) (c : CoreId) (e : QEntry), readyHead s c 2 (fun w => opc w == 1) = some e →
    let slot := bits e.word 64 5
    let named := (Machine.core s c).mq.any (fun q => decide (q.seq < e.seq) && opc q.word == 1 && (bits q.word 71 5 == slot || bits q.word 76 5 == slot))
    (named = false → ∃ t u, exec (.tbCfg c) s = .next t ∧ rd u (F.TB_CFG_CFG c slot) = e.word / 2 ^ 64 % 2 ^ 64
        ∧ RegsKept (takeHead s c 2 e) u [F.TB_CFG_CFG c slot] ∧ OnlyRegs (takeHead s c 2 e) u ∧ t = retired u c e
        ∧ rd t (F.TB_CFG_CFG c slot) = e.word / 2 ^ 64 % 2 ^ 64)
    ∧ (named = true → exec (.tbCfg c) s = .next s))

/-- 06 R198, R199, R201, R203; 10 R307, R315; 03 R89, R94: taking and retiring a VX. -/
def Obligations.ChainTakesAndRetiresVx : Prop :=
  (∀ (s : State) (c : CoreId) (e : QEntry) (err : StoreErr), readyHead s c 3 (fun w => opc w == 1) = some e →
    let v := vxIns s c e
    let x := Machine.core s c
    let held := heldAfterTake x v
    let head := takeHead (storeError s c err) c 3 e
    let bare := fun (f : VxFlight) => ({ f with hand := [], handTo := 0, handEnd := 0 } : VxFlight)
    let new := vxFlight head c e v held
    (vxReady s c v = true → err ≠ .uncorrectable →
      ∃ t, exec (.vx c err) s = .next t
        ∧ Machine.core t c = claimHandoffs
            { Machine.core head c with
              mx := { x.mx with zone := if v.take then x.mx.zone.drop 1 else x.mx.zone }
              ch := { x.ch with held := held, vxs := x.ch.vxs ++ [new] } }
        ∧ (Machine.core t c).ch.vxs.map bare = x.ch.vxs.map bare ++ [bare new] ∧ new.entry = e ∧ new.elems = 256 * v.vlen
        ∧ new.writes = vxWrites v held ∧ (Machine.core t c).ch.held = held ∧ (Machine.core t c).ch.vr = x.ch.vr ∧ (Machine.core t c).ch.mask = x.ch.mask
        ∧ (Machine.core t c).mx.zone = (if v.take then x.mx.zone.drop 1 else x.mx.zone) ∧ (Machine.core t c).mx.banks = x.mx.banks
        ∧ (Machine.core t c).vq = x.vq.drop 1 ∧ (∀ d, d ≠ c → Machine.core t d = Machine.core s d) ∧ RegsKept s t [waitFld c e.word]
        ∧ t = { head with cores := t.cores })
    ∧ (vxReady s c v = true → err = .uncorrectable → exec (.vx c err) s = .next (storeError s c err))
    ∧ (vxReady s c v = false → exec (.vx c err) s = .next s))
  ∧ (∀ x : CoreSt, (∃ packs vxs, claimHandoffs x = { x with packs := packs, ch := { x.ch with vxs := vxs } })
    ∧ ((∀ f ∈ x.ch.vxs, f.handoff = false ∨ f.hand = []) → claimHandoffs x = x)
    ∧ ((∀ j ∈ x.packs, j.dma = true ∨ j.left = 0) → claimHandoffs x = x)
    ∧ (∀ f j, x.ch.vxs = [f] → x.packs = [j] → f.handoff = true → f.hand ≠ [] → j.dma = false → 0 < j.left →
        claimHandoffs x =
          { x with
            packs := [{ j with buf := j.buf ++ f.hand, fed := j.fed + f.hand.length, left := j.left - 1 }]
            ch := { x.ch with vxs := [{ f with hand := [], handTo := j.entry.seq, handEnd := j.fed + f.hand.length }] } }))
  ∧ (∀ (s : State) (c : CoreId) (k : Nat) (f : VxFlight), running s c = true → (Machine.core s c).ch.vxs[k]? = some f →
    let x := Machine.core s c
    let n := if f.rel = 1 then 1 else if f.rel = 2 then 2 else 0
    let banks := f.banks.foldl (fun (bs : List (NMap Nat)) w => setAt bs w.1 (putAll (bs.getD w.1 []) w.2)) x.mx.banks
    (f.handoff = false ∨ handedOver x f = true →
      ∃ t u, exec (.vxRetire c k) s = .next t
        ∧ Machine.core u c =
          { x with
            mx := (x.ch.held.take n).foldl (fun m h => resetStatus m h.bank) { x.mx with banks := banks }
            ch := { x.ch with vr := putAll x.ch.vr f.vr, mask := putAll x.ch.mask f.mask, vxs := dropAt x.ch.vxs k, held := x.ch.held.drop n } }
        ∧ (∀ d, d ≠ c → Machine.core u d = Machine.core s d) ∧ u = { s with cores := u.cores }
        ∧ (let v := f.amax.foldl mergeAmax (f.store.foldl (fun y w => stBytes y w.1 w.2) u)
           t = retired (bump (logOccs (coreFlags v c f.sum) c f.trow f.tcol f.sum.occs) (F.CH_ELEMS_COUNT c) f.elems) c f.entry
            ∧ t.mem = v.mem)
        ∧ StoresWithin s t (f.store.map (fun w => (w.1, w.2.length)) ++ f.amax.map (fun a => (amaxAddr s a.hist + 0x40, 40))))
    ∧ (f.handoff = true → handedOver x f = false → exec (.vxRetire c k) s = .next s))

/-- 06 R176, R178: chain configuration. -/
def Obligations.ChainConfigurationWrites : Prop :=
  ∀ (s : State) (c : CoreId) (e : QEntry),
    let writes := fun (i : Instr) (f : Fld) (v : Nat) =>
      ∃ t u, exec i s = .next t ∧ rd u f = v ∧ RegsKept (takeHead s c 3 e) u [f] ∧ OnlyRegs (takeHead s c 3 e) u ∧ t = retired u c e
        ∧ rd t f = v ∧ (Machine.core t c).vq = (Machine.core s c).vq.drop 1 ∧ (Machine.core t c).ch = (Machine.core s c).ch ∧ MemKept s t
    (readyHead s c 3 (fun w => opc w == 2) = some e → writes (.chCfg c) (F.CH_CFG_WORD c (bits e.word 64 4) (bits e.word 68 2)) (bits e.word 80 48))
    ∧ (readyHead s c 3 (fun w => opc w == 3) = some e → writes (.chConst c) (F.CH_CK_VALUE c (bits e.word 64 4)) (bits e.word 96 32))

/-- 10 R294, R297, R299, R300, R310; 11 R342: the states of a table slot. -/
def Obligations.TableSlotsFillAndRelease : Prop :=
  (∀ (s : State) (c : CoreId) (e : QEntry) (err : ReadErr) (u : State), cxHead s c 1 = some e → slotState s c.cluster (bits e.word 64 4) = 0 →
    let k := c.cluster
    let n := bits e.word 64 4
    let src := e.ab.getD (bits e.word 73 4) 0
    let dst := e.ab.getD (bits e.word 77 4) 0
    (∀ f, Fmt.ofCode (bits e.word 68 4) = some f → readRuns s [(src, buildLen e.word)] err = some (true, u) →
      let head := startFill (takeHead u c 5 e) c n
      ∃ t r, exec (.cxBuild c err) s = .next t
        ∧ r = tableRecord (tableIdent head k n (rd head (F.CX_SLOT_W0_GEN k n))) f (lensOf (histogram f (codesOf f (ldBytes u src (buildLen e.word)))))
        ∧ t = retired (stBytes (fillSlot head k n r) dst r) c e ∧ slotState t k n = 2
        ∧ rd t (F.CX_SLOT_W0_GEN k n) = (rd u (F.CX_SLOT_W0_GEN k n) + 1) % 256 ∧ rd t (F.CX_SLOT_W0_OWNER k n) = slotNum u c % 8
        ∧ rd t (F.CX_SLOT_W1_IDENT k n) = leAt r 0 4 % 2 ^ 29 ∧ (n < (cluster s k).tabs.length → slotLens t k n = recordLens r)
        ∧ (Machine.core t c).cq = (Machine.core u c).cq.drop 1 ∧ StoresWithin u t [(dst, r.length)])
    ∧ (∀ f, Fmt.ofCode (bits e.word 68 4) = some f → readRuns s [(src, buildLen e.word)] err = some (false, u) → exec (.cxBuild c err) s = .next u)
    ∧ (readRuns s [(src, buildLen e.word)] err = none → exec (.cxBuild c err) s = .next s))
  ∧ (∀ (s : State) (c : CoreId) (e : QEntry) (err : ReadErr) (u : State), cxHead s c 2 = some e → slotState s c.cluster (bits e.word 64 4) = 0 →
    let k := c.cluster
    let n := bits e.word 64 4
    let src := e.ab.getD (bits e.word 73 4) 0
    let r := ldBytes u src 144
    let head := startFill (takeHead u c 5 e) c n
    (readRuns s [(src, 144)] err = some (true, u) →
      (recordValid r = true → identHeld head k (leAt r 0 4) = false →
        ∃ t, exec (.cxLoad c err) s = .next t ∧ t = retired (fillSlot head k n r) c e ∧ slotState t k n = 2
          ∧ rd t (F.CX_SLOT_W0_GEN k n) = (rd u (F.CX_SLOT_W0_GEN k n) + 1) % 256 ∧ rd t (F.CX_SLOT_W1_IDENT k n) = leAt r 0 4
          ∧ (n < (cluster s k).tabs.length → slotLens t k n = recordLens r)
          ∧ (Machine.core t c).cq = (Machine.core u c).cq.drop 1 ∧ MemKept u t)
      ∧ (recordValid r = false → exec (.cxLoad c err) s = .next (codecFail head c 0x04 (bits e.word 73 4) e.idx 5) ∧ slotState head k n = 0)
      ∧ (recordValid r = true → identHeld head k (leAt r 0 4) = true →
          exec (.cxLoad c err) s = .next (codecFail head c 0x05 (bits e.word 73 4) e.idx 5) ∧ slotState head k n = 0))
    ∧ (readRuns s [(src, 144)] err = some (false, u) → exec (.cxLoad c err) s = .next u)
    ∧ (readRuns s [(src, 144)] err = none → exec (.cxLoad c err) s = .next s))
  ∧ (∀ (s : State) (c : CoreId) (e : QEntry),
    let n := bits e.word 64 4
    let head := takeHead s c 5 e
    let f := F.CX_SLOT_W0_STATE c.cluster n
    (∀ err, cxHead s c 1 = some e → slotState s c.cluster n ≠ 0 → exec (.cxBuild c err) s = .next s)
    ∧ (∀ err, cxHead s c 2 = some e → slotState s c.cluster n ≠ 0 → exec (.cxLoad c err) s = .next s)
    ∧ (cxHead s c 3 = some e → slotState s c.cluster n = 2 →
      ∃ t u, exec (.cxRelease c) s = .next t ∧ rd u f = (if slotPins s c.cluster n = 0 then 0 else 3) ∧ RegsKept head u [f] ∧ OnlyRegs head u
        ∧ t = retired u c e ∧ rd t f = rd u f)
    ∧ (cxHead s c 3 = some e → slotState s c.cluster n ≠ 2 → exec (.cxRelease c) s = .next (codecFail head c 0x06 0 e.idx 5)))
  ∧ (∀ (s : State) (c : CoreId) (reason idx index eng : Nat), ∃ u, ProgramFaulted u (codecFail s c reason idx index eng) c 0x05 idx index eng
      ∧ (rd s (F.CX_ERR_VALID c.cluster) = 1 → u = s)
      ∧ (rd s (F.CX_ERR_VALID c.cluster) ≠ 1 → rd u (F.CX_ERR_VALID c.cluster) = 1
        ∧ rd u (F.CX_ERR_REASON c.cluster) = reason % 2 ^ (F.CX_ERR_REASON c.cluster).width ∧ rd u (F.CX_ERR_SLOT c.cluster) = slotNum s c % 8
        ∧ rd u (F.CX_ERR_INDEX c.cluster) = index % 2 ^ (F.CX_ERR_INDEX c.cluster).width
        ∧ RegsKept s u [F.CX_ERR_VALID c.cluster, F.CX_ERR_REASON c.cluster, F.CX_ERR_SLOT c.cluster, F.CX_ERR_INDEX c.cluster] ∧ OnlyRegs s u))
  ∧ (∀ (s : State) (k : ClusterId) (n : Fin 16),
    (slotState s k n.val = 3 → slotPins s k n.val = 0 →
      ∃ t, exec (.slotDrained k n) s = .next t ∧ slotState t k n.val = 0 ∧ RegsKept s t [F.CX_SLOT_W0_STATE k n.val] ∧ OnlyRegs s t)
    ∧ (slotState s k n.val ≠ 3 ∨ slotPins s k n.val ≠ 0 → exec (.slotDrained k n) s = .next s))

/-- 10 R303 to R315; 11 R338: packing and expansion. -/
def Obligations.PackerAndExpanderMoveBlocks : Prop :=
  (∀ (s : State) (c : CoreId) (e : QEntry), cxHead s c 4 = some e →
    let n := bits e.word 64 4
    let hdr := e.ab.getD (bits e.word 72 4) 0
    let pay := e.ab.getD (bits e.word 76 4) 0
    let first := bits e.word 80 24
    let blocks := ceilDiv (leNat e.desc) 4096
    let prot := protectedRun s (pay + 4096 * first) (4096 * blocks) || protectedRun s (hdr + 16 * first) (16 * blocks)
    let head := takeHead s c 5 e
    let j : PackJob :=
      { entry := e, dma := false, tslot := n, fmt := bits e.word 68 4, pay := pay, hdr := hdr, block := first, left := bits e.word 104 8,
        buf := [], prot := prot, tries := 0, done := false }
    (slotReason s c.cluster n (bits e.word 68 4) true = none →
      ∃ t, exec (.cxPack c) s = .next t ∧ Machine.core t c = claimHandoffs { Machine.core head c with packs := (Machine.core s c).packs ++ [j] }
        ∧ (Machine.core t c).packs.map PackJob.entry = (Machine.core s c).packs.map PackJob.entry ++ [e]
        ∧ (∀ d, d ≠ c → Machine.core t d = Machine.core s d) ∧ t = { (if prot then bump head (F.CX_CNT_COUNT c 7) 1 else head) with cores := t.cores })
    ∧ (∀ r, slotReason s c.cluster n (bits e.word 68 4) true = some r → exec (.cxPack c) s = .next (codecFail head c r 0 e.idx 5)))
  ∧ (∀ (s : State) (c : CoreId) (misses i : Nat) (j : PackJob), running s c = true → packReady (Machine.core s c) = some (i, j) →
    let u := bump s (F.CX_CNT_COUNT c 8) misses
    let b := packBlock ((Fmt.ofCode j.fmt).getD .k8m) (slotLens s c.cluster j.tslot) (rd s (F.CX_SLOT_W1_IDENT c.cluster j.tslot))
      (rd s (F.CX_SLOT_W2_TCHK c.cluster j.tslot)) j.block j.prot (j.buf.take 4096)
    let fits := j.dma = true ∨ (inOneRange s (j.pay + 4096 * j.block) b.1.length && inOneRange s (j.hdr + 16 * j.block) 16
          && populatedRun (j.pay + 4096 * j.block) b.1.length) = true
    let ws := [((j.pay + 4096 * j.block) % 2 ^ 48, b.1), ((j.hdr + 16 * j.block) % 2 ^ 48, b.2.1)]
    let remote := j.dma && (dxDesc j.entry).remote
    let next_ : PackJob := { j with buf := j.buf.drop 4096, block := j.block + 1 }
    let last := (j.buf.drop 4096).isEmpty && j.left == 0
    (misses < 3 → fits → ∃ t v w, exec (.packBlock c misses) s = .next t ∧ v = putBlock u c j b last
        ∧ (remote = true → MemKept s t)
        ∧ (remote = false → StoresWithin s t ((if j.dma then spread c (dxDesc j.entry) ws else ws).map (fun x => (x.1, x.2.length)))
            ∧ (j.dma = false → v = landAll u ws))
        ∧ w = { bump v (F.CX_CNT_COUNT c (if b.2.2 then 3 else 2)) 1 with cores := w.cores }
        ∧ Machine.core w c =
          { Machine.core s c with
            packs := if last then dropAt (Machine.core s c).packs i else setAt (Machine.core s c).packs i next_
            dxs := if last && j.dma then (Machine.core s c).dxs.map (fun d => if d.entry.seq = j.entry.seq then { d with done := true } else d)
              else (Machine.core s c).dxs }
        ∧ (∀ d, d ≠ c → Machine.core w d = Machine.core s d) ∧ t = (if last && !j.dma then retired w c j.entry else w))
    ∧ (misses < 3 → ¬ fits → ∃ t, exec (.packBlock c misses) s = .next t ∧ ProgramFaulted u t c 0x05 (bits j.entry.word 76 4) j.entry.idx 5)
    ∧ (3 ≤ misses → ∃ t, exec (.packBlock c misses) s = .next t ∧ rd t (F.CO_SEQ_STAT_STATE c) = 3 ∧ coreRetired t c = true
        ∧ (s.run.isSome = true → (coreUnit c, 0x02) ∈ t.faults) ∧ MemKept s t))
  ∧ (∀ (s : State) (c : CoreId) (misses i : Nat) (j : ExpJob) (err : ReadErr), running s c = true →
      ((Machine.core s c).exps.mapIdx (fun i j => (i, j))).find? (fun e => decide (e.2.begun < e.2.count)) = some (i, j) →
    let d := jobDesc j
    let at_ := d.aux + 16 * j.begun
    let src := d.src + 4096 * j.begun
    let h := blockHeadOf (ldBytes s at_ 16)
    let runs := [(at_, 16), (src, unitLen h.clen)]
    let queued := fun (u t : State) (x : ExpEntry) => (Machine.core t c) =
        { Machine.core u c with
          exps := setAt (Machine.core u c).exps i { j with begun := j.begun + 1, tries := 0, pin := none }
          expq := (Machine.core u c).expq ++ [x] }
      ∧ x.job = j.entry.seq ∧ x.dst = d.dst + 4096 * j.begun ∧ (∀ b, b ≠ c → Machine.core t b = Machine.core u b) ∧ t = { u with cores := t.cores }
    (32 ≤ (Machine.core s c).expq.length → exec (.expandBlock c misses err) s = .next s)
    ∧ ((Machine.core s c).expq.length < 32 →
      (readRuns s runs err = none → exec (.expandBlock c misses err) s = .next s)
      ∧ (∀ u, readRuns s runs err = some (false, u) → exec (.expandBlock c misses err) s = .next u)
      ∧ (∀ u, readRuns s runs err = some (true, u) →
        let pay := ldBytes u src (unitLen h.clen)
        let slot := blockSlot u c d j.copy h
        let reason := expandReason u c d j.copy h (min 4096 (plainLen d - 4096 * j.begun)) (d.first + j.begun)
        let plain := expandBlock u c.cluster slot ((Fmt.ofCode d.sfmt).getD .k8m) h pay
        (j.copy = true → h.esc = true → ∃ t x, exec (.expandBlock c misses err) s = .next t ∧ queued u t x ∧ x.data = pay
            ∧ x.heads = [(d.aux2 + 16 * j.begun, ldBytes u at_ 16)])
        ∧ (j.copy = false ∨ h.esc = false →
          (∀ r, reason = some r → exec (.expandBlock c misses err) s = .next (if j.taken && (Machine.core u c).expq.isEmpty
              then codecFail u c r (bits j.entry.word 64 4) j.entry.idx 4 else s))
          ∧ (∀ p, reason = none → misses = 0 → plain = some p →
            ∃ t x, exec (.expandBlock c misses err) s = .next t
              ∧ queued (bump (bump u (F.CX_CNT_COUNT c 4) 1) (F.CX_CNT_COUNT c 5) h.clen) t x ∧ x.pin = (if h.esc then none else slot)
              ∧ (j.copy = false → x.data = p ∧ x.heads = [])
              ∧ (j.copy = true → (x.data.take p.length = p) ∧ x.heads.map Prod.fst = [d.aux2 + 16 * j.begun]))
          ∧ (reason = none → misses ≠ 0 ∨ plain = none →
            (j.tries = 0 → ∃ t, exec (.expandBlock c misses err) s = .next t
              ∧ Machine.core t c = { Machine.core u c with
                  exps := setAt (Machine.core u c).exps i { j with tries := 1, pin := if h.esc then none else slot } }
              ∧ t = { bump u (F.CX_CNT_COUNT c 6) 1 with cores := t.cores })
            ∧ (j.tries ≠ 0 → exec (.expandBlock c misses err) s
                = .next (if stepInput u src then fatalFault u (coreUnit c) 0x0E else stepFault u (coreUnit c) 0x03)))))))
  ∧ (∀ (s : State) (c : CoreId) (e : ExpEntry) (rest : List ExpEntry) (j : ExpJob), running s c = true → (Machine.core s c).expq = e :: rest →
      (Machine.core s c).exps.find? (fun j => j.entry.seq == e.job) = some j →
    let d := jobDesc j
    let ws := (e.dst, e.data) :: e.heads
    let last := j.drained + 1 == j.count
    (j.taken = true → ∃ t, exec (.expandDrain c) s = .next t
        ∧ t = { deliverPart s c d (flightTag (Machine.core s c) e.job) last ws with cores := t.cores }
        ∧ (d.remote = true → MemKept s t)
        ∧ (d.remote = false → StoresWithin s t ((spread c d ws).map (fun w => (w.1, w.2.length))))
        ∧ Machine.core t c =
          { Machine.core s c with
            expq := rest
            exps := if last then (Machine.core s c).exps.filter (fun q => q.entry.seq != e.job)
              else (Machine.core s c).exps.map (fun q => if q.entry.seq = e.job then { q with drained := q.drained + 1 } else q)
            dxs := if last then (Machine.core s c).dxs.map (fun d => if d.entry.seq = e.job then { d with done := true } else d)
              else (Machine.core s c).dxs }
        ∧ (∀ b, b ≠ c → Machine.core t b = Machine.core s b))
    ∧ (j.taken = false → exec (.expandDrain c) s = .next s))
  ∧ (∀ (s : State) (c : CoreId) (e : QEntry), running s c = true →
      (queuedExpands (Machine.core s c)).find? (fun e => !(Machine.core s c).exps.any (fun j => j.entry.seq == e.seq)) = some e →
    let may := (dxDesc e).early = true ∧ (∀ q ∈ queuedExpands (Machine.core s c), q.seq < e.seq → (dxDesc q).early = true)
      ∧ (Machine.core s c).expq.length < 32 ∧ descReason s c (dxDesc e) = none
    (may → ∃ t j, exec (.earlyRead c) s = .next t ∧ Machine.core t c = { Machine.core s c with exps := (Machine.core s c).exps ++ [j] }
        ∧ j.entry = e ∧ j.taken = false ∧ j.begun = 0 ∧ j.count = blockCount (dxDesc e)
        ∧ (∀ d, d ≠ c → Machine.core t d = Machine.core s d) ∧ t = { s with cores := t.cores })
    ∧ (¬ may → exec (.earlyRead c) s = .next s))

/-- 10 R289 to R292, R303, R309: coding loses nothing. -/
def Obligations.CodecLossless : Prop :=
  ∀ (f : Fmt) (lens : List Nat) (ident tchk block : Nat) (prot : Bool) (plain : List Byte), nsymOf f ≠ 0 → lens.length = nsymOf f →
    (∀ l ∈ lens, 1 ≤ l ∧ l ≤ 12) → (lens.map (fun l => 2 ^ (12 - l))).sum = 4096 → 1 ≤ plain.length → plain.length ≤ 4096 →
    (f = .k16 → plain.length % 2 = 0) → ident < 2 ^ 29 → tchk < 256 → block < 2 ^ 24 →
    let b := packBlock f lens ident tchk block prot plain
    let h := blockHeadOf b.2.1
    h.clean = true ∧ b.2.1.length = 16 ∧ h.esc = b.2.2 ∧ h.ulen = plain.length ∧ 1 ≤ h.clen ∧ h.clen ≤ plain.length ∧ h.block = block
      ∧ h.ident = (if b.2.2 then 0 else ident) ∧ h.tchk = (if b.2.2 then 0 else tchk) ∧ (prot = true → b.2.2 = true)
      ∧ (b.2.2 = true → h.clen = plain.length) ∧ b.1.length = ceilDiv h.clen 64 * 64
      ∧ ∀ (s : State) (k : ClusterId) (n : Nat), slotLens s k n = lens → expandBlock s k (some n) f h b.1 = some plain

/-- 11 R335, R336, R339 to R342: descriptors without a codec mode. -/
def Obligations.PlainDescriptorsMoveOrFail : Prop :=
  (∀ (s : State) (c : CoreId) (e : QEntry) (err : ReadErr) (i : Instr) (ok : Desc → Bool),
    (i = .dxMove c err ∧ ok = (fun d => d.mode == 0 && d.kind != 2 && d.kind != 3)
      ∨ i = .dxGather c err ∧ ok = (fun d => d.mode == 0 && d.kind == 2)
      ∨ i = .dxWindow c err ∧ ok = (fun d => d.mode == 0 && d.kind == 3)) →
    dxHead s c ok = some e →
    let d := dxDesc e
    let f : DxFlight := { entry := e, stream := false, desc := e.desc, done := true, epoch := 0, kind := 4, page := 0, posts := mcastPosts c d }
    (∀ u, TakeMay s u c d err → ∃ t, exec i s = .next t ∧ DescRan (dxPop c e u) t c d f
      ∧ (Machine.core t c).dq = (Machine.core u c).dq.drop 1 ∧ rd (dxPop c e u) (waitFld c e.word) = waitLeft u c e.word)
    ∧ TakeOtherwise s c d f err (dxPop c e) i)
  ∧ (∀ (s : State) (c : CoreId) (stream : Bool) (e : QEntry) (reason : Nat),
    let ix := if stream then 0xFFF else e.idx
    ∃ u, ProgramFaulted u (descFail s c stream e reason) c 0x05 (if stream then 0 else bits e.word 64 4) ix 4
      ∧ (rd s (F.DMA_ERR_VALID c) = 1 → u = s)
      ∧ (rd s (F.DMA_ERR_VALID c) ≠ 1 → rd u (F.DMA_ERR_VALID c) = 1 ∧ rd u (F.DMA_ERR_REASON c) = reason % 2 ^ (F.DMA_ERR_REASON c).width
        ∧ rd u (F.DMA_ERR_INDEX c) = ix % 2 ^ (F.DMA_ERR_INDEX c).width
        ∧ RegsKept s u [F.DMA_ERR_VALID c, F.DMA_ERR_REASON c, F.DMA_ERR_INDEX c] ∧ OnlyRegs s u))

/-- 03 R81; 11 R337, R340 to R342; 10 R306 to R310, R314; 09 R282, R283: descriptors of a codec mode. -/
def Obligations.CodecDescriptorsRun : Prop :=
  ∀ (s : State) (c : CoreId) (e : QEntry) (err : ReadErr) (i : Instr) (ok : Desc → Bool),
    (i = .lpack c err ∧ ok = (fun d => d.mode == 1) ∨ i = .lexpand c err ∧ ok = (fun d => d.mode == 2)
      ∨ i = .lcopy c err ∧ ok = (fun d => d.mode == 3) ∨ i = .fmEnc c err ∧ ok = (fun d => d.mode == 4 || d.mode == 5)
      ∨ i = .fmDec c err ∧ ok = (fun d => d.mode == 6 || d.mode == 7)) →
    dxHead s c ok = some e →
    let d := dxDesc e
    let f : DxFlight := { entry := e, stream := false, desc := e.desc, done := true, epoch := 0, kind := 4, page := 0, posts := mcastPosts c d }
    (∀ u, TakeMay s u c d err → ∃ t, exec i s = .next t ∧ DescRan (dxPop c e u) t c d f
      ∧ (Machine.core t c).dq = (Machine.core u c).dq.drop 1 ∧ rd (dxPop c e u) (waitFld c e.word) = waitLeft u c e.word)
    ∧ TakeOtherwise s c d f err (dxPop c e) i

/-- 08 R240, R241, R244, R254, R256; 11 R338, R340 to R342: the stream queue and retirement. -/
def Obligations.StreamQueueAndRetirement : Prop :=
  (∀ (s : State) (c : CoreId) (e : StreamEntry) (err : ReadErr), streamHead s c = some e →
    let d := descOf e.desc (0, 0)
    let turn := (Machine.core s c).dxs.length < 8 ∧ ((Machine.core s c).lastStream = false ∨ dxHead s c (fun _ => true) = none)
    let own := if e.post then ((coreSlot s c).map (fun x => (⟨x, false, e.baton, 1⟩ : Post))).toList else []
    let f : DxFlight :=
      { entry := { seq := (Machine.core s c).seq, idx := 0xFFF, desc := e.desc }, stream := true, desc := e.desc, done := true, epoch := e.epoch,
        kind := e.kind, page := e.page, posts := (if e.kind = 4 then mcastPosts c d else []) ++ own }
    let pop := fun (t : State) =>
      let t := match e.pacer with | some p => wr t (F.CO_PA_COUNT c p) (rd t (F.CO_PA_COUNT c p) - 1) | none => t
      setCore t c { Machine.core t c with sq := (Machine.core t c).sq.drop 1, lastStream := true, seq := (Machine.core t c).seq + 1 }
    let reads := e.runs.map (fun r => (r.1, r.2.2))
    let writes := e.runs.map (fun r => (r.2.1, r.2.2))
    let inside := ∀ r ∈ e.runs, streamRunOk c.cluster r.1 r.2.2 = true ∧ streamRunOk c.cluster r.2.1 r.2.2 = true
    let i := Instr.streamDescriptorTake c err
    (¬ turn → exec i s = .next s)
    ∧ (turn → e.kind = 4 → (∀ u, TakeMay s u c d err → ∃ t, exec i s = .next t ∧ DescRan (pop u) t c d f) ∧ TakeOtherwise s c d f err pop i)
    ∧ (turn → e.kind ≠ 4 →
      (¬ inside → exec i s = .next (descFail (pop s) c true f.entry 1))
      ∧ (inside → mustWait s c 0 reads writes = true → exec i s = .next s)
      ∧ (inside → mustWait s c 0 reads writes = false → (readRuns s reads err = none → exec i s = .next s)
        ∧ (∀ u, readRuns s reads err = some (false, u) → exec i s = .next u)
        ∧ (∀ u, readRuns s reads err = some (true, u) →
          ∃ t, exec i s = .next t ∧ t = landAll (addFlight (pop u) c f) (e.runs.map (fun r => (r.2.1, ldBytes u r.1 r.2.2)))
            ∧ (Machine.core t c).sq = (Machine.core u c).sq.drop 1 ∧ (Machine.core t c).lastStream = true
            ∧ (Machine.core t c).dxs = (Machine.core u c).dxs ++ [f] ∧ StoresWithin u t writes
            ∧ (∀ p, p < 16 → e.pacer = some p → rd t (F.CO_PA_COUNT c p) = (rd u (F.CO_PA_COUNT c p) - 1) % 2 ^ 16)))))
  ∧ (∀ (s : State) (c : CoreId) (stream : Bool) (f : DxFlight), running s c = true →
      (Machine.core s c).dxs.find? (fun d => d.stream == stream) = some f →
    (f.done = true → ∃ t u, exec (.descriptorRetire c stream) s = .next t ∧ (Machine.core u c) = { Machine.core s c with dxs := (Machine.core s c).dxs.erase f }
        ∧ (∀ d, d ≠ c → Machine.core u d = Machine.core s d) ∧ u = { s with cores := u.cores, posts := s.posts ++ f.posts }
        ∧ (stream = false → t = retired u c f.entry) ∧ (stream = true → f.kind = 4 → t = u)
        ∧ (stream = true → f.kind ≠ 4 →
            let o := F.RC_OUT_COUNT c.cluster (f.epoch % 16)
            rd t o = (rd s o - 1) % 2 ^ o.width ∧ RegsKept s t [o, F.RC_LOW_EPOCH c.cluster]
            ∧ t.pageDone = (if f.kind = 1 ∨ f.kind = 2 then s.pageDone ++ [(f.kind, f.page)] else s.pageDone)
            ∧ t = { u with regs := t.regs, pageDone := t.pageDone }))
    ∧ (f.done = false → exec (.descriptorRetire c stream) s = .next s))

/-- 13 R398, R399; 14 R431, R437; 18 R527: delivery of a data message. The instruction that CO_FAULT names is a free value (log 6). -/
def Obligations.MessagesDelivered : Prop :=
  ∀ (s : State) (i : Nat) (m : Msg), inboxMsg s i = some m →
    let taken := { s with inbox := dropAt s.inbox i, ports := (freeMsg s m).ports }
    (replaying s = false → strangerOn s m.vc m.src = false → heldForArm s m = false → badRun m = false → classOf s m = .plain →
      ∃ t, exec (.messageDeliver i) s = .next t ∧ t = messagePost (stBytes taken m.addr m.data) m ∧ StoresWithin s t [(m.addr, m.data.length)]
        ∧ t.posts = s.posts ++ (match npostSlot m.tgt with
            | some x => if m.last ∧ m.npost ≠ 0 then [⟨x, false, m.tgt % 64, m.npost⟩] else []
            | none => [])
        ∧ (prRegions s = [] → s.lineKeys = [] → s.pair = none → ldBytes t m.addr m.data.length = m.data)
        ∧ t.cores = s.cores ∧ t.run = s.run ∧ t.inbox = dropAt s.inbox i)
    ∧ (replaying s = false → strangerOn s m.vc m.src = false → heldForArm s m = false → badRun m = false → classOf s m = .duplicate →
      exec (.messageDeliver i) s = .next (bump taken (F.RR_CNT_COUNT 4) 1))
    ∧ (replaying s = false → strangerOn s m.vc m.src = true →
      exec (.messageDeliver i) s = .next (bump taken (F.FAB_CNT_COUNT 2) 1))
    ∧ (∀ f, f.width = 64 → Room taken f → rd (bump taken f 1) f = rd s f + 1 ∧ RegsKept s (bump taken f 1) [f] ∧ OnlyRegs taken (bump taken f 1))
    ∧ (replaying s = false → strangerOn s m.vc m.src = false → heldForArm s m = true → exec (.messageDeliver i) s = .next s)
    ∧ (replaying s = false → strangerOn s m.vc m.src = false → heldForArm s m = false → badRun m = true →
      ∃ u t, exec (.messageDeliver i) s = .next t
        ∧ rd u F.FAB_ERR_VALID = 1 ∧ (rd s F.FAB_ERR_VALID = 1 → u = taken)
        ∧ (rd s F.FAB_ERR_VALID = 0 → rd u F.FAB_ERR_SRC = m.src % 1024 ∧ rd u F.FAB_ERR_ADDR = m.addr % 2 ^ 48)
        ∧ RegsKept s u [F.FAB_ERR_VALID, F.FAB_ERR_SRC, F.FAB_ERR_ADDR] ∧ OnlyRegs taken u
        ∧ (s.run = none → t = u)
        ∧ (s.run.isSome = true → ∀ c, (npostSlot m.tgt).bind (slotCore s) = some c →
            ∃ n ix eng, ProgramFaulted { u with free := u.free + 3 } t c 0x05 n ix eng)
        ∧ (s.run.isSome = true → (npostSlot m.tgt).bind (slotCore s) = none → t = abortStep u 0x30))
    ∧ (replaying s = true →
      (s.replay.reported = true → ∃ t, exec (.messageDeliver i) s = .next t
        ∧ t = bump { s with inbox := dropAt s.inbox i, replay := { s.replay with held := s.replay.held ++ [m], dirty := true } } (F.ID_FLT_CNT_COUNT 4) 1)
      ∧ (s.replay.reported = false → ∃ t, exec (.messageDeliver i) s = .next t
        ∧ t = bump { taken with replay := { s.replay with dirty := true } } (F.ID_FLT_CNT_COUNT 5) 1))

/-- 04 R113, R114, R119; 13 R399, R400; 17 R510; 18 R527: arrivals of other members, and the pass of a hurdle. -/
def Obligations.HurdleArrivalsAndPass : Prop :=
  (∀ (s : State) (f : CtrlFlit) (h vc rank epoch src : Nat), firstHurdle s 1 = some f → replaying s = false →
    leAt f.payload 5 1 = h → bits (leAt f.payload 10 1) 0 3 = vc → leAt f.payload 8 2 % 1024 = rank → leAt f.payload 6 2 = epoch →
    leAt f.payload 2 2 % 1024 = src →
    let used := hurdleUsed s h = true ∧ rd s (F.HD_CFG_SCOPE 0 h) = 1 ∧ rd s (F.HD_CFG_VC 0 h) = vc
    let member := (members s vc)[rank]? = some src
    let later := (hdEpoch s h + 1) % 65536
    let here := fun (t : State) => t.ctrlIn = s.ctrlIn.erase f ∧ MemKept s t ∧ t.cores = s.cores ∧ t.reporting = s.reporting.filter (fun x => x != src)
    (used → member → (h, epoch, rank) ∉ s.hurdleBits → epoch = hdEpoch s h →
      ∃ t, exec .hurdleFlitReceive s = .next t ∧ t.hurdleBits = s.hurdleBits ++ [(h, epoch, rank)] ∧ here t
        ∧ (∀ d, d < 8 → rd t (F.HD_ARR_MEMBER_ARR d h) = (rd s (F.HD_ARR_MEMBER_ARR 0 h) + 1) % 2 ^ 11)
        ∧ RegsKept s t ((List.range 8).map (fun d => F.HD_ARR_MEMBER_ARR d h)))
    ∧ (used → member → (h, epoch, rank) ∉ s.hurdleBits → epoch = later → epoch ≠ hdEpoch s h →
      ∃ t, exec .hurdleFlitReceive s = .next t ∧ t.hurdleBits = s.hurdleBits ++ [(h, epoch, rank)] ∧ here t
        ∧ (∀ d, d < 8 → rd t (F.HD_ARR_NEXT_ARR d h) = (rd s (F.HD_ARR_NEXT_ARR 0 h) + 1) % 2 ^ 11)
        ∧ RegsKept s t ((List.range 8).map (fun d => F.HD_ARR_NEXT_ARR d h)))
    ∧ (used → member → (h, epoch, rank) ∈ s.hurdleBits → epoch = hdEpoch s h ∨ epoch = later →
      ∃ t, exec .hurdleFlitReceive s = .next t ∧ (Room s (F.FAB_CNT_COUNT 3) → rd t (F.FAB_CNT_COUNT 3) = rd s (F.FAB_CNT_COUNT 3) + 1)
        ∧ t.hurdleBits = s.hurdleBits ∧ here t ∧ RegsKept s t (F.FAB_CNT_COUNT 3 :: satTouched))
    ∧ (¬ used ∨ (member ∧ epoch ≠ hdEpoch s h ∧ epoch ≠ later) →
      ∃ t, exec .hurdleFlitReceive s = .next t ∧ t.hurdleBits = s.hurdleBits ∧ t.ctrlIn = s.ctrlIn.erase f ∧ MemKept s t ∧ t.cores = s.cores
        ∧ (∀ d, d < 8 → Room s (F.HD_STALE_COUNT d) → rd t (F.HD_STALE_COUNT d) = (rd s (F.HD_STALE_COUNT d) + 1) % 2 ^ (F.HD_STALE_COUNT d).width)
        ∧ RegsKept s t ((List.range 8).map F.HD_STALE_COUNT ++ satTouched))
    ∧ (used → ¬ member →
      ∃ t, exec .hurdleFlitReceive s = .next t ∧ t.hurdleBits = s.hurdleBits ∧ t.ctrlIn = s.ctrlIn.erase f ∧ MemKept s t ∧ t.cores = s.cores
        ∧ (Room s (F.FAB_CNT_COUNT 2) → rd t (F.FAB_CNT_COUNT 2) = rd s (F.FAB_CNT_COUNT 2) + 1) ∧ RegsKept s t (F.FAB_CNT_COUNT 2 :: satTouched)))
  ∧ (∀ (s : State) (f : CtrlFlit), firstHurdle s 1 = some f → replaying s = true →
    exec .hurdleFlitReceive s = .next (if s.replay.reported
      then bump { s with ctrlIn := s.ctrlIn.erase f, replay := { s.replay with held := s.replay.held ++ [hurdleMsg f], dirty := true } } (F.ID_FLT_CNT_COUNT 4) 1
      else bump { takeCtrl s f with replay := { s.replay with dirty := true } } (F.ID_FLT_CNT_COUNT 5) 1))
  ∧ (∀ (s : State) (h : Fin 256),
    (hurdleFull s h.val = true → replaying s = false →
      let synced := rd s F.TB_SYNC_CFG_EN = 1 ∧ rd s F.TB_SYNC_CFG_HURDLE = h.val ∧ rd s (F.HD_CFG_SCOPE 0 h.val) = 1
      let e := (hdEpoch s h.val + 1) % 65536
      ∃ u t, exec (.hurdlePass h) s = .next t ∧ t = relaySettle u
        ∧ (∀ d, d < 8 → rd u (F.HD_STAT_EPOCH d h.val) = e ∧ rd u (F.HD_STAT_LOCAL_ARR d h.val) = 0
            ∧ rd u (F.HD_ARR_MEMBER_ARR d h.val) = rd s (F.HD_ARR_NEXT_ARR 0 h.val) % 2 ^ 11 ∧ rd u (F.HD_ARR_NEXT_ARR d h.val) = 0)
        ∧ (synced → rd u F.TB_SYNC_TIME = now s % 2 ^ 64 ∧ rd u F.TB_SYNC_EPOCH_EPOCH = e)
        ∧ (¬ synced → rd u F.TB_SYNC_TIME = rd s F.TB_SYNC_TIME ∧ rd u F.TB_SYNC_EPOCH_EPOCH = rd s F.TB_SYNC_EPOCH_EPOCH)
        ∧ RegsKept s u (F.TB_SYNC_TIME :: F.TB_SYNC_EPOCH_EPOCH :: (List.range 8).flatMap (fun d =>
            [F.HD_STAT_EPOCH d h.val, F.HD_STAT_LOCAL_ARR d h.val, F.HD_ARR_MEMBER_ARR d h.val, F.HD_ARR_NEXT_ARR d h.val]))
        ∧ u.hurdleBits = s.hurdleBits.filter (fun b => b.1 != h.val || b.2.1 == e)
        ∧ mapGet 0 u.relay.passes h.val = mapGet 0 s.relay.passes h.val + 1
        ∧ u = { s with regs := u.regs, hurdleBits := u.hurdleBits, relay := { s.relay with passes := u.relay.passes } }
        ∧ (armed s = false → t = u) ∧ MemKept s t ∧ t.posts = s.posts ∧ t.cores = s.cores)
    ∧ (hurdleFull s h.val = false ∨ replaying s = true → exec (.hurdlePass h) s = .next s))

/-- 01 R22; 04 R118; 08 R234; 13 R400; 16 R479, R480; 18 R527: aborts, and the copies of slots. -/
def Obligations.AbortsEndTheStep : Prop :=
  (∀ (s : State) (f : CtrlFlit), firstHurdle s 2 = some f →
    (replaying s = false →
      (∀ r, s.run = some r → r.step = leAt f.payload 12 4 → exec .stepAbortReceive s = .next (abortStep (takeCtrl s f) 0x32))
      ∧ (∀ r, s.run = some r → r.step ≠ leAt f.payload 12 4 → exec .stepAbortReceive s = .next (takeCtrl s f))
      ∧ (s.run = none → exec .stepAbortReceive s = .next (takeCtrl s f)))
    ∧ (replaying s = true → exec .stepAbortReceive s = .next (if s.replay.reported
      then bump { s with ctrlIn := s.ctrlIn.erase f, replay := { s.replay with held := s.replay.held ++ [hurdleMsg f], dirty := true } } (F.ID_FLT_CNT_COUNT 4) 1
      else bump { takeCtrl s f with replay := { s.replay with dirty := true } } (F.ID_FLT_CNT_COUNT 5) 1))
    ∧ takeCtrl s f = { s with ctrlIn := s.ctrlIn.erase f, ports := (takeCtrl s f).ports })
  ∧ (∀ (s : State) (detail : Nat),
    ∃ u t, t = abortStep s detail ∧ t = endRun (failRun u detail)
      ∧ (∀ c ∈ occupiedCores s, rd u (F.CO_SEQ_STAT_STATE c) = 3
          ∧ rd u (F.CO_FAULT_CODE c) = (if rd s (F.CO_SEQ_STAT_STATE c) = 3 ∧ rd s (F.CO_FAULT_CODE c) ≠ 0 then rd s (F.CO_FAULT_CODE c) else 6))
      ∧ (∀ c, c ∉ occupiedCores s → rd u (F.CO_SEQ_STAT_STATE c) = rd s (F.CO_SEQ_STAT_STATE c))
      ∧ u = { s with regs := u.regs, faults := [], free := u.free, ports := u.ports, events := satOf s u, fired := u.fired }
      ∧ (∀ r c, s.run = some r → cmdOf s r.ring r.seq = some c → c.status = none → r.committing = false →
          Executed u (finish u r.ring r.seq 0x21 detail (stepResult u r.step r.replays)) r.ring r.seq 0x21 detail (stepResult u r.step r.replays)
          ∧ (r.program = true → failRun u detail = finish u r.ring r.seq 0x21 detail (stepResult u r.step r.replays))
          ∧ (r.program = false → (failRun u detail).failedStep = some r.step))
      ∧ t.run = none ∧ t.faults = [] ∧ t.replay.reported = false ∧ t.replay.held = [] ∧ rd t F.ID_REPLAY_PHASE = 0
      ∧ rd t F.CMD_STAT_STEP_STATE = (if s.prog.isSome then 1 else 0) ∧ t.rollout = {} ∧ t.remaps = [] ∧ t.ftPend = []
      ∧ (s.remaps = [] → (∀ r, s.run = some r → r.ring < 16 ∧ r.cRing < 16) →
        (∀ c ∈ occupiedCores s, rd t (F.CO_SEQ_STAT_STATE c) = 3) ∧ MemKept s t))
  ∧ (∀ (s : State) (k : ClusterId) (a b : Fin 9), a ≠ b → Memory.wf s.mem = true →
      let t := copyCore s k (a.val, b.val)
      Machine.core t ⟨k.die, k.cl, b⟩ = streamOnly (Machine.core s ⟨k.die, k.cl, a⟩)
        ∧ Machine.core t ⟨k.die, k.cl, a⟩ = { Machine.core s ⟨k.die, k.cl, a⟩ with occupied := false }
        ∧ (∀ off, off < coreStoreSize →
            memByte t.mem (coreKey ⟨k.die, k.cl, b⟩ off) = memByte s.mem (coreKey ⟨k.die, k.cl, a⟩ off))
        ∧ (∀ j, (∀ off, off < coreStoreSize → j ≠ coreKey ⟨k.die, k.cl, b⟩ off) → memByte t.mem j = memByte s.mem j))
  ∧ (∀ (s : State) (k : ClusterId),
    ((cluster s k).copying = true →
      ∃ t, exec (.spareCopyDone k) s = .next t ∧ cluster t k = { cluster s k with copying := false, copies := [] }
        ∧ (∀ j, j ≠ k → cluster t j = cluster s j)
        ∧ (∀ c ∈ coresOf k, Machine.core t c = { Machine.core s c with held := false }
            ∧ rd t (F.CO_SEQ_STAT_STATE c) = (if (Machine.core s c).held = true ∧ rd s (F.CO_SEQ_STAT_STATE c) = 0 then 1 else rd s (F.CO_SEQ_STAT_STATE c)))
        ∧ (∀ c, c ∉ coresOf k → Machine.core t c = Machine.core s c)
        ∧ RegsKept s t ((coresOf k).map F.CO_SEQ_STAT_STATE) ∧ t = { s with regs := t.regs, cores := t.cores, clusters := t.clusters })
    ∧ ((cluster s k).copying = false → exec (.spareCopyDone k) s = .next s))

/-- 13 R380 to R387, R392 to R394, R396 to R404: what arrives at a port. -/
def Obligations.FlitsArriveAndAreAnswered : Prop :=
  (∀ (s : State) (p : Fin 16) (raw : List Byte),
    let fixed := correctFlit (sliceBytes raw 0 256)
    let b := fixed.1
    let f := flitOf b
    let u := countSymbols s p.val fixed.2
    let v := takeLinkFields u p.val f
    let x := port u p.val
    let y := port v p.val
    let q := poolOf f.vc f.cls
    let cnt := F.FP_CNT_COUNT p.val
    let err := F.FP_LANE_ERR_COUNT p.val
    let held := F.FP_CRED_HELD p.val (poolOf f.credVc f.credCls)
    let gives := fun (t : State) => exec (.flitReceive p raw) s = .next t
    let kind := leAt f.payload 0 2
    let cls := fun (w : State) (out : Nat) => if f.vc ≤ 5 then leaveClass w out (some p.val) f.cls else 0
    let onward := fun (w : State) (out dst : Nat) (b : List Byte) =>
      ({ typ := f.typ, vc := f.vc, cls := cls w out, dst := dst, payload := b, origin := false, inPort := p.val, inPool := q } : OutFlit)
    (portState s p.val ≠ 4 → gives s ∧ exec (.nakReceive p raw) s = .next s
        ∧ exec (.holdReceive p raw) s = .next s ∧ exec (.identReceive p raw) s = .next s ∧ exec (.controlRetire p raw) s = .next s)
    ∧ (portState s p.val = 4 →
      (∀ i ok, (i = Instr.nakReceive p raw ∧ ok = (f.ackKind == 2) ∨ i = .holdReceive p raw ∧ ok = (f.ackKind == 3)
          ∨ i = .identReceive p raw ∧ ok = (f.typ == 7 && kind == 1) ∨ i = .controlRetire p raw ∧ ok = (f.typ == 7 && kind == 2)) →
        exec i s = (if flitCrcOk b && ok then exec (.flitReceive p raw) s else .next s))
      ∧ RegsKept s u ((List.range 8).map err ++ satTouched) ∧ OnlyRegsEvents s u
      ∧ (fixed.2 = [] → u = s) ∧ (∀ i, fixed.2 = [i] → Room s (err (byteLane s p.val i)) → rd u (err (byteLane s p.val i)) = rd s (err (byteLane s p.val i)) + 1)
      ∧ (flitCrcOk b = false →
        ∃ t, gives t ∧ (Room u (cnt 2) → rd t (cnt 2) = rd u (cnt 2) + 1) ∧ (x.nakOpen = false → Room u (cnt 3) → rd t (cnt 3) = rd u (cnt 3) + 1)
          ∧ (x.nakOpen = true → rd t (cnt 3) = rd u (cnt 3)) ∧ port t p.val = (if x.nakOpen then x else { x with oweAck := 2, nakOpen := true })
          ∧ RegsKept u t (cnt 2 :: cnt 3 :: satTouched) ∧ t = { u with regs := t.regs, ports := t.ports, events := satOf u t, fired := t.fired })
      -- the link fields
      ∧ rd v held = (if f.ackKind = 3 ∨ f.cred = 0 ∨ (6 ≤ f.credVc ∧ f.credCls = 1) then rd u held else (rd u held + f.cred) % 2 ^ 16)
      ∧ (f.ackKind = 0 → y = x) ∧ (f.ackKind = 1 → y = ackFlits x f.ackSeq)
      ∧ (f.ackKind = 2 → (Room u (cnt 4) → rd v (cnt 4) = rd u (cnt 4) + 1)
          ∧ ∃ l, l = (x.replays ++ [now u]).filter (fun t => decide (now u - t ≤ 1000000)) ∧ y = { ackFlits x f.ackSeq with
              resend := (ackFlits x f.ackSeq).sent, replays := l, thresh := x.thresh || decide (32 ≤ l.length) })
      ∧ (f.ackKind = 3 → (Room u (cnt 6) → rd v (cnt 6) = rd u (cnt 6) + 1)
          ∧ y = { ackFlits x f.ackSeq with holding := true, holdTo := now u + f.cred * 100000, resend := [] })
      ∧ RegsKept u v (held :: cnt 4 :: cnt 6 :: satTouched) ∧ (∀ o, o ≠ p.val → port v o = port u o)
      ∧ v = { u with regs := v.regs, ports := v.ports, events := satOf u v, fired := v.fired }
      -- the flit itself
      ∧ (flitCrcOk b = true → protocolError b = true →
        ∃ w t, gives t ∧ (routedType f.typ = true → w = takeRouted v p.val f true) ∧ (routedType f.typ = false → w = v) ∧ portState t p.val = 5
          ∧ (Room w (cnt 11) → rd t (cnt 11) = rd w (cnt 11) + 1) ∧ (Room w (cnt 7) → rd t (cnt 7) = rd w (cnt 7) + 1)
          ∧ RegsKept w t (cnt 11 :: cnt 7 :: F.FP_STAT_STATE p.val :: satTouched) ∧ OnlyRegsEvents w t)
      ∧ (flitCrcOk b = true → protocolError b = false → (f.typ = 0 → gives v)
        ∧ (f.typ = 7 → kind = 1 →
          ∃ t, gives t ∧ rd t (F.FP_PARTNER_MODULE p.val) = leAt f.payload 2 2 % 1024 ∧ rd t (F.FP_PARTNER_VALID p.val) = b2n (bit (leAt f.payload 4 1) 0)
            ∧ RegsKept v t [F.FP_PARTNER_MODULE p.val, F.FP_PARTNER_VALID p.val] ∧ OnlyRegs v t)
        ∧ (f.typ = 7 → kind = 2 → rd s F.ID_FLT_NEXT_NEXT < 16 →
          ∃ t, gives t ∧ portState t p.val = 7 ∧ rd t (F.FP_STAT_WIDTH p.val) = 0 ∧ rd t (F.FP_STAT_LANE_OK p.val) = 0
            ∧ portUnit p.val ∈ t.retired ∧ (port t p.val).sent = [] ∧ MemKept s t)
        ∧ (f.typ = 7 → kind ≠ 1 → kind ≠ 2 → gives v)
        ∧ (routedType f.typ = true → rd v F.CMD_STAT_READY ≠ 1 →
          ∃ t, gives t ∧ port t p.val = { y with oweAck := 3 } ∧ (Room v (cnt 5) → rd t (cnt 5) = rd v (cnt 5) + 1)
            ∧ RegsKept v t (cnt 5 :: satTouched) ∧ t = { v with regs := t.regs, ports := t.ports, events := satOf v t, fired := t.fired })
        ∧ (routedType f.typ = true → rd v F.CMD_STAT_READY = 1 → f.seq ≠ (y.rxLast + 1) % 4096 →
          (y.nakOpen = true → 0 < serialDiff 12 f.seq y.rxLast → gives v)
          ∧ (y.nakOpen = false ∨ serialDiff 12 f.seq y.rxLast ≤ 0 →
            ∃ t, gives t ∧ port t p.val = { y with oweAck := 2, nakOpen := true } ∧ (Room v (cnt 3) → rd t (cnt 3) = rd v (cnt 3) + 1)
              ∧ RegsKept v t (cnt 3 :: satTouched) ∧ t = { v with regs := t.regs, ports := t.ports, events := satOf v t, fired := t.fired }))
        ∧ (routedType f.typ = true → rd v F.CMD_STAT_READY = 1 → f.seq = (y.rxLast + 1) % 4096 →
          ∃ w t, gives t ∧ port w p.val = { y with rxLast := f.seq, oweAck := 1, nakOpen := false } ∧ (Room v (cnt 1) → rd w (cnt 1) = rd v (cnt 1) + 1)
            ∧ RegsKept v w (cnt 1 :: satTouched) ∧ w.replay = (if f.typ ≠ 6 ∧ replaying v then { v.replay with dirty := true } else v.replay)
            ∧ w = { v with regs := w.regs, ports := w.ports, replay := w.replay, events := satOf v w, fired := w.fired }
            ∧ (f.typ = 1 ∨ f.typ = 4 →
              let h := f.payload.take 32
              let dst := leAt h 0 2 % 1024
              let len := leAt h 6 2 % 32768
              let left := len - min len 208
              let stream := fun (r : RxStream) (a : State) => left ≠ 0 → t = setPort a p.val { port a p.val with rx := mapPut (port a p.val).rx q r }
              (isMine w dst = true → (left = 0 → t = { w with inbox := w.inbox ++ [msgOf f.vc p.val q h (sliceBytes f.payload 32 len)] })
                ∧ stream { header := h, data := sliceBytes f.payload 32 208, need := left, fwd := none, drop := false } (returnCredit w p.val q 1))
              ∧ (isMine w dst = false → 64 ≤ leAt h 9 1 → (left = 0 → t = loseFlit w p.val q 1 true)
                ∧ stream { header := h, data := [], need := left, fwd := none, drop := true } (loseFlit w p.val q 1 true))
              ∧ (isMine w dst = false → leAt h 9 1 < 64 → routePort w dst (leAt h 4 2) = none → (left = 0 → t = loseFlit w p.val q 0 true)
                ∧ stream { header := h, data := [], need := left, fwd := none, drop := true } (loseFlit w p.val q 0 true))
              ∧ (∀ out, isMine w dst = false → leAt h 9 1 < 64 → routePort w dst (leAt h 4 2) = some out →
                (port t out).q = (port w out).q ++ [onward w out dst (putBytes f.payload 9 (natLE 1 (leAt h 9 1 + 1)))]
                ∧ (left ≠ 0 → mapFind (port t p.val).rx q = some { header := h, data := [], need := left, fwd := some out, drop := false })
                ∧ t = { w with ports := t.ports }))
            ∧ (f.typ = 2 ∨ f.typ = 3 →
              (mapFind (port w p.val).rx q = none → t = returnCredit w p.val q 1)
              ∧ (∀ r, mapFind (port w p.val).rx q = some r → r.drop = false → r.cut = false →
                let left := r.need - min r.need 240
                let data := r.data ++ f.payload.take (min r.need 240)
                (r.fwd = none → left ≠ 0 → mapFind (port t p.val).rx q = some { r with data := data, need := left } ∧ t = { w with ports := t.ports })
                ∧ (r.fwd = none → left = 0 → t = { w with inbox := w.inbox ++ [msgOf f.vc p.val q r.header data], ports := t.ports })
                ∧ (∀ out, r.fwd = some out → t = { w with ports := t.ports } ∧ (port t out).q = (port w out).q ++ [onward w out (leAt r.header 0 2 % 1024) f.payload]))
              ∧ (∀ r, mapFind (port w p.val).rx q = some r → r.drop = true ∨ r.cut = true → t.inbox = w.inbox ∧ MemKept w t
                ∧ (w.run.isSome = true → t.faults = w.faults ++ [(portUnit p.val, 0x06)]) ∧ (w.run = none → t.faults = w.faults)))
            ∧ (f.typ = 5 ∨ f.typ = 6 →
              let dst := leAt f.payload 0 2 % 1024
              let at_ := if f.typ = 5 then 11 else 5
              let op := leAt f.payload 4 1
              let known := (f.typ = 5 ∧ (op = 1 ∨ op = 2)) ∨ (f.typ = 6 ∧ 1 ≤ op ∧ op ≤ 3 ∧ (op = 2 → 1 ≤ leAt f.payload 14 1 ∧ leAt f.payload 14 1 ≤ 3))
              (isMine w dst = true → known → t = { w with ctrlIn := w.ctrlIn ++ [⟨f.typ, p.val, f.payload⟩] })
              ∧ (isMine w dst = true → ¬ known → t.ctrlIn = w.ctrlIn ∧ t = { w with regs := t.regs, events := satOf w t, fired := t.fired, ports := (returnCredit w p.val (shortPool f.typ) 1).ports }
                ∧ (f.typ = 6 → op < 1 ∨ 3 < op → Room w (F.FAB_CNT_COUNT 4) → rd t (F.FAB_CNT_COUNT 4) = rd w (F.FAB_CNT_COUNT 4) + 1))
              ∧ (isMine w dst = false → 64 ≤ leAt f.payload at_ 1 → t = loseFlit w p.val (shortPool f.typ) 1 false)
              ∧ (isMine w dst = false → leAt f.payload at_ 1 < 64 → routePort w dst 0 = none → t = loseFlit w p.val (shortPool f.typ) 0 false)
              ∧ (∀ out, isMine w dst = false → leAt f.payload at_ 1 < 64 → routePort w dst 0 = some out →
                t = passOn w p.val (shortPool f.typ) out f (putBytes f.payload at_ (natLE 1 (leAt f.payload at_ 1 + 1))) dst
                ∧ (port t out).q.length = (port w out).q.length + 1 ∧ t = { w with ports := t.ports }))))))
  ∧ (∀ (w : State) (p q c : Nat) (data : Bool), c ≤ 1 → rd w F.ID_FLT_NEXT_NEXT < 16 →
      let t := loseFlit w p q c data
      (Room w (F.FAB_CNT_COUNT c) → rd t (F.FAB_CNT_COUNT c) = rd w (F.FAB_CNT_COUNT c) + 1) ∧ t.ports = (returnCredit w p q 1).ports
        ∧ t.faults = w.faults ++ (if data ∧ w.run.isSome then [(portUnit p, 0x06)] else []) ∧ t.inbox = w.inbox ∧ MemKept w t)
  ∧ (∀ s : State, firstMgmt s 1 (fun _ => true) = none → exec .featuresReceive s = .next s)
  ∧ (∀ (s : State) (c : CtrlFlit), firstMgmt s 1 (fun _ => true) = some c →
      let b := c.payload.drop 8
      let f : Feature := { src := leAt c.payload 2 2 % 1024, vc := leAt b 0 1, kind := leAt b 1 1, rank := leAt b 2 2, members := leAt b 4 2,
                           crc := leAt b 8 4, feat := leAt b 12 4 }
      (5 < f.vc → exec .featuresReceive s = .next (takeCtrl s c))
      ∧ (f.vc ≤ 5 → ∃ u t, exec .featuresReceive s = .next t ∧ u.ctrlIn = s.ctrlIn.erase c ∧ MemKept s t
        ∧ u.features = s.features.filter (fun g => !(g.src == f.src && g.vc == f.vc)) ++ [f]
        ∧ u = { s with ctrlIn := u.ctrlIn, features := u.features, ports := u.ports }
        ∧ (f.src ∉ members s f.vc → t = u) ∧ (f.src ∈ members s f.vc → t = judgeBinding u f.vc)))

/-- 13 R377, R383 to R394, R398, R406, R407, R410; 18 R516, R520; 19 R544: a port by its clock and its training. -/
def Obligations.PortsStartTrainAndRetrain : Prop :=
  (∀ (s : State) (p : Fin 16),
    let n := p.val
    let x := port s n
    let cnt := F.FP_CNT_COUNT n
    let pick := fun (q : Nat) => if maySendNew s n && hasCredit s n q then firstOfPool x q else none
    let ctrl := (x.q.mapIdx (fun i o => (i, o))).find? (fun e => e.2.typ == 7)
    (portState s n ≠ 4 → portState s n ≠ 6 → exec (.flitTime p) s = .next s)
    ∧ (portState s n = 4 ∨ portState s n = 6 →
      ∃ t bs, exec (.flitTime p) s = .next t ∧ t.wire = s.wire ++ [(n, bs)] ∧ bs.length = 256 ∧ MemKept s t ∧ t.run = s.run)
    ∧ (portState s n = 4 → x.oweAck ≠ 3 → x.credOwed = [] → x.q = [] → x.resend = [] →
      ∃ t, exec (.flitTime p) s = .next t ∧ t.wire = s.wire ++ [(n, flitBytes { ackSeq := x.rxLast, ackKind := x.oweAck })]
        ∧ port t n = { x with oweAck := 0 } ∧ t = { s with ports := t.ports, wire := t.wire })
    ∧ (portState s n = 4 → x.oweAck = 3 → x.q = [] → x.resend = [] →
      ∃ t, exec (.flitTime p) s = .next t
        ∧ t.wire = s.wire ++ [(n, flitBytes { ackSeq := x.rxLast, ackKind := 3, cred := min 255 (readyIn s) })]
        ∧ port t n = { x with oweAck := 0 } ∧ t = { s with ports := t.ports, wire := t.wire })
    ∧ (∀ f rest, portState s n = 4 → x.holding = false → x.resend = f :: rest →
      ∃ t, exec (.flitTime p) s = .next t ∧ (port t n).resend = rest ∧ (port t n).txNext = x.txNext ∧ (port t n).q = x.q
        ∧ (port t n).sent.map (fun g => g.seq) = x.sent.map (fun g => g.seq) ∧ t.regs = s.regs)
    ∧ (∀ q i o, portState s n = 4 → x.holding = true ∨ x.resend = [] →
      (q = 12 ∧ pick 12 = some (i, o)) ∨ (q = 13 ∧ pick 12 = none ∧ ctrl = none ∧ pick 13 = some (i, o))
        ∨ (pick 12 = none ∧ ctrl = none ∧ pick 13 = none ∧ maySendNew s n = true ∧ nextPool s n = some q ∧ firstOfPool x q = some (i, o)) →
      ∃ t, exec (.flitTime p) s = .next t ∧ rd t (F.FP_CRED_HELD n q) = (rd s (F.FP_CRED_HELD n q) - 1) % 2 ^ 16
        ∧ (Room s (cnt 0) → rd t (cnt 0) = rd s (cnt 0) + 1) ∧ (o.origin = false → Room s (cnt 9) → rd t (cnt 9) = rd s (cnt 9) + 1)
        ∧ (port t n).txNext = (x.txNext + 1) % 4096 ∧ (port t n).q = dropAt x.q i
        ∧ (port t n).sent = x.sent ++ [{ seq := x.txNext, typ := o.typ, vc := o.vc, cls := o.cls, payload := o.payload,
                                         time := now s + flitTime s n }]
        ∧ RegsKept s t (F.FP_CRED_HELD n q :: cnt 0 :: cnt 9 :: cnt 10 :: satTouched))
    ∧ (∀ i o, portState s n = 4 → x.holding = true ∨ x.resend = [] → pick 12 = none → ctrl = some (i, o) →
      ∃ t f, exec (.flitTime p) s = .next t ∧ t.wire = s.wire ++ [(n, flitBytes f)] ∧ f.typ = 7 ∧ f.payload = o.payload ∧ (port t n).q = dropAt x.q i
        ∧ (port t n).sent = x.sent ∧ t.regs = s.regs)
    ∧ (portState s n = 4 → x.holding = false →
      x.sent.any (fun f => !x.resend.any (fun g => g.seq == f.seq) && decide (f.time + rd s (F.FP_RTT_RTT n) + 24 < now s)) = true →
      ∃ t, exec (.ackTimeout p) s = .next t ∧ (port t n).resend = x.sent ∧ (port t n).sent = x.sent
        ∧ (Room s (cnt 4) → rd t (cnt 4) = rd s (cnt 4) + 1) ∧ RegsKept s t (cnt 4 :: satTouched)
        ∧ t = { s with regs := t.regs, ports := t.ports, events := satOf s t, fired := t.fired })
    ∧ (portState s n ≠ 4 ∨ x.holding = true
        ∨ x.sent.any (fun f => !x.resend.any (fun g => g.seq == f.seq) && decide (f.time + rd s (F.FP_RTT_RTT n) + 24 < now s)) = false →
      exec (.ackTimeout p) s = .next s)
    ∧ (x.holding = true → x.holdTo ≤ now s → ∃ t, exec (.holdExpiry p) s = .next t ∧ port t n = { x with holding := false, resend := x.sent }
        ∧ t = { s with ports := t.ports })
    ∧ (x.holding = false ∨ now s < x.holdTo → exec (.holdExpiry p) s = .next s)
    ∧ (portState s n = 4 → x.identAt = 0 ∨ 1000000 ≤ now s - x.identAt →
      ∃ t, exec (.identSend p) s = .next t ∧ (port t n).q = x.q ++ [{ typ := 7, vc := 0, payload := payload240 (identPayload s) }]
        ∧ (port t n).identAt = max 1 (now s) ∧ t = { s with ports := t.ports })
    ∧ (portState s n ≠ 4 ∨ (x.identAt ≠ 0 ∧ now s - x.identAt < 1000000) → exec (.identSend p) s = .next s)
    ∧ (s.boot.released = true → s.boot.releasedAt + 2000000 * n ≤ rd s F.TB_NOW_TIME → x.started = false →
      (∀ q < n, (port s q).started = true ∧ (port s q).startAt + 2000000 ≤ rd s F.TB_NOW_TIME) →
      ∃ t, exec (.portStart p) s = .next t ∧ port t n = { x with started := true, startAt := rd s F.TB_NOW_TIME } ∧ t = { s with ports := t.ports })
    ∧ (s.boot.released = false ∨ rd s F.TB_NOW_TIME < s.boot.releasedAt + 2000000 * n ∨ x.started = true
        ∨ (∃ q < n, (port s q).started = false ∨ rd s F.TB_NOW_TIME < (port s q).startAt + 2000000) → exec (.portStart p) s = .next s)
    ∧ (∀ partner,
      let looks := portState s n = 1 ∧ x.started = true ∧ (x.detectAt = 0 ∨ 10000000 ≤ now s - x.detectAt) ∧ (List.range n).any (looksFirst s) = false
      (looks → ∃ t, exec (.portDetect p partner) s = .next t ∧ port t n = { x with detectAt := max 1 (now s), partner := partner }
        ∧ portState t n = (if partner then 2 else 1) ∧ RegsKept s t [F.FP_STAT_STATE n])
      ∧ (¬ looks → exec (.portDetect p partner) s = .next s))
    ∧ (∀ lanes rtt conf,
      let ok := lanes % 256 - (lanes % 256 &&& x.removed)
      let sends := if portState s n = 2 then [(n, portConf s n ok)] else []
      let mine := rd s F.ID_PROTO_COLSY_MAJ
      let minor := rd s F.ID_PROTO_COLSY_MIN
      let agreed := agreedColsy mine minor (leAt conf 0 1) (leAt conf 1 1) (leAt conf 2 1)
      (portState s n ≠ 2 → portState s n ≠ 3 → exec (.portTrainDone p lanes rtt conf) s = .next s)
      ∧ (portState s n = 2 ∨ portState s n = 3 →
        (widthsOf ok = 0 → exec (.portTrainDone p lanes rtt conf) s = .next (failedAttempt s n))
        ∧ (widthsOf ok ≠ 0 → conf.length ≠ 37 →
          ∃ t, exec (.portTrainDone p lanes rtt conf) s = .next t ∧ portState t n = 3 ∧ t.wire = s.wire ++ sends
            ∧ RegsKept s t [F.FP_STAT_STATE n] ∧ t = { s with regs := t.regs, events := satOf s t, fired := t.fired, wire := t.wire })
        ∧ (widthsOf ok ≠ 0 → conf.length = 37 → ∀ w h, chooseWidth ok (leAt conf 4 1) = some (w, h) → rd s F.ID_FLT_NEXT_NEXT < 16 →
          ∃ t, exec (.portTrainDone p lanes rtt conf) s = .next t ∧ rd t (F.FP_STAT_WIDTH n) = w ∧ rd t (F.FP_STAT_HALF n) = h
            ∧ rd t (F.FP_STAT_LANE_OK n) = widthLanes w h ∧ rd t (F.FP_RTT_RTT n) = rtt % 2 ^ 16
            ∧ rd t (F.FP_PARTNER_PORT n) = leAt conf 3 1 % 16 ∧ rd t (F.FP_PFEAT_FEAT n) = leAt conf 33 4 ∧ t.wire = s.wire ++ sends
            ∧ (∀ q, q < 14 → rd t (F.FP_CRED_HELD n q) = leAt conf (5 + 2 * q) 2) ∧ (port t n).sent = [] ∧ (port t n).q = x.q ∧ MemKept s t
            ∧ (∀ a b, agreed = some (a, b) → portState t n = 4 ∧ rd t (F.FP_STAT_RUN_MAJ n) = a % 256 ∧ rd t (F.FP_STAT_RUN_MIN n) = b % 256)
            ∧ (agreed = none → portState t n = 6))
        ∧ (widthsOf ok ≠ 0 → conf.length = 37 → chooseWidth ok (leAt conf 4 1) = none →
          ∃ t u, exec (.portTrainDone p lanes rtt conf) s = .next t ∧ t = failedAttempt u n ∧ portState u n = 2 ∧ port u n = x
            ∧ u.wire = s.wire ++ sends ∧ RegsKept s u [F.FP_STAT_STATE n])))
    ∧ (x.fails < 2 →
      let t := failedAttempt s n
      port t n = { x with fails := x.fails + 1 } ∧ (Room s (cnt 8) → rd t (cnt 8) = rd s (cnt 8) + 1) ∧ RegsKept s t (cnt 8 :: satTouched)
        ∧ t = { s with regs := t.regs, ports := t.ports, events := satOf s t, fired := t.fired })
    ∧ (2 ≤ x.fails → portState s n ≠ 7 → rd s F.ID_FLT_NEXT_NEXT < 16 →
      portState (failedAttempt s n) n = 7 ∧ portUnit n ∈ (failedAttempt s n).retired)
    ∧ (let begun := fun (u t : State) => portState t n = 5 ∧ (Room u (cnt 7) → rd t (cnt 7) = rd u (cnt 7) + 1)
          ∧ RegsKept u t (cnt 7 :: F.FP_STAT_STATE n :: satTouched) ∧ OnlyRegsEvents u t
      (portState s n = 4 → (x.thresh = true → ∃ t, exec (.portRetrain p .threshold) s = .next t ∧ begun s t)
        ∧ (x.thresh = false → exec (.portRetrain p .threshold) s = .next s)
        ∧ (∃ t, exec (.portRetrain p .partner) s = .next t ∧ begun s t)
        ∧ (rd s F.ID_FLT_NEXT_NEXT < 16 →
          let lost := x.sent.any (fun f => isData f.vc)
          let runs := match s.run with | some r => !r.halted | none => false
          ∃ t, exec (.portRetrain p .partnerRestart) s = .next t ∧ portState t n = 2 ∧ (port t n).sent = [] ∧ (port t n).resend = []
            ∧ (port t n).q = (x.sent.filter (fun f => !isData f.vc)).map resendFlit ++ wholeFlits x.q []
            ∧ t.faults = s.faults ++ (if (lost || runs) && s.run.isSome then [(portUnit n, 0x0D)] else []) ∧ MemKept s t)
        ∧ (∀ lane : Fin 8, bit (rd s (F.FP_STAT_LANE_OK n)) lane.val = true → ∃ t, exec (.laneLossOfLock p lane) s = .next t ∧ begun s t)
        ∧ (closedWindow s (F.FP_CFG_RETRAIN n).word = false →
          ∃ u t, exec (.fpRetrain p) s = .next t ∧ rd u (F.FP_CFG_RETRAIN n) = 1 ∧ RegsKept s u [F.FP_CFG_RETRAIN n] ∧ OnlyRegs s u ∧ begun u t))
      ∧ (portState s n ≠ 4 → (∀ cause, exec (.portRetrain p cause) s = .next s) ∧ (∀ lane : Fin 8, exec (.laneLossOfLock p lane) s = .next s)
        ∧ (closedWindow s (F.FP_CFG_RETRAIN n).word = false →
          ∃ t, exec (.fpRetrain p) s = .next t ∧ rd t (F.FP_CFG_RETRAIN n) = 1 ∧ RegsKept s t [F.FP_CFG_RETRAIN n] ∧ OnlyRegs s t))
      ∧ (closedWindow s (F.FP_CFG_RETRAIN n).word = true → exec (.fpRetrain p) s = .next (recordRsvd s (F.FP_CFG_RETRAIN n).word)))
    ∧ (∀ lane : Fin 8, bit (rd s (F.FP_STAT_LANE_OK n)) lane.val = false → exec (.laneLossOfLock p lane) s = .next s)
    ∧ (∀ lanes,
      let i := Instr.retrainDone (.port p) lanes
      let gone := if x.thresh then x.removed ||| 2 ^ failingLane s n else x.removed
      (portState s n ≠ 5 → exec i s = .next s)
      ∧ (portState s n = 5 → rd s F.ID_FLT_NEXT_NEXT < 16 →
        (x.thresh = true → rd s (F.FP_STAT_WIDTH n) ≠ 2 → ∃ t, exec i s = .next t ∧ portState t n = 7 ∧ portUnit n ∈ t.retired)
        ∧ (x.thresh = false ∨ rd s (F.FP_STAT_WIDTH n) = 2 →
          (∀ w h, retrainWidth s n lanes gone = some (w, h) →
            ∃ t, exec i s = .next t ∧ portState t n = 4 ∧ rd t (F.FP_STAT_WIDTH n) = w ∧ rd t (F.FP_STAT_HALF n) = h
              ∧ (port t n).fails = 0 ∧ (port t n).sent = x.sent ∧ MemKept s t ∧ t.run = s.run)
          ∧ (retrainWidth s n lanes gone = none →
            exec i s = .next (failedAttempt (setPort s n { x with removed := gone, thresh := false, replays := [] }) n))))))
  ∧ (∀ (s : State) (b : Fin 8) (lanes : Nat) (remove : Option (Fin 16)) (lost : Bool),
    rd s F.ID_FLT_NEXT_NEXT < 16 →
    let i := Instr.retrainDone (.board b remove lost) lanes
    let was := s.boards.getD b.val 16
    let gone := s.boardRemoved.getD b.val 0 ||| (match remove with | some l => 2 ^ l.val | none => 0)
    let ok := lanes % 65536 - (lanes % 65536 &&& gone)
    let half := ok % 256 = 0xFF ∨ ok / 256 = 0xFF
    let retires := ∃ t, exec i s = .next t ∧ t.boards = setAt s.boards b.val 0 ∧ (0x9000 + b.val) ∈ t.retired ∧ MemKept s t
      ∧ t.faults = s.faults ++ (if lost ∧ s.run.isSome then [(0x9000 + b.val, 0x06)] else [])
    (was = 0 → exec i s = .next s)
    ∧ (was = 8 → remove.isSome = true → retires)
    ∧ (was = 16 → ok = 0xFFFF → exec i s = .next { s with boardRemoved := setAt s.boardRemoved b.val 0, boardFails := setAt s.boardFails b.val 0 })
    ∧ (was = 16 → ok ≠ 0xFFFF → half → ∃ t, exec i s = .next t ∧ t.boards = setAt s.boards b.val 8 ∧ t.boardFails = setAt s.boardFails b.val 0
        ∧ t.boardRemoved = setAt s.boardRemoved b.val (gone ||| (0xFFFF - ok)) ∧ (0x9000 + b.val) ∈ t.retired ∧ MemKept s t)
    ∧ (was = 8 → remove = none → half → exec i s = .next { s with
        boardRemoved := setAt s.boardRemoved b.val (gone ||| (0xFFFF - ok)), boardFails := setAt s.boardFails b.val 0 })
    ∧ (was = 16 ∨ (was = 8 ∧ remove = none) → ¬ half → s.boardFails.getD b.val 0 < 2 → exec i s = .next { s with
        boardRemoved := setAt s.boardRemoved b.val gone, boardFails := setAt s.boardFails b.val (s.boardFails.getD b.val 0 + 1) })
    ∧ (was = 16 ∨ (was = 8 ∧ remove = none) → ¬ half → 2 ≤ s.boardFails.getD b.val 0 → retires))

/-- 15 R450. -/
def Obligations.CxlMemBeyondAndPoisoned : Prop :=
  (∀ (s : State) (line : BitVec 46) (o : Nat), hdmDpa s (line.toNat * 64) = some o → rd s F.HA_CKPT_SIZE_SIZE * 2 ^ 30 ≤ o →
    let counted := fun (t : State) => (Room s (F.HA_CNT_COUNT 4) → rd t (F.HA_CNT_COUNT 4) = rd s (F.HA_CNT_COUNT 4) + 1)
      ∧ RegsKept s t (F.HA_CNT_COUNT 4 :: satTouched) ∧ t = { s with regs := t.regs, events := satOf s t, fired := t.fired, replies := t.replies }
    (∀ err, ∃ t, exec (.cxlMemRead line err) s = .next t ∧ t.replies = s.replies ++ [.memData o (List.replicate 64 0) false] ∧ counted t)
    ∧ (∀ data, ∃ t, exec (.cxlMemWrite line data) s = .next t ∧ t.mem = s.mem ∧ t.poison = s.poison
      ∧ t.replies = s.replies ++ [.memDone o] ∧ counted t))
  ∧ (∀ (s : State) (line : BitVec 46) (err : StoreErr) (o m off : Nat), hdmDpa s (line.toNat * 64) = some o → o < rd s F.HA_CKPT_SIZE_SIZE * 2 ^ 30 →
      let a := windowAddr s o
      (udParked s (o / 4096 % 4) = true → exec (.cxlMemRead line err) s = .next s)
      ∧ (regionOf a = .slow m off → udParked s (o / 4096 % 4) = false → rd s F.ID_FLT_NEXT_NEXT < 16 →
        (poisonedAt s a = true → s.biWait.find? (fun w => w.line == a) = none →
          ∃ t, exec (.cxlMemRead line err) s = .next t ∧ t.replies = s.replies ++ [.memData o (ldBytes s a 64) true]
            ∧ (Room s (F.HA_CNT_COUNT 5) → rd t (F.HA_CNT_COUNT 5) = rd s (F.HA_CNT_COUNT 5) + 1) ∧ poisonedAt t a = true ∧ t.mem = s.mem)
        ∧ (∀ w, s.biWait.find? (fun w => w.line == a) = some w → w.bad = true →
          ∃ t, exec (.cxlMemRead line err) s = .next t ∧ t.replies = s.replies ++ [.memData o w.old true]
            ∧ (Room s (F.HA_CNT_COUNT 5) → rd t (F.HA_CNT_COUNT 5) = rd s (F.HA_CNT_COUNT 5) + 1) ∧ t.biWait = s.biWait ∧ t.mem = s.mem)))

/-- 16 R461, R468 to R474, R486, R487; 20 R573 (an access to a parked die's memory waits: the model's reading, log 127). -/
def Obligations.PlainCommandsEnd : Prop :=
  ∀ (s : State) (r : Fin 16) (seq : Nat) (c : Cmd),
    (∀ (op : Nat) (i : Instr), (op = 0 ∧ (i = .nopCmd r seq ∨ i = .echo r seq)) ∨ (op = 1 ∧ i = .queryVersion r seq) ∨ (op = 0x40 ∧ i = .readState r seq)
        ∨ (op = 0x41 ∧ i = .readJournal r seq) ∨ (op = 0x11 ∧ ∃ b, i = .bindGroups r seq b) ∨ (op = 0x12 ∧ ∃ b, i = .setTablePair r seq b)
        ∨ (op = 0x12 ∧ ∃ j g k t, i = .setTableUpdate r seq j g k t) ∨ (op = 0x13 ∧ ∃ b, i = .setScales r seq b)
        ∨ (op = 0x10 ∧ ∃ b, i = .loadProgram r seq b) ∨ (op = 0x30 ∧ ∃ b, i = .copyIn r seq b) ∨ (op = 0x31 ∧ ∃ e, i = .copyOut r seq e)
        ∨ (op = 0x32 ∧ i = .checkpointMap r seq) →
      let ends := fun (st detail : Nat) => ∃ t, exec i s = .next t ∧ Executed s t r.val seq st detail []
      (cmdOf s r.val seq = none → exec i s = .next s)
      ∧ (cmdOf s r.val seq = some c → c.opcode ≠ op ∨ mayBegin s c = false → exec i s = .next s)
      ∧ (cmdOf s r.val seq = some c → c.opcode = op → mayBegin s c = true →
        let other := op ≠ 0 ∧ op ≠ 1 ∧ (c.param 3 1, c.param 2 1) ≠ c.ver
        (other → ends 0x12 0) ∧ (¬ other → headReserved c = true → ends 0x11 0x20)
          ∧ (¬ other → headReserved c = false → fenceInvalid s c = true → ends 0x11 0x2B)))
    ∧ (Begins s r seq 0x00 c → zeroBytes c 0x10 48 = true → ∃ t, exec (.nopCmd r seq) s = .next t ∧ Executed s t r.val seq 0 0 [])
    ∧ (Begins s r seq 0x00 c → c.param 0x10 1 = 1 → zeroBytes c 0x11 15 = true → zeroBytes c 0x30 16 = true →
      ∃ t, exec (.echo r seq) s = .next t ∧ Executed s t r.val seq 0 0 (sliceBytes c.entry 0x20 16))
    ∧ (Begins s r seq 0x01 c → zeroBytes c 0x13 45 = true →
      let maj := rd s F.ID_PROTO_SHOAVO_MAJ
      let mi := rd s F.ID_PROTO_SHOAVO_MIN
      (∀ a b, agreedVersion maj mi (c.param 0x11 1) (c.param 0x10 1) (c.param 0x12 1) = some (a, b) →
        ∃ u t, exec (.queryVersion r seq) s = .next t ∧ Executed u t r.val seq 0 0 (natLE 1 b ++ natLE 1 a ++ natLE 1 mi ++ natLE 1 maj ++ natLE 1 1)
          ∧ u = setVersion s r.val seq (a, b) ∧ u = { s with regs := u.regs, journal := u.journal }
          ∧ (agreedLater s r.val seq = false → rd u (F.CMD_RING_STAT_VER_MAJ r.val) = a % 256 ∧ rd u (F.CMD_RING_STAT_VER_MIN r.val) = b % 256)
          ∧ (agreedLater s r.val seq = true → u.regs = s.regs)
          ∧ RegsKept s u [F.CMD_RING_STAT_VER_MAJ r.val, F.CMD_RING_STAT_VER_MIN r.val])
      ∧ (agreedVersion maj mi (c.param 0x11 1) (c.param 0x10 1) (c.param 0x12 1) = none →
        ∃ t, exec (.queryVersion r seq) s = .next t ∧ Executed s t r.val seq 0x12 0 ([0, 0] ++ natLE 1 mi ++ natLE 1 maj ++ natLE 1 1)))
    ∧ (∀ size bs, Begins s r seq 0x40 c → zeroBytes c 0x13 1 = true → zeroBytes c 0x2C 20 = true → c.param 0x12 1 ≤ 8 →
      (c.param 0x12 1 = 3 ∨ c.param 0x12 1 = 4 → c.param 0x14 4 ≤ 15) → c.param 0x20 8 % 64 = 0 → c.param 0x28 4 % 4 = 0 →
      4 ≤ c.param 0x28 4 → c.param 0x28 4 ≤ 2 ^ 24 → (c.param 0x12 1 = 0 → c.param 0x18 8 % 4 = 0) → unitValid (c.param 0x10 2) = true →
      stateSpace s (c.param 0x10 2) (c.param 0x12 1) (c.param 0x14 4) (c.param 0x18 8) (c.param 0x28 4) = some (size, bs) →
      c.param 0x18 8 + c.param 0x28 4 ≤ size → (c.param 0x12 1 = 6 → populatedRun (c.param 0x18 8) (c.param 0x28 4) = true) →
      let parked := c.param 0x12 1 = 6 ∧ parkedRun s (c.param 0x18 8) (c.param 0x28 4) = true
      (¬ parked → ∃ u t, exec (.readState r seq) s = .next t ∧ Executed u t r.val seq 0 0 []
        ∧ u = { s with hostOut := s.hostOut ++ [(c.param 0x20 8, bs)] })
      ∧ (parked → exec (.readState r seq) s = .next s))
    ∧ (Begins s r seq 0x41 c → c.param 0x10 1 < 16 → zeroBytes c 0x11 3 = true → zeroBytes c 0x1A 6 = true → zeroBytes c 0x28 24 = true →
      1 ≤ c.param 0x18 2 → c.param 0x18 2 ≤ 4096 → c.param 0x20 8 % 64 = 0 →
      ∃ u t, exec (.readJournal r seq) s = .next t ∧ Executed u t r.val seq 0 0 []
        ∧ u = { s with hostOut := s.hostOut ++ [(c.param 0x20 8, (List.range (c.param 0x18 2)).flatMap (fun i =>
            journalRecord s (c.param 0x10 1) ((c.param 0x14 4 + i) % 2 ^ 32)))] })

/-- 16 R476 to R478; 06 R192; 12 R347; log 117, log 127. -/
def Obligations.TablesAndBindingsSet : Prop :=
  ∀ (s : State) (r : Fin 16) (seq : Nat) (c : Cmd),
    (∀ b, Begins s r seq 0x11 c → zeroBytes c 0x18 40 = true → c.param 0x10 8 % 64 = 0 → s.run = none → rd s F.ID_MODULE_VALID = 1 →
      b.length = 12352 → leAt b 0x30 16 = 0 → (List.range 6).all (bindFieldsOk b) = true → (List.range 6).all (bindListOk s b) = true →
      ∃ u t, exec (.bindGroups r seq b) s = .next t ∧ Executed u t r.val seq 0 0 [] ∧ u.journal = s.journal ∧ u.bindRec = b
        ∧ (∀ v, v < 6 → rd u (F.FAB_BIND_W0_KIND v) = (bindEntry b v).1 ∧ rd u (F.FAB_BIND_W0_MEMBERS v) = (bindEntry b v).2.1
            ∧ rd u (F.FAB_BIND_W0_RANK v) = (bindEntry b v).2.2 ∧ members u v = (if v < s.groups.length then bindList b v else members s v)
            ∧ rd u (F.FAB_BIND_W2_LIST_CRC v) = (if (bindEntry b v).1 = 0 then 0 else crc32c ((bindList b v).flatMap (natLE 2)) % 2 ^ 32)
            ∧ ((bindEntry b v).1 = 0 → rd u (F.FAB_BIND_W0_STATE v) = 0)) ∧ MemKept s u ∧ u.cores = s.cores ∧ u.prog = s.prog)
    ∧ (∀ tables, Begins s r seq 0x12 c → c.param 0x10 1 = 0 → c.param 0x11 1 ≤ 15 → zeroBytes c 0x12 6 = true → zeroBytes c 0x20 32 = true →
      c.param 0x18 8 % 64 = 0 → tables.length = 2 * ftBytes → ftableOk (tables.take ftBytes) = true → ftableOk (tables.drop ftBytes) = true →
      let gen := (pairGen s (c.param 0x11 1) + 1) % 256
      ∃ u t, exec (.setTablePair r seq tables) s = .next t ∧ Executed u t r.val seq 0 0 (natLE 1 gen) ∧ u.journal = s.journal ∧ MemKept s u
        ∧ (s.run = none → u = applyTables { s with ftPend := mapPut s.ftPend (c.param 0x11 1) ⟨gen, tables⟩ } ∧ u.ftPend = []
          ∧ (s.ftPend = [] → mapFind u.ftabs (c.param 0x11 1) = some ⟨gen, tables⟩))
        ∧ (s.run ≠ none → u = { s with ftPend := mapPut s.ftPend (c.param 0x11 1) ⟨gen, tables⟩ }))
    ∧ (∀ job group curve tensor, Begins s r seq 0x12 c → c.param 0x10 1 = 1 → c.param 0x11 1 = 0 → zeroBytes c 0x12 6 = true →
      zeroBytes c 0x38 8 = true → misaligned64 [c.param 0x18 8, c.param 0x20 8, c.param 0x28 8, c.param 0x30 8] = false →
      job.length = 128 → group.length = 64 * (UpdTables.mk job group curve tensor).groups → curve.length = 256 * 2048 →
      tensor.length = 64 * leAt job 0x14 2 → tablesOk s ⟨job, group, curve, tensor⟩ = true →
      let gen := fun (m : Nat) => (rd s (F.UD_TABGEN_TABLE_GEN m) + 1) % 256
      ∃ u t, exec (.setTableUpdate r seq job group curve tensor) s = .next t ∧ Executed u t r.val seq 0 0 (natLE 1 (gen 0))
        ∧ u.journal = s.journal ∧ MemKept s u ∧ (∀ m, m < 4 → rd u (F.UD_TABGEN_TABLE_GEN m) = gen m)
        ∧ (s.run = none → u.upd = some ⟨job, group, curve, tensor⟩ ∧ u.pair = some (leAt job 0x18 8, leAt job 0x20 8, leAt job 0x28 8)
            ∧ (∀ m, m < 4 → rd u (F.UD_GEN_TABLES_VALID m) = 1 ∧ rd u (F.UD_GEN_PAIR_VALID m) = 1))
        ∧ (s.run ≠ none → u.updPend = some ⟨job, group, curve, tensor⟩ ∧ u.upd = s.upd ∧ u.pair = s.pair))
    ∧ (∀ data a b n, Begins s r seq 0x13 c → zeroBytes c 0x28 24 = true → misaligned64 [c.param 0x10 8, c.param 0x20 8] = false →
      64 ≤ c.param 0x20 8 → c.param 0x20 8 ≤ 2 ^ 30 → s.pair = some (a, b, n) → a ≤ c.param 0x18 8 → c.param 0x18 8 + c.param 0x20 8 ≤ a + n →
      data.length = c.param 0x20 8 →
      (s.run.isSome = true → ∃ t, exec (.setScales r seq data) s = .next t ∧ Executed s t r.val seq 0x11 0x23 [])
      ∧ (s.run = none → parkedRun s (c.param 0x18 8) (c.param 0x20 8) = true → exec (.setScales r seq data) s = .next s)
      ∧ (s.run = none → parkedRun s (c.param 0x18 8) (c.param 0x20 8) = false →
        (data.any (fun x => x == 0xFF) = true → ∃ t, exec (.setScales r seq data) s = .next t ∧ Executed s t r.val seq 0x11 0x20 [])
        ∧ (data.any (fun x => x == 0xFF) = false →
          ∃ u t, exec (.setScales r seq data) s = .next t ∧ Executed u t r.val seq 0 0 [] ∧ u = stBytes s (c.param 0x18 8) data
            ∧ StoresWithin s u [(c.param 0x18 8, c.param 0x20 8)])))

/-- 04 R128, R129; 16 R475. -/
def Obligations.ProgramsLoadOrAreRefused : Prop :=
  ∀ (s : State) (r : Fin 16) (seq : Nat) (c : Cmd) (b : List Byte), Begins s r seq 0x10 c → zeroBytes c 0x20 32 = true →
    c.param 0x10 8 % 64 = 0 → 64 ≤ c.param 0x18 8 →
    let m := imageOf b
    let parked := m.ranges.any (fun q => parkedRun s q.base q.len)
    (s.run.isSome = true → ∃ t, exec (.loadProgram r seq b) s = .next t ∧ Executed s t r.val seq 0x11 0x23 [])
    ∧ (s.run = none → b.length = c.param 0x18 8 → parked = true → exec (.loadProgram r seq b) s = .next s)
    ∧ (s.run = none → b.length = c.param 0x18 8 → parked = false → (loadDetail s b (c.param 0x18 8) = none →
      ∃ u t p, exec (.loadProgram r seq b) s = .next t ∧ Executed u t r.val seq 0 0 (natLE 4 (leAt b 0x10 4) ++ natLE 4 0 ++ natLE 8 (now u))
        ∧ u.journal = s.journal ∧ u.prog = some p ∧ p.image = b ∧ p.ranges = m.ranges.map (fun q => (q.base, q.len, q.access))
        ∧ (∀ q ∈ m.streams, ∀ d, streamCore s q = some d → (Machine.core u d).occupied = true)
        ∧ rd u F.CMD_STAT_STEP_STATE = 1 ∧ rd u F.ID_HEALTH_FATAL = 0 ∧ u.posts = [] ∧ u.hurdleBits = [] ∧ u.firstRun = true ∧ u.run = none
        ∧ StoresWithin s u (m.ranges.map (fun q => (q.base, q.initLen)) ++ [(m.h 0x20 8, 128 * m.h 0x28 4)])
        ∧ u.mem = (stBytes (writeInit s b m) (m.h 0x20 8) (newHistory s m)).mem)
    ∧ (∀ d, loadDetail s b (c.param 0x18 8) = some d →
      ∃ u t, exec (.loadProgram r seq b) s = .next t ∧ Executed u t r.val seq 0x11 d [] ∧ u.journal = s.journal ∧ u.prog = none
        ∧ (∀ x, (Machine.core u x).occupied = false) ∧ rd u F.CMD_STAT_STEP_STATE = 0 ∧ RegsKept s u [F.CMD_STAT_STEP_STATE] ∧ MemKept s u))

/-- 11 R322; 16 R466, R484, R485; 19 R550. -/
def Obligations.CopiesAndCheckpointWindow : Prop :=
  ∀ (s : State) (r : Fin 16) (seq : Nat) (c : Cmd),
    (∀ data, Begins s r seq 0x30 c → copyDetail c = none → reachesStaged s (c.param 0x18 8) (c.param 0x20 8) = false →
      data.length = c.param 0x20 8 →
      (copyWaits s (c.param 0x18 8) (c.param 0x20 8) = false →
        ∃ u t, exec (.copyIn r seq data) s = .next t ∧ Executed u t r.val seq 0 0 [] ∧ u = stBytes s (c.param 0x18 8) data ∧ StoresWithin s u [(c.param 0x18 8, c.param 0x20 8)])
      ∧ (copyWaits s (c.param 0x18 8) (c.param 0x20 8) = true → exec (.copyIn r seq data) s = .next s))
    ∧ (∀ err, Begins s r seq 0x31 c → copyDetail c = none →
      let a := c.param 0x18 8
      let n := c.param 0x20 8
      (copyWaits s a n = false →
        (readRuns s [(a, n)] err = none → exec (.copyOut r seq err) s = .next s)
        ∧ (∀ v, readRuns s [(a, n)] err = some (false, v) → exec (.copyOut r seq err) s = .next v)
        ∧ (∀ v, readRuns s [(a, n)] err = some (true, v) →
          ∃ u t, exec (.copyOut r seq err) s = .next t ∧ Executed u t r.val seq 0 0 []
            ∧ u = { v with hostOut := v.hostOut ++ [(c.param 0x10 8, ldBytes v a n)] }))
      ∧ (copyWaits s a n = true → exec (.copyOut r seq err) s = .next s))
    ∧ (s.poison = [] → ∀ l, readRuns s l .clean = some (true, s))
    ∧ (∀ d e data, (Begins s r seq 0x30 c → copyDetail c = some d → ∃ t, exec (.copyIn r seq data) s = .next t ∧ Executed s t r.val seq 0x11 d [])
      ∧ (Begins s r seq 0x31 c → copyDetail c = some d → ∃ t, exec (.copyOut r seq e) s = .next t ∧ Executed s t r.val seq 0x11 d [])
      ∧ (Begins s r seq 0x30 c → copyDetail c = none → reachesStaged s (c.param 0x18 8) (c.param 0x20 8) = true →
        ∃ t, exec (.copyIn r seq data) s = .next t ∧ Executed s t r.val seq 0x11 0x21 []))
    ∧ (Begins s r seq 0x32 c → zeroBytes c 0x12 6 = true → zeroBytes c 0x38 8 = true → c.param 0x10 2 % 4 = 0 → c.param 0x10 2 ≤ 512 →
      (∀ m, m < 4 → c.param (0x18 + 8 * m) 8 % 2 ^ 21 = 0) →
      (c.param 0x10 2 ≠ 0 → ∀ m, m < 4 → ∃ off, regionOf (c.param (0x18 + 8 * m) 8) = .slow m off
          ∧ off + c.param 0x10 2 * 2 ^ 28 ≤ fwOffset) →
      ∃ u t, exec (.checkpointMap r seq) s = .next t ∧ Executed u t r.val seq 0 0 [] ∧ rd u F.HA_CKPT_SIZE_SIZE = c.param 0x10 2
        ∧ (∀ m, m < 4 → rd u (F.HA_CKPT_BASE_ADDR m) = c.param (0x18 + 8 * m) 8 % 2 ^ 48)
        ∧ RegsKept s u (F.HA_CKPT_SIZE_SIZE :: (List.range 4).map F.HA_CKPT_BASE_ADDR) ∧ OnlyRegs s u)

/-- 16 R479 to R481; 01 R21, R22; 03 R90; 04 R129; 18 R517, R533: how a step begins. -/
def Obligations.StepsBegin : Prop :=
  ∀ (s : State) (r : Fin 16) (seq : Nat) (c : Cmd),
    let starts := fun (v t : State) =>
      ∃ u, u = applyRemaps v ∧ rd t F.CMD_STAT_STEP_STATE = 2 ∧ t.posts = [] ∧ t.journal = (markStarted s r.val seq).journal ∧ t.remaps = []
        ∧ StoresWithin u t ((List.range ((s.prog.map (fun p => p.amaxLen)).getD 0)).flatMap (fun i =>
            let a := ((s.prog.map (fun p => p.amaxBase)).getD 0) + 128 * i
            [(a + 0x40, 4), (a + 0x60, 8)]))
        ∧ (∀ d ∈ occupiedCores u, coreSlot u d ≠ none → ((cluster u d.cluster).copying = false → CoreStarted u t d)
          ∧ ((cluster u d.cluster).copying = true → rd t (F.CO_SEQ_STAT_STATE d) = 0 ∧ (Machine.core t d).held = true))
    let bad := fun (i : Instr) (d : Nat) => ∃ t, exec i s = .next t ∧ Executed s t r.val seq 0x11 d []
    (Begins s r seq 0x20 c → c.param 0x14 1 ≤ 1 → zeroBytes c 0x16 2 = true → zeroBytes c 0x20 32 = true → roundsBad c = false →
      (∀ d, runStepDetail s c = some d → bad (.runStep r seq) d)
      ∧ (runStepDetail s c = none →
        (bindingPending s (stepVcs s c) = true ∨ boundaryWaits s = true → exec (.runStep r seq) s = .next s)
        ∧ (bindingPending s (stepVcs s c) = false → boundaryWaits s = false →
          (∀ step id, s.replay.rejoin = some (step, id) → ∃ v, exec (.runStep r seq) s = .next (enterStop v step ((id + 1) % 65536) (moduleId s) 0xFFFF)
            ∧ v.run = some (runOf r.val seq c) ∧ v.replay.rejoin = none ∧ v.journal = (markStarted s r.val seq).journal)
          ∧ (s.replay.rejoin = none → lostSlot s = true → exec (.runStep r seq) s = .next (fatalFault s (lostUnit s) 0x07))
          ∧ (s.replay.rejoin = none → lostSlot s = false →
            ∃ t v q, exec (.runStep r seq) s = .next t ∧ v = beginStep s r.val seq c ∧ starts v t ∧ t.run = some q ∧ q.ring = r.val ∧ q.seq = seq
              ∧ q.step = c.param 0x10 4 ∧ q.commit = bit (c.param 0x14 1) 0 ∧ q.program = false ∧ q.halted = false ∧ q.committing = false
              ∧ t.firstRun = false ∧ t.replay.step = q.step
              ∧ (s.firstRun = false → v = { s with journal := v.journal, run := v.run, replay := v.replay })))))
    ∧ (Begins s r seq 0x21 c → zeroBytes c 0x10 48 = true →
      (∀ d, runProgramDetail s = some d → bad (.runProgram r seq) d)
      ∧ (runProgramDetail s = none →
        (bindingPending s (programVcs s) = true ∨ boundaryWaits s = true → exec (.runProgram r seq) s = .next s)
        ∧ (bindingPending s (programVcs s) = false → boundaryWaits s = false →
          (lostSlot s = true → ∃ t, exec (.runProgram r seq) s = .next t ∧ Executed s t r.val seq 0x21 0x34 [])
          ∧ (lostSlot s = false →
            ∃ t v q, exec (.runProgram r seq) s = .next t ∧ starts v t ∧ v = { s with free := s.free + 1, journal := v.journal, run := v.run }
              ∧ t.run = some q ∧ v.run = some q ∧ q.ring = r.val ∧ q.seq = seq ∧ q.program = true ∧ q.halted = false))))
    ∧ (Begins s r seq 0x22 c → zeroBytes c 0x14 1 = true → zeroBytes c 0x16 2 = true → zeroBytes c 0x20 32 = true → roundsBad c = false →
      (s.run = none → bad (.commitStep r seq) 0x29)
      ∧ (∀ q, s.run = some q → q.program = true ∨ q.committing = true ∨ q.step ≠ c.param 0x10 4 → bad (.commitStep r seq) 0x29)
      ∧ (∀ q, s.run = some q → q.program = false → q.committing = false → q.step = c.param 0x10 4 →
        ∃ v p, v = { s with journal := (markStarted s r.val seq).journal, run := some p } ∧ p.committing = true ∧ p.cRing = r.val ∧ p.cSeq = seq ∧ p.round = 0
          ∧ p.cRounds = c.param 0x15 1 ∧ p.cRoundVc = c.param 0x18 4 ∧ p.cLimit = c.param 0x1C 4 ∧ p.cTime = now s ∧ p.step = q.step
          ∧ p.halted = q.halted ∧ p.ring = q.ring ∧ p.seq = q.seq
          ∧ (∀ step id, s.replay.rejoin = some (step, id) → exec (.commitStep r seq) s
              = .next (enterStop { v with replay := { s.replay with rejoin := none } } step ((id + 1) % 65536) (moduleId s) 0xFFFF))
          ∧ (s.replay.rejoin = none →
            ∃ t, exec (.commitStep r seq) s = .next t ∧ rd t F.CMD_STAT_STEP_STATE = (if q.halted && !replaying s then 4 else rd s F.CMD_STAT_STEP_STATE)
              ∧ RegsKept s t [F.CMD_STAT_STEP_STATE] ∧ t = { v with regs := t.regs, events := satOf v t, fired := t.fired })))

/-- 16 R481 to R483; 12 R368, R370; 04 R120: the commit. -/
def Obligations.CommitsFlipOrSkip : Prop :=
  let committed := fun (s t : State) (q : StepRun) (skip : Bool) =>
    ∃ u, t = endRun (finish u q.cRing q.cSeq (if skip then 0x30 else if q.replays = 0 then 0 else 0x20) 0
          (if q.commit then stepResult u q.step q.replays else natLE 1 (genCur u)))
      ∧ t.run = none ∧ u.journal = s.journal ∧ u.failedStep = none ∧ u.commits = s.commits.filter (fun m => m.step != q.step)
      ∧ rd u F.CMD_LAST_STEP_STEP = q.step % 2 ^ 32 ∧ rd u F.CMD_STAT_STEP_VALID = 1
      ∧ (skip = false → ∀ m, m < 4 → rd u (F.UD_GEN_CUR m) = (1 - rd s (F.UD_GEN_CUR m)) % 2)
      ∧ (skip = true → ∀ m, m < 4 → rd u (F.UD_GEN_CUR m) = rd s (F.UD_GEN_CUR m)
          ∧ (Room s (F.UD_CNT_COUNT m 4) → rd u (F.UD_CNT_COUNT m 4) = rd s (F.UD_CNT_COUNT m 4) + 1))
      ∧ ((s.prog.map (fun p => p.amaxLen)).getD 0 = 0 → MemKept s u)
      ∧ (q.cRing < 16 → (∀ r ∈ s.remaps, r.2.1 < 8) → rd t F.CMD_LAST_STEP_STEP = q.step % 2 ^ 32 ∧ rd t F.CMD_STAT_STEP_VALID = 1
          ∧ ∀ m, m < 4 → rd t (F.UD_GEN_CUR m) = rd u (F.UD_GEN_CUR m))
  let due := fun (s : State) (q : StepRun) => s.run = some q ∧ q.committing = true ∧ q.halted = true ∧ replaying s = false
  (∀ (s : State) (q : StepRun), due s q → q.sentCommit = false → relaysComplete s = true → updatesComplete s = true →
    (∀ c n l, residueCores s = (c, n) :: l → ∃ t u, exec .stepCommit s = .next t ∧ ProgramFaulted u t c 0x04 n (pcOf s c) 0
        ∧ u = l.foldl (fun t e => stopCore t e.1 0x04 e.2 (pcOf t e.1) 0) s)
    ∧ (residueCores s = [] → q.cRounds = 0 →
      ∃ t, exec .stepCommit s = .next t ∧ committed s t { q with skip := skipFlag s, sentCommit := true, round := 0 } (skipFlag s))
    ∧ (residueCores s = [] → q.cRounds ≠ 0 →
      ∃ t, exec .stepCommit s = .next t ∧ t.run = some { q with skip := skipFlag s, sentCommit := true, round := 0 }
        ∧ (∀ m, m < 4 → rd t (F.UD_GEN_CUR m) = rd s (F.UD_GEN_CUR m)) ∧ MemKept s t
        ∧ t = { s with run := t.run, ports := t.ports, regs := t.regs, events := satOf s t, fired := t.fired, tags := t.tags }))
  ∧ (∀ (s : State), s.run = none ∨ replaying s = true ∨ relaysComplete s = false ∨ updatesComplete s = false
      ∨ (∃ q, s.run = some q ∧ (q.committing = false ∨ q.halted = false ∨ q.sentCommit = true)) → exec .stepCommit s = .next s)
  ∧ (∀ s : State, firstMgmt s 3 (fun _ => true) = none → exec .commitMessageReceive s = .next s)
  ∧ (∀ (s : State) (f : CtrlFlit) (m : CommitMsg), firstMgmt s 3 (fun _ => true) = some f →
      m = { src := leAt f.payload 2 2 % 1024, step := leAt (f.payload.drop 8) 0 4, round := leAt (f.payload.drop 8) 4 1,
            skip := bit (leAt (f.payload.drop 8) 5 1) 0, replay := leAt (f.payload.drop 8) 6 2 } →
      let kept := keepsStep s m.step = true ∧ 0 ≤ serialDiff 16 m.replay (if s.replay.step = m.step then s.replay.id else 0)
        ∧ ∀ n ∈ s.commits, ¬ (n.src = m.src ∧ n.step = m.step ∧ n.round = m.round ∧ n.replay = m.replay)
      (kept → ∃ t, exec .commitMessageReceive s = .next t ∧ t.commits = s.commits ++ [m] ∧ t.ctrlIn = s.ctrlIn.erase f
          ∧ t = { s with commits := t.commits, ctrlIn := t.ctrlIn, ports := t.ports })
      ∧ (¬ kept → ∃ t, exec .commitMessageReceive s = .next t ∧ t.commits = s.commits ∧ t.ctrlIn = s.ctrlIn.erase f
          ∧ (Room s (F.CMD_CNT_COUNT 7) → rd t (F.CMD_CNT_COUNT 7) = rd s (F.CMD_CNT_COUNT 7) + 1)
          ∧ RegsKept s t (F.CMD_CNT_COUNT 7 :: satTouched) ∧ t = { s with ctrlIn := t.ctrlIn, ports := t.ports, regs := t.regs, events := satOf s t, fired := t.fired }))
  ∧ (∀ (s : State) (q : StepRun), s.run = some q → q.sentCommit = true → replaying s = false →
      let here := s.commits.filter (fun m => m.step == q.step && m.round == q.round && m.replay == s.replay.id)
      let peers := roundPeers s q.cRoundVc q.round
      let all := peers.all (fun d => here.any (fun m => m.src == d))
      let skip := q.skip || here.any (fun m => m.skip && peers.contains m.src)
      (all = true → q.round + 1 < q.cRounds →
        ∃ t, exec .commitRoundEnd s = .next t ∧ t.run = some { q with skip := skip, round := q.round + 1 }
          ∧ (∀ m, m < 4 → rd t (F.UD_GEN_CUR m) = rd s (F.UD_GEN_CUR m)) ∧ MemKept s t)
      ∧ (all = true → q.cRounds ≤ q.round + 1 → ∃ t, exec .commitRoundEnd s = .next t ∧ committed s t { q with skip := skip, round := q.round + 1 } skip)
      ∧ (all = false → exec .commitRoundEnd s = .next s))
  ∧ (∀ s : State, s.run = none ∨ replaying s = true ∨ (∃ q, s.run = some q ∧ q.sentCommit = false) → exec .commitRoundEnd s = .next s)
  ∧ (∀ (s : State) (q : StepRun), due s q → q.cLimit ≠ 0 →
      (q.cLimit * 1000000 ≤ now s - q.cTime →
        ∃ t, exec .commitLimit s = .next t ∧ t = endRun (failRun s 0x33) ∧ t.run = none
          ∧ (q.ring < 16 → q.cRing < 16 → (∀ r ∈ s.remaps, r.2.1 < 8) → rd t F.CMD_LAST_STEP_STEP = rd s F.CMD_LAST_STEP_STEP
            ∧ ∀ m, m < 4 → rd t (F.UD_GEN_CUR m) = rd s (F.UD_GEN_CUR m))
          ∧ (s.remaps = [] → MemKept s t))
      ∧ (now s - q.cTime < q.cLimit * 1000000 → exec .commitLimit s = .next s))
  ∧ (∀ s : State, s.run = none ∨ replaying s = true ∨ (∃ q, s.run = some q ∧ (q.committing = false ∨ q.halted = false ∨ q.cLimit = 0)) →
      exec .commitLimit s = .next s)

/-- 16 R457 to R460; 00 R8: the registers of a ring. -/
def Obligations.RingsTakeIndices : Prop :=
  (∀ (s : State) (r : Fin 16) (n : Fin 4096),
    let slots := ringSlots s r.val
    let headOk := n.val < slots ∧ (n.val + slots - rd s (F.CMD_CQ_HEAD_INDEX r.val)) % slots ≤ unconsumed s r.val
    let idle := rd s (F.CMD_RING_CFG_SIZE r.val) = n.val ∧ rd s (F.CMD_RING_STAT_INFLIGHT r.val) = 0 ∧ owedBy s r.val = []
    (n.val ≤ rd s (F.CMD_RING_CFG_SIZE r.val) →
      ∃ t, exec (.sqDoorbell r n) s = .next t ∧ rd t (F.CMD_SQ_TAIL_INDEX r.val) = n.val ∧ RegsKept s t [F.CMD_SQ_TAIL_INDEX r.val] ∧ OnlyRegs s t)
    ∧ (rd s (F.CMD_RING_CFG_SIZE r.val) < n.val → exec (.sqDoorbell r n) s = .next (recordRsvd s (0x11014 + 0x80 * r.val)))
    ∧ (headOk → ∃ t, exec (.cqHeadWrite r n) s = .next t ∧ rd t (F.CMD_CQ_HEAD_INDEX r.val) = n.val ∧ RegsKept s t [F.CMD_CQ_HEAD_INDEX r.val] ∧ OnlyRegs s t)
    ∧ (¬ headOk → exec (.cqHeadWrite r n) s = .next (recordRsvd s (0x11020 + 0x80 * r.val)))
    ∧ (ringOn s r.val = false → n.val ≠ 0 →
      ∃ t, exec (.ringEnable r n) s = .next t ∧ rd t (F.CMD_RING_CFG_ENABLE r.val) = 1 ∧ rd t (F.CMD_RING_CFG_SIZE r.val) = n.val
        ∧ rd t (F.CMD_SQ_HEAD_INDEX r.val) = 0 ∧ rd t (F.CMD_SQ_TAIL_INDEX r.val) = 0 ∧ rd t (F.CMD_CQ_HEAD_INDEX r.val) = 0
        ∧ rd t (F.CMD_CQ_TAIL_INDEX r.val) = 0 ∧ rd t (F.CMD_CQ_TAIL_PHASE r.val) = 1
        ∧ rd t (F.CMD_SEQ_NEXT_SEQ r.val) = rd s (F.CMD_SEQ_INIT_SEQ r.val) % 2 ^ 32
        ∧ rd t (F.CMD_RING_STAT_VER_MAJ r.val) = 1 ∧ rd t (F.CMD_RING_STAT_VER_MIN r.val) = 0 ∧ rd t (F.CMD_RING_STAT_INFLIGHT r.val) = 0
        ∧ RegsKept s t [F.CMD_RING_CFG_ENABLE r.val, F.CMD_RING_CFG_SIZE r.val, F.CMD_SQ_HEAD_INDEX r.val, F.CMD_SQ_TAIL_INDEX r.val,
            F.CMD_CQ_HEAD_INDEX r.val, F.CMD_CQ_TAIL_INDEX r.val, F.CMD_CQ_TAIL_PHASE r.val, F.CMD_SEQ_NEXT_SEQ r.val,
            F.CMD_RING_STAT_VER_MAJ r.val, F.CMD_RING_STAT_VER_MIN r.val, F.CMD_RING_STAT_INFLIGHT r.val]
        ∧ t.journal = s.journal.filter (fun c => c.ring != r.val) ∧ t.owed = s.owed.filter (fun o => o.ring != r.val)
        ∧ t = { s with regs := t.regs, journal := t.journal, owed := t.owed })
    ∧ (ringOn s r.val = true ∨ n.val = 0 → exec (.ringEnable r n) s = .next (recordRsvd s (0x11010 + 0x80 * r.val)))
    ∧ (ringOn s r.val = true → (idle → ∃ t, exec (.ringDisable r n) s = .next t ∧ rd t (F.CMD_RING_CFG_ENABLE r.val) = 0
          ∧ RegsKept s t [F.CMD_RING_CFG_ENABLE r.val] ∧ OnlyRegs s t)
        ∧ (¬ idle → exec (.ringDisable r n) s = .next (recordRsvd s (0x11010 + 0x80 * r.val))))
    ∧ (ringOn s r.val = false →
      ∃ t, exec (.ringDisable r n) s = .next t ∧ rd t (F.CMD_RING_CFG_SIZE r.val) = n.val ∧ RegsKept s t [F.CMD_RING_CFG_SIZE r.val] ∧ OnlyRegs s t))
  ∧ (∀ (s : State) (off : Nat), off < 2 ^ 26 →
      let t := recordRsvd s off
      (Room s F.ID_RSVD_WR_CNT_COUNT → rd t F.ID_RSVD_WR_CNT_COUNT = rd s F.ID_RSVD_WR_CNT_COUNT + 1) ∧ rd t F.ID_RSVD_WR_FIRST_VALID = 1
        ∧ rd t F.ID_RSVD_WR_FIRST_OFFSET = (if rd s F.ID_RSVD_WR_FIRST_VALID = 1 then rd s F.ID_RSVD_WR_FIRST_OFFSET else off)
        ∧ RegsKept s t (F.ID_RSVD_WR_FIRST_VALID :: F.ID_RSVD_WR_FIRST_OFFSET :: F.ID_RSVD_WR_CNT_COUNT :: F.ID_RSVD_WR_OVF :: satTouched)
        ∧ OnlyRegsEvents s t)

/-- 16 R459 to R465, R472, R474; 18 R514, R540; 19 R544, R555. -/
def Obligations.EntriesTakenAndCompleted : Prop :=
  (∀ (s : State) (r : Fin 16) (raw : List Byte),
    let e := sliceBytes raw 0 64
    let seq := leAt e 4 4
    let turn := s.powered = true ∧ rd s F.SEC_BOOT_STAGE < 4 ∧ hostReady s = true ∧ nextRing s = some r.val
    let head := (rd s (F.CMD_SQ_HEAD_INDEX r.val) + 1) % ringSlots s r.val
    let c : Cmd := { ring := r.val, seq := seq, entry := e, time := now s, entryIn := mirrors s, ver := ringVersion s r.val }
    let o : Owed := { ring := r.val, seq := seq, head := head, opcode := leAt e 0 1, irq := bit (leAt e 1 1) 2, accepted := true, status := 0, info := 0 }
    (¬ turn → exec (.entryTake r raw) s = .next s)
    ∧ (turn → judge s r.val seq = none → mirrorUp s = false → exec (.entryTake r raw) s = .next { s with lastRing := r.val })
    ∧ (turn → judge s r.val seq = none → mirrorUp s = true →
      ∃ u t, exec (.entryTake r raw) s = .next t ∧ u.journal = s.journal ++ [c] ∧ u.owed = s.owed ++ [o]
        ∧ rd u (F.CMD_SQ_HEAD_INDEX r.val) = head % 2 ^ 12 ∧ rd u (F.CMD_SEQ_NEXT_SEQ r.val) = (seq + 1) % 2 ^ 32
        ∧ (∀ i, i < 2 → Room s (F.CMD_CNT_COUNT i) → rd u (F.CMD_CNT_COUNT i) = rd s (F.CMD_CNT_COUNT i) + 1)
        ∧ RegsKept s u (F.CMD_SQ_HEAD_INDEX r.val :: F.CMD_CNT_COUNT 0 :: F.CMD_CNT_COUNT 1 :: F.CMD_SEQ_NEXT_SEQ r.val
            :: F.CMD_RING_STAT_INFLIGHT r.val :: satTouched)
        ∧ u = { s with regs := u.regs, journal := u.journal, owed := u.owed, lastRing := r.val, events := satOf s u, fired := u.fired }
        ∧ (knownOp (leAt e 0 1) = true → leAt e 0 1 ≠ 0x62 → t = u)
        ∧ (knownOp (leAt e 0 1) = false → t = finish u r.val seq 0x10 0 [])
        ∧ (leAt e 0 1 = 0x62 → t = (if (c.param 3 1, c.param 2 1) ≠ c.ver then finish u r.val seq 0x12 0 [] else finish u r.val seq 0x11 0x20 [])))
    ∧ (∀ st, turn → judge s r.val seq = some st →
      ∃ t, exec (.entryTake r raw) s = .next t ∧ t.journal = s.journal
        ∧ t.owed = s.owed ++ [{ o with accepted := false, status := st,
                                       info := (if st = 0x02 then readyIn s else if st = 0x05 then rd s (F.CMD_SEQ_NEXT_SEQ r.val) else 0) }]
        ∧ (st = 0x02 ∨ st = 0x04 ∨ st = 0x05) ∧ rd t (F.CMD_SQ_HEAD_INDEX r.val) = head % 2 ^ 12
        ∧ (∀ i, i = 0 ∨ i = judgeCnt st → Room s (F.CMD_CNT_COUNT i) → rd t (F.CMD_CNT_COUNT i) = rd s (F.CMD_CNT_COUNT i) + 1)
        ∧ RegsKept s t (F.CMD_SQ_HEAD_INDEX r.val :: F.CMD_CNT_COUNT 0 :: F.CMD_CNT_COUNT (judgeCnt st) :: satTouched)
        ∧ t = { s with regs := t.regs, owed := t.owed, lastRing := r.val, events := satOf s t, fired := t.fired }))
  ∧ (∀ (s : State) (r : Fin 16),
    (owedBy s r.val = [] ∨ hostReady s = false → exec (.completionWrite r) s = .next s)
    ∧ ∀ (o : Owed) (l : List Owed), owedBy s r.val = o :: l →
      (completionOf s o (rd s (F.CMD_CQ_TAIL_PHASE r.val)) = none → exec (.completionWrite r) s = .next s)
      ∧ ∀ bs, hostReady s = true → completionOf s o (rd s (F.CMD_CQ_TAIL_PHASE r.val)) = some bs →
      let tail := rd s (F.CMD_CQ_TAIL_INDEX r.val)
      ∃ t, exec (.completionWrite r) s = .next t ∧ t.owed = s.owed.erase o
        ∧ t.hostOut = s.hostOut ++ [(rd s (F.CMD_CQ_BASE_ADDR r.val) * 4096 + 32 * tail, bs)]
        ∧ rd t (F.CMD_CQ_TAIL_INDEX r.val) = (tail + 1) % ringSlots s r.val % 2 ^ 12
        ∧ rd t (F.CMD_CQ_TAIL_PHASE r.val) = (if tail + 1 = ringSlots s r.val then (1 - rd s (F.CMD_CQ_TAIL_PHASE r.val)) % 2
            else rd s (F.CMD_CQ_TAIL_PHASE r.val))
        ∧ RegsKept s t [F.CMD_CQ_TAIL_INDEX r.val, F.CMD_CQ_TAIL_PHASE r.val] ∧ t.journal = s.journal
        ∧ t.fired = (if o.irq then s.fired ++ [hubSrc r.val] else s.fired)
        ∧ t = { s with regs := t.regs, owed := t.owed, hostOut := t.hostOut, events := satOf s t, fired := t.fired })
  ∧ (∀ s : State, (rd s F.CMD_STAT_READY ≠ 1 ∨ 2 ≤ rd s F.ID_HEALTH_MC_OUT → exec .marshalRestart s = .next s)
    ∧ (rd s F.CMD_STAT_READY = 1 → rd s F.ID_HEALTH_MC_OUT < 2 → rd s F.ID_FLT_NEXT_NEXT < 16 →
      let n := rd s F.ID_FLT_NEXT_NEXT
      ∃ t, exec .marshalRestart s = .next t ∧ rd t F.ID_HEALTH_MC_OUT = rd s F.ID_HEALTH_MC_OUT + 1 ∧ rd t F.ID_HEALTH_DEGRADED = 1
        ∧ (logsAbove s ((n + 15) % 16) hubUnit = false → rd t (F.ID_FLT_LOG_W0_CAUSE n) = 0x0F ∧ rd t (F.ID_FLT_LOG_W0_CLASS n) = 4
            ∧ rd t (F.ID_FLT_LOG_W0_CLASS ((n + 1) % 16)) = 3 ∧ rd t F.ID_FLT_NEXT_NEXT = (n + 2) % 16)
        ∧ t.journal.map (fun c => (c.ring, c.seq, c.entry, c.status)) = s.journal.map (fun c => (c.ring, c.seq, c.entry, c.status))
        ∧ (s.run = none → ∀ c ∈ t.journal, c.status = none → c.started = false ∨ c.fin.isSome = true)
        ∧ t.owed = s.owed ∧ MemKept s t))

/-- 17 R496 to R501, R503, R504, R511; 20 R572: sources and vectors. -/
def Obligations.EventsFireDeliverAndComplete : Prop :=
  let st := fun (n : Nat) => F.EVC_SRC_STAT_STATE n
  let times := (List.range 16).map F.TB_SPLIT_TIME
  let pends := fun (u t : State) (n : Nat) => rd t (st n) = 1 ∧ RegsKept u t (st n :: times) ∧ OnlyRegs u t
    ∧ ∀ i, i < 16 → rd t (F.TB_SPLIT_TIME i) = (if rd u (F.TB_SPLIT_CFG_EN i) = 1 ∧ rd u (F.TB_SPLIT_CFG_SRC i) = n
        then rd u F.TB_NOW_TIME % 2 ^ 64 else rd u (F.TB_SPLIT_TIME i))
  let fires := fun (u t : State) (n : Nat) =>
    (asleep u n = true → rd t (F.EVC_SRC_STAT_LATCH n) = 1 ∧ RegsKept u t [F.EVC_SRC_STAT_LATCH n] ∧ OnlyRegs u t)
    ∧ (asleep u n = false → (rd u (st n) = 0 → pends u t n) ∧ (rd u (st n) = 2 → rd t (st n) = 3 ∧ RegsKept u t [st n] ∧ OnlyRegs u t)
      ∧ (rd u (st n) ≠ 0 → rd u (st n) ≠ 2 → (Room u (F.EVC_CNT_COUNT 3) → rd t (F.EVC_CNT_COUNT 3) = rd u (F.EVC_CNT_COUNT 3) + 1)
          ∧ RegsKept u t (F.EVC_CNT_COUNT 3 :: satTouched) ∧ OnlyRegsEvents u t))
  (∀ (s : State) (f : Fin 4096),
    let n := f.val
    let q := rd s (F.EVC_SRC_CFG_SENSE n)
    let u := { s with fired := s.fired.erase n }
    (reservedSource n = true ∨ s.powered = false → exec (.eventFiring f) s = .next s)
    ∧ (reservedSource n = false → s.powered = true → n ∈ s.fired →
      (q = 2 ∨ q = 3 → ∃ v, exec (.eventFiring f) s = .next (reachSource v n) ∧ fires u v n)
      ∧ (q = 4 → ∃ v w, exec (.eventFiring f) s = .next (reachSource w n) ∧ fires u v n ∧ fires v w n)
      ∧ (q < 2 ∨ 4 < q → exec (.eventFiring f) s = .next (reachSource u n)))
    ∧ (∀ v : State, (∀ i, sliceOf n = some i → i < 80 → reachSource v n = reachCluster v (clusterOfKey i)) ∧ (sliceOf n = none → reachSource v n = v)
        ∧ (∀ i, sliceOf n = some i → 80 ≤ i → reachSource v n = v))
    ∧ (reservedSource n = false → s.powered = true → n ∉ s.fired →
      ∃ a v t, exec (.eventFiring f) s = .next t ∧ a = { s with events := { s.events with levels := a.events.levels } } ∧ seenLevel a n = inputLevel s n
        ∧ (edgeNamed q (seenLevel s n) (inputLevel s n) = true → fires a v n) ∧ (edgeNamed q (seenLevel s n) (inputLevel s n) = false → v = a)
        ∧ (levelAsserted v n = true → rd v (st n) = 0 → asleep v n = false → pends v t n)
        ∧ (levelAsserted v n = false ∨ rd v (st n) ≠ 0 ∨ asleep v n = true → t = v))
    ∧ (reservedSource n = false → asleep s n = false → q ≤ 1 → levelAsserted s n = false → rd s (st n) = 1 →
        ∃ t, exec (.sourceLevelLeft f) s = .next t ∧ rd t (st n) = 0 ∧ RegsKept s t [st n] ∧ OnlyRegs s t)
    ∧ (reservedSource n = true ∨ asleep s n = true ∨ 1 < q ∨ levelAsserted s n = true ∨ rd s (st n) ≠ 1 → exec (.sourceLevelLeft f) s = .next s))
  ∧ (∀ s : State, firstSource s = none → exec .eventDelivery s = .next s)
  ∧ (∀ (s : State) (n : Nat), firstSource s = some n →
      let w := srcCfg s n
      let v := cfgVector w
      let active := mapPut s.events.active n w
      deliverable s n = true ∧ (∀ m ∈ shownSources s, deliverable s m = true →
        rd s (F.EVC_SRC_CFG_PRIO m) < rd s (F.EVC_SRC_CFG_PRIO n) ∨ (rd s (F.EVC_SRC_CFG_PRIO m) = rd s (F.EVC_SRC_CFG_PRIO n) ∧ n ≤ m))
      ∧ (cfgKind w = 0 →
        ∃ t, exec .eventDelivery s = .next t ∧ rd t (st n) = 2
          ∧ t.msixOut = s.msixOut ++ [(rd s (F.MSIX_ADDR_ADDR v) * 4, rd s (F.MSIX_DATA_DATA v))]
          ∧ rd t (F.EVC_LAST_VALID v) = 1 ∧ rd t (F.EVC_LAST_SRC v) = n
          ∧ (Room s (F.EVC_CNT_COUNT 0) → rd t (F.EVC_CNT_COUNT 0) = rd s (F.EVC_CNT_COUNT 0) + 1)
          ∧ RegsKept s t (st n :: F.EVC_LAST_VALID v :: F.EVC_LAST_SRC v :: F.EVC_CNT_COUNT 0 :: satTouched)
          ∧ t.events = { s.events with active := active, msgAt := some (rd s F.TB_NOW_TIME), csatAt := t.events.csatAt }
          ∧ t = { s with regs := t.regs, events := t.events, msixOut := t.msixOut, fired := t.fired })
      ∧ (cfgKind w ≠ 0 → ∃ t, exec .eventDelivery s = .next t ∧ rd t (st n) = 2
          ∧ RegsKept s t [st n] ∧ t = { s with regs := t.regs, events := { s.events with active := active } }))
  ∧ (∀ (s : State) (f : Fin 4096) (c : Instr),
      let n := f.val
      let kept := fun (t : State) => RegsKept s t (F.EVC_EOI_SRC :: st n :: F.EVC_CNT_COUNT 1 :: times ++ satTouched) ∧ MemKept s t
        ∧ (c = .evcEoi f → rd t F.EVC_EOI_SRC = n)
      let ended := fun (t : State) => t.events.active = mapErase s.events.active n ∧ kept t
      (∀ w, mapFind s.events.active n = some w → cfgKind w = 0 → exec (.internalCompletion f) s = .next s)
      ∧ (c = .evcEoi f ∨ (c = .internalCompletion f ∧ (mapFind s.events.active n).all (fun w => cfgKind w != 0) = true) →
        (reservedSource n = false → asleep s n = false →
          (2 ≤ rd s (st n) → rd s (st n) ≠ 3 → levelAsserted s n = false → ∃ t, exec c s = .next t ∧ rd t (st n) = 0 ∧ ended t)
          ∧ (rd s (st n) = 3 ∨ (rd s (st n) = 2 ∧ levelAsserted s n = true) → ∃ t, exec c s = .next t ∧ rd t (st n) = 1 ∧ ended t))
        ∧ (reservedSource n = true ∨ (asleep s n = false ∧ rd s (st n) < 2) →
          ∃ t, exec c s = .next t ∧ (Room s (F.EVC_CNT_COUNT 1) → rd t (F.EVC_CNT_COUNT 1) = rd s (F.EVC_CNT_COUNT 1) + 1)
            ∧ rd t (st n) = rd s (st n) ∧ t.events.active = s.events.active ∧ kept t)
        ∧ (reservedSource n = false → asleep s n = true →
          ∃ t, exec c s = .next t ∧ t.events = { s.events with deferred := s.events.deferred ++ [n] } ∧ rd t (st n) = rd s (st n) ∧ kept t)))
  ∧ (∀ (s : State) (n : Fin 4096) (w : BitVec 32),
      (reservedSource n.val = true ∨ badSrcCfg n.val w.toNat = true → exec (.evcSrcCfgWrite n w) s = .next (recordRsvd s (0x20000 + 4 * n.val)))
      ∧ (reservedSource n.val = false → badSrcCfg n.val w.toNat = false →
        ∃ v t, exec (.evcSrcCfgWrite n w) s = .next t
          ∧ v = sample ((s.fired.filter (fun m => m == n.val)).foldl pulse { s with fired := s.fired.filter (fun m => m != n.val) }) n.val
          ∧ rd t (F.EVC_SRC_CFG_ENABLE n.val) = bits w.toNat 31 1
          ∧ rd t (F.EVC_SRC_CFG_TKIND n.val) = bits w.toNat 20 2 ∧ rd t (F.EVC_SRC_CFG_TARGET n.val) = bits w.toNat 12 7
          ∧ rd t (F.EVC_SRC_CFG_VEC_HI n.val) = bits w.toNat 11 1 ∧ rd t (F.EVC_SRC_CFG_PRIO n.val) = bits w.toNat 4 4
          ∧ rd t (F.EVC_SRC_CFG_SENSE n.val) = bits w.toNat 0 3
          ∧ RegsKept v t [F.EVC_SRC_CFG_ENABLE n.val, F.EVC_SRC_CFG_TKIND n.val, F.EVC_SRC_CFG_TARGET n.val, F.EVC_SRC_CFG_VEC_HI n.val,
              F.EVC_SRC_CFG_PRIO n.val, F.EVC_SRC_CFG_SENSE n.val] ∧ OnlyRegs v t))
  ∧ (∀ (s : State) (v : Fin 256) (x : BitVec 32),
      let f := F.MSIX_ADDR_ADDR v.val
      (∃ t, exec (.msixEntryWrite (.word v 0 x)) s = .next t ∧ rd t f % 2 ^ 30 = x.toNat / 4 ∧ rd t f / 2 ^ 30 = rd s f / 2 ^ 30 % 2 ^ 32
        ∧ RegsKept s t [f] ∧ OnlyRegs s t)
      ∧ (∃ t, exec (.msixEntryWrite (.word v 1 x)) s = .next t ∧ rd t f % 2 ^ 30 = rd s f % 2 ^ 30 ∧ rd t f / 2 ^ 30 = x.toNat
        ∧ RegsKept s t [f] ∧ OnlyRegs s t)
      ∧ (∃ t, exec (.msixEntryWrite (.word v 2 x)) s = .next t ∧ rd t (F.MSIX_DATA_DATA v.val) = x.toNat
        ∧ RegsKept s t [F.MSIX_DATA_DATA v.val] ∧ OnlyRegs s t)
      ∧ (∃ t, exec (.msixEntryWrite (.word v 3 x)) s = .next t ∧ rd t (F.MSIX_CTL_MASK v.val) = x.toNat % 2
        ∧ RegsKept s t [F.MSIX_CTL_MASK v.val] ∧ OnlyRegs s t)
      ∧ (∀ m, exec (.msixEntryWrite (.functionMask m)) s = .next { s with events := { s.events with masked := m } }))

/-- 17 R503, R509; 04 R119; 20 R569: sleep of a slice, and the adjustment of the timebase. -/
def Obligations.SlicesSleepAndTimebaseAdjusts : Prop :=
  (∀ (s : State) (i : Fin 88),
    let k := clusterOfKey i.val
    let wakes := i.val ∈ s.events.slept ∧ (sliceDown s i.val = false ∨ latchedWake s i.val = true)
    let asleepCluster := i.val < 80 ∧ rd s (clStateFld k) = 2
    (i.val ∉ s.events.slept → sliceDown s i.val = true →
      ∃ t, exec (.sliceSleep i) s = .next t ∧ t.events.slept = s.events.slept ++ [i.val] ∧ MemKept s t)
    ∧ (i.val ∈ s.events.slept ∨ sliceDown s i.val = false → exec (.sliceSleep i) s = .next s)
    ∧ (¬ wakes → exec (.sliceWake i) s = .next s)
    ∧ (wakes → ¬ asleepCluster →
      ∃ t, exec (.sliceWake i) s = .next t ∧ t.events.slept = s.events.slept.erase i.val ∧ MemKept s t
        ∧ (∀ n ∈ sliceSources i.val, s.events.deferred = [] → i.val ∉ s.events.slept.erase i.val → rd s (F.EVC_SRC_STAT_LATCH n) = 1 →
            rd s (F.EVC_SRC_STAT_STATE n) = 0 → 2 ≤ rd s (F.EVC_SRC_CFG_SENSE n) →
            rd t (F.EVC_SRC_STAT_STATE n) = 1 ∧ rd t (F.EVC_SRC_STAT_LATCH n) = 0))
    ∧ (wakes → asleepCluster →
      ∃ t, exec (.sliceWake i) s = .next t ∧ rd t (clStateFld k) = 0 ∧ t.events.slept = s.events.slept.erase i.val ∧ MemKept s t))
  ∧ (∀ (s : State) (v : BitVec 64), ∃ t, exec (.tbAdjWrite v) s = .next t ∧ rd t F.TB_ADJ_OFFSET = v.toNat ∧ t.tbHalf = false
      ∧ RegsKept s t [F.TB_ADJ_OFFSET] ∧ t = { s with regs := t.regs, tbHalf := false })
  ∧ (∀ s : State, let off := rd s F.TB_ADJ_OFFSET
      (off = 0 ∨ s.powered = false → exec .tbAdjDone s = .next s)
      ∧ (off ≠ 0 → s.powered = true →
        let ns := if off < 2 ^ 63 then off else 2 * (2 ^ 64 - off) - b2n s.tbHalf
        ∃ u t, exec .tbAdjDone s = .next t ∧ rd u F.TB_ADJ_OFFSET = 0
          ∧ rd u F.TB_NOW_TIME = (rd s F.TB_NOW_TIME + (if off < 2 ^ 63 then 2 * off else 2 ^ 64 - off)) % 2 ^ 64
          ∧ RegsKept s u [F.TB_ADJ_OFFSET, F.TB_NOW_TIME] ∧ u = { s with regs := u.regs, tbHalf := false }
          ∧ t = (if rd s F.PWR_STAT_BRAKE = 1 then bump (stallPass u ns) (F.PWR_CNT_COUNT 1) ns else stallPass u ns)))
  ∧ (∀ (s : State) (ns : Nat), (replaying s = true ∨ rd s F.PWR_STAT_DUTY_MIN < 8 → stallPass s ns = s)
      ∧ (replaying s = false → 8 ≤ rd s F.PWR_STAT_DUTY_MIN → (stallPass s ns).stallClock = s.stallClock + ns
        ∧ stallPass s ns = { s with stallClock := s.stallClock + ns, cores := (stallPass s ns).cores }
        ∧ (s.reporting = [] → (stallPass s ns).cores = s.cores)))

/-- 14 R415 to R419, R429, R436, R439. -/
def Obligations.RelaysArmAndReceive : Prop :=
  (∀ (s : State) (k : ClusterId) (err : ReadErr), routineHead s k 0x10 = none → exec (.rrArm k err) s = .next s)
  ∧ (∀ (s : State) (k : ClusterId) (r : CcReq) (err : ReadErr), routineHead s k 0x10 = some r →
    let u : State := { s with relay := { s.relay with calls := s.relay.calls + 1 } }
    (s.relay.calls ≠ 0 → exec (.rrArm k err) s = .next (relayFail u r 0x05 0))
    ∧ (s.relay.calls = 0 → argBlock s k r = none → exec (.rrArm k err) s = .next (relayFail u r 0x01 0))
    ∧ (∀ a, s.relay.calls = 0 → argBlock s k r = some a →
      let addr := leAt a 0x18 8
      let n := ldN s (addr + 2) 1
      let bad := leAt a 0 1 ≠ 0x10 ∨ leAt a 2 22 ≠ 0 ∨ leAt a 0x20 32 ≠ 0 ∨ addr % 64 ≠ 0 ∨ populatedRun addr 128 = false
        ∨ populatedRun addr (128 + 32 * n) = false
      let reads := readRuns u [(addr, 128 + 32 * n)] err
      (bad → exec (.rrArm k err) s = .next (relayFail u r 0x01 0))
      ∧ (¬ bad → (reads = none → exec (.rrArm k err) s = .next s) ∧ (∀ v, reads = some (false, v) → exec (.rrArm k err) s = .next v)
        ∧ (∀ v, reads = some (true, v) →
          let h := ldBytes v addr 128
          let raw := rowsOf n 32 (ldBytes v (addr + 0x80) (32 * n))
          let units := raw.map relayUnitOf
          (∀ e, armReason v h units raw = some e → exec (.rrArm k err) s = .next (relayFail v r e.1 e.2))
          ∧ (armReason v h units raw = none →
            ∃ w, exec (.rrArm k err) s = .next (relaySettle w) ∧ armed w = true ∧ rd w F.RR_ERR_VALID = 0 ∧ (∀ i, i < 6 → rd w (F.RR_STREAM_DONE_DONE i) = 0 ∧ rd w (F.RR_STREAM_RELEASED_RELEASED i) = 0)
              ∧ w.relay.units = units ∧ w.relay.dvc = leAt h 0 1
              ∧ w.relay.gvc = leAt h 1 1 ∧ w.relay.slots = leAt h 4 4 ∧ w.relay.recv = leAt h 8 8 ∧ w.relay.grecv = leAt h 0x10 8
              ∧ w.relay.rel = leAt h 0x18 8 ∧ w.relay.chain = leAt h 0x20 8 ∧ w.relay.chainLen = leAt h 0x28 4 ∧ w.relay.norm = leAt h 0x30 8
              ∧ w.relay.calls = 1 ∧ w.relay.sent = [0, 0] ∧ w.relay.ready = [] ∧ w.relay.passes = v.relay.passes
              ∧ (cluster w k).ccq.head? = some { r with done := true } ∧ w.run = v.run ∧ w.inbox = v.inbox
              ∧ StoresWithin v w [(leAt h 0x18 8, 16), (r.arg + 1, 1), (r.arg + 0x24, 4)])))))
  ∧ (∀ (s : State) (r : CcReq) (reason unit : Nat), ∃ u, rd u F.RR_ERR_VALID = 1 ∧ rd u F.RR_ERR_REASON = reason % 2 ^ F.RR_ERR_REASON.width
      ∧ rd u F.RR_ERR_UNIT = unit % 2 ^ F.RR_ERR_UNIT.width ∧ RegsKept s u [F.RR_ERR_VALID, F.RR_ERR_REASON, F.RR_ERR_UNIT] ∧ OnlyRegs s u
      ∧ ProgramFaulted u (relayFail s r reason unit) r.core 0x05 (bits r.entry.word 70 4) r.entry.idx 0)
  ∧ (∀ (s : State) (i : Nat),
    (∀ m ch n, relayMsg s i = some (m, .release ch n) →
      let v := max n (released s ch)
      let d := dropMsg s i m
      ∃ u, exec (.relayReleaseReceive i) s = .next (relaySettle u) ∧ d.inbox = dropAt s.inbox i ∧ MemKept s d
        ∧ rd u (F.RR_STREAM_RELEASED_RELEASED (relayVc s ch)) = v % 2 ^ 64 ∧ u.mem = (stN d (s.relay.rel + 8 * ch) 8 v).mem
        ∧ u.inbox = d.inbox ∧ u.relay = s.relay ∧ StoresWithin d u [(s.relay.rel + 8 * ch, 8)])
    ∧ ((∀ m ch n, relayMsg s i ≠ some (m, .release ch n)) → exec (.relayReleaseReceive i) s = .next s)
    ∧ (∀ m u kind, relayMsg s i = some (m, .sums u kind) →
      ∃ t, exec (.chainSumsReceive i) s = .next t ∧ t.inbox = dropAt s.inbox i ∧ t.mem = (stBytes (dropMsg s i m) m.addr m.data).mem
        ∧ StoresWithin (dropMsg s i m) t [(m.addr, m.data.length)] ∧ (m.last = true → (u, kind) ∈ t.relay.chains)
        ∧ t.relay = { s.relay with chains := t.relay.chains } ∧ (∀ e ∈ t.relay.chains, e ∈ s.relay.chains ∨ (m.last = true ∧ e = (u, kind)))
        ∧ (∀ e ∈ s.relay.chains, e ∈ t.relay.chains))
    ∧ ((∀ m u kind, relayMsg s i ≠ some (m, .sums u kind)) → exec (.chainSumsReceive i) s = .next s))
  ∧ (∀ s : State, MemKept s (relaySettle s) ∧ (relaySettle s).inbox = s.inbox ∧ (armed s = false → relaySettle s = s))

/-- 14 R413, R422 to R430, R434. -/
def Obligations.RelayRecordsFlow : Prop :=
  ∀ (s : State) (err : ReadErr),
    (∀ g : Bool,
      let ch := b2n g
      let n := s.relay.sent.getD ch 0
      let c : Instr := .relayStreamSend g err
      let reads := readRuns s (sendRuns s ch n) err
      (streamMayBegin s ch n = false ∨ reads = none → exec c s = .next s)
      ∧ (streamMayBegin s ch n = true → (∀ v, reads = some (false, v) → exec c s = .next v)
        ∧ (∀ v, reads = some (true, v) →
          let p := n % perUnit v ch
          ∃ u, exec c s = .next (relaySettle u) ∧ MemKept v u
          ∧ (g = true → p = 0 → u = streamSent (sendGather v n) 1) ∧ (g = false → p = 0 → u = streamSent (sendHead v n) 0)
          ∧ (g = false → p ≠ 0 → p = relayD v - 1 → u = streamSent (sendSummary v n) 0)
          ∧ (p ≠ 0 → (g = true ∨ p ≠ relayD v - 1) → (streamLen v ch (n - 1) = some 0 → u = streamSent v ch)
            ∧ (streamLen v ch (n - 1) ≠ some 0 → u = { v with relay := { v.relay with opened := v.relay.opened.set ch true,
                                                                                      nextSlot := v.relay.nextSlot.set ch 0 } })))))
    ∧ (∀ n k,
      let c : Instr := .relayRecordProcess n k err
      let own := relayRuns s = true ∧ s.relay.ready.length = n ∧ n < s.relay.units.length ∧ triggered s n = true ∧ k < (relayUnit s n).blocks
        ∧ (0, n, k) ∉ s.relay.seen
      (relayD s = 1 → ¬ own → exec c s = .next s) ∧ (relayD s ≠ 1 → recordReady s 0 n k = false → exec c s = .next s)
      ∧ (relayD s = 1 → own →
        let reads := readRuns s [(contribAddr s n k, 4096), (wireAddr s n k, 1)] err
        (reads = none → exec c s = .next s) ∧ (∀ v, reads = some (false, v) → exec c s = .next v)
        ∧ (∀ v, reads = some (true, v) →
          let scale := ldN v (wireAddr v n k) 1
          let e := hopRecord v false true n k 0 0 scale (contribCodes v n k) none
          let w := relayFlags v scale e.2.2
          ∃ u, exec c s = .next (relaySettle u) ∧ u.relay = { v.relay with seen := v.relay.seen ++ [(0, n, k)] }
            ∧ (Room v (F.RR_CNT_COUNT 0) → rd u (F.RR_CNT_COUNT 0) = rd v (F.RR_CNT_COUNT 0) + 1)
            ∧ u.mem = (stBytes w (outAddr w n k) (recordBytes .k8e e.1 e.2.1)).mem ∧ StoresWithin w u [(outAddr w n k, 4160)]))
      ∧ (relayD s ≠ 1 → recordReady s 0 n k = true →
        let reads := readRuns s (recordRuns s n k) err
        (reads = none → exec c s = .next s) ∧ (∀ v, reads = some (false, v) → exec c s = .next v)
        ∧ (∀ v, reads = some (true, v) →
          let d := relayD v
          let p := streamPos v 0 n
          let un := n / perUnit v 0
          let len := recordLen v n k
          let r := trailerOf (ldBytes v (slotAddr v 0 n k + len) 64)
          ∃ u, exec c s = .next (recordDone u 0 n k) ∧ (Room v (F.RR_CNT_COUNT 0) → rd u (F.RR_CNT_COUNT 0) = rd v (F.RR_CNT_COUNT 0) + 1)
            ∧ (0, n, k) ∉ (recordDone u 0 n k).relay.arrived
            ∧ (d ≤ p → k = 0 → MemKept v u ∧ mapFind u.relay.counts n = some r.count)
            ∧ (p < d ∨ k ≠ 0 → p ≠ d - 1 → p ≠ 2 * d - 1 → MemKept v u)
            ∧ (p < d ∨ k ≠ 0 → p = d - 1 ∨ p = 2 * d - 1 →
              let b := recordBlock v n k r
              let wide := decide (d ≤ p)
              let f : Fmt := if wide then .k16 else .k8e
              let q := drawFree v 32
              let scale := ldN v (wireAddr v un b) 1
              let inc := if p = d then none else some (codesOf f (ldBytes v (slotAddr v 0 n k) len), r)
              let e := hopRecord q.2 wide true un b p q.1 scale (contribCodes q.2 un b) inc
              let w := relayFlags q.2 scale e.2.2
              u.mem = (stBytes w (outAddr w un b) (recordBytes f e.1 e.2.1)).mem))))
    ∧ (∀ n k,
      let c : Instr := .gatherRecordWrite n k err
      let reads := readRuns s [(slotAddr s 1 n k, gatherLen s n k + 64)] err
      (relayD s = 1 ∨ recordReady s 1 n k = false → exec c s = .next s)
      ∧ (relayD s ≠ 1 → recordReady s 1 n k = true → (reads = none → exec c s = .next s) ∧ (∀ v, reads = some (false, v) → exec c s = .next v)
        ∧ (∀ v, reads = some (true, v) → ∃ u, exec c s = .next (recordDone u 1 n k) ∧ u.mem = (writeGather v n k).mem
          ∧ (Room v (F.RR_CNT_COUNT 5) → rd u (F.RR_CNT_COUNT 5) = rd (writeGather v n k) (F.RR_CNT_COUNT 5) + 1)
          ∧ (1, n, k) ∉ (recordDone u 1 n k).relay.arrived)))

/-- 12 R356 to R362, R367. -/
def Obligations.UpdateDiesWork : Prop :=
  ∀ (s : State) (err : ReadErr),
    (∀ (m : Fin 4) (c : Instr), c ∈ [.unitTake m err, .statisticsPass m, .normPass, .updatePass m err] → s.upd = none ∨ updating s = false →
      exec c s = .next s)
    ∧ ∀ u : UpdTables, s.upd = some u → updating s = true →
    (∀ m : Fin 4,
      let x := ud s m.val
      let what := (unitOrder s u).findSome? (fun n => nextChunk s u n m.val)
      (2 ≤ x.halves.length ∨ what = none → exec (.unitTake m err) s = .next s)
      ∧ (∀ h, x.halves.length < 2 → what = some h →
        let reads := readRuns s (((dieChunks s u h.unit m.val).getD h.chunk []).map (fun b => (outAddr s h.unit b, 8256))) err
        (reads = none → exec (.unitTake m err) s = .next s) ∧ (∀ v, reads = some (false, v) → exec (.unitTake m err) s = .next v)
        ∧ (∀ v, reads = some (true, v) →
          let g := { h with blocks := ((dieChunks v u h.unit m.val).getD h.chunk []).map (fun b => (b, readBlock v h.unit b)) }
          ∃ t, exec (.unitTake m err) s = .next t ∧ t.uds = v.uds.set m.val { x with halves := x.halves ++ [g] }
            ∧ rd t (F.UD_STAT_BUF m.val) = (ud t m.val).halves.length % 2 ^ (F.UD_STAT_BUF m.val).width
            ∧ RegsKept v t [F.UD_STAT_BUF m.val] ∧ t = { v with regs := t.regs, uds := t.uds })))
    ∧ (∀ m : Fin 4,
      let x := ud s m.val
      let find := x.halves.find? (fun g => !g.stat && !g.second)
      let before := fun (h : UdHalf) => if mapGet 0 x.chunks h.unit = 0 then sumsIn s u h.unit m.val else some (mapGet [] x.sums h.unit)
      (find = none → exec (.statisticsPass m) s = .next s)
      ∧ (∀ h, find = some h → before h = none → exec (.statisticsPass m) s = .next s)
      ∧ (∀ h l, find = some h → before h = some l →
        let o := ((dieChunks s u h.unit m.val).getD h.chunk []).foldl (blockStats s u h) { sums := l }
        let one := (dieChunks s u h.unit m.val).length = 1
        ∃ t, exec (.statisticsPass m) s = .next t ∧ genCur t = genCur s ∧ MemKept s t
          ∧ t.uds = s.uds.set m.val { x with sums := mapPut x.sums h.unit o.sums, chunks := mapPut x.chunks h.unit (mapGet 0 x.chunks h.unit + 1),
                                             halves := (if one then x.halves.map (fun g => if g = h then { g with stat := true } else g)
                                               else x.halves.filter (fun g => g != h)) }
          ∧ (o.nonFin ≠ 0 → rd t (F.UD_STAT_SKIP_SEEN m.val) = 1) ∧ (o.nonFin = 0 → rd t (F.UD_STAT_SKIP_SEEN m.val) = rd s (F.UD_STAT_SKIP_SEEN m.val))
          ∧ (rd s (F.UD_CNT_COUNT m.val 2) + o.nonFin < counterMax → rd t (F.UD_CNT_COUNT m.val 2) = rd s (F.UD_CNT_COUNT m.val 2) + o.nonFin)
          ∧ (o.flags.ovf = true → rd t (F.UD_FLAGS_OVF m.val) = 1) ∧ (o.flags.inv = true → rd t (F.UD_FLAGS_INV m.val) = 1)))
    ∧ (let finals := (List.range u.units).filterMap (normFinal s u)
      let may := u.normed = true ∧ s.normDone = false ∧ s.relay.ready.length = u.units
      (¬ may ∨ (normNext s u = none ∧ finals.length ≠ u.units) → exec .normPass s = .next s)
      ∧ (may → ∀ n m v, normNext s u = some (n, m, v) →
        let e := chainSum v ((dieBlocks s u n m).map (fun b => (readBlock s n b).sumsq))
        ∃ t, exec .normPass s = .next t ∧ genCur t = genCur s ∧ MemKept s t
          ∧ t.uds = s.uds.set m { ud s m with norms := mapPut (ud s m).norms n e.1 } ∧ (e.2.1.ovf = true → rd t (F.UD_FLAGS_OVF m) = 1))
      ∧ (may → normNext s u = none → finals.length = u.units →
        ∃ t, exec .normPass s = .next t ∧ t.normDone = true ∧ MemKept s t ∧ t.uds = s.uds
          ∧ (∀ m, m < 4 → rd t (F.UD_NORM_VALUE m) = (normKappa u finals).1 % 2 ^ 32
            ∧ rd t (F.UD_KAPPA_VALUE m) = (normKappa u finals).2.1 % 2 ^ 32)))
    ∧ (∀ m : Fin 4,
      let find := (ud s m.val).halves.find? (fun g => (g.stat || g.second) && (sumsFinal s u g.unit).isSome)
      (find = none → exec (.updatePass m err) s = .next s)
      ∧ (∀ h, find = some h →
        let chunks := dieChunks s u h.unit m.val
        let blocks := chunks.getD h.chunk []
        let reads := readRuns s (updateRuns s u h.unit m.val blocks) err
        (reads = none → exec (.updatePass m err) s = .next s) ∧ (∀ v, reads = some (false, v) → exec (.updatePass m err) s = .next v)
        ∧ (∀ v, reads = some (true, v) →
          let z := blocks.foldl (updateBlock u h m.val ((sumsFinal v u h.unit).getD [])) v
          let y := ud z m.val
          let c := mapGet 0 y.read2 h.unit + 1
          let whole := c = (dieChunks v u h.unit m.val).length
          ∃ w, exec (.updatePass m err) s = .next (relaySettle w) ∧ w.mem = z.mem ∧ genCur w = genCur z ∧ rd w (F.UD_NORM_VALUE m.val) = rd z (F.UD_NORM_VALUE m.val)
            ∧ w.uds = z.uds.set m.val { y with halves := y.halves.filter (fun g => g != h), read2 := mapPut y.read2 h.unit c,
                                               done := if whole then y.done ++ [h.unit] else y.done }
            ∧ (whole → Room z (F.UD_CNT_COUNT m.val 3) → rd w (F.UD_CNT_COUNT m.val 3) = rd z (F.UD_CNT_COUNT m.val 3) + 1)
            ∧ (¬ whole → rd w (F.UD_CNT_COUNT m.val 3) = rd z (F.UD_CNT_COUNT m.val 3)))))

/-- 08 R234 to R239: the routines that set up the cache, and why any is refused. -/
def Obligations.CacheStructuresSet : Prop :=
  (∀ (s : State) (k : ClusterId) (op : Nat) (c : Instr),
    (op, c) ∈ [(1, Instr.rcInit k), (2, .rcOpen k), (3, .rcFork k), (4, .rcWrite k), (5, .rcSeal k), (6, .rcWalk k), (7, .rcEvict k), (8, .rcFree k)] →
    (routineHead s k op = none → exec c s = .next s)
    ∧ (∀ r, routineHead s k op = some r →
      (argBlock s k r = none → exec c s = .next (cacheFail s k r op 2))
      ∧ (∀ b, argBlock s k r = some b → (cluster s k).rtBegun = false →
        (op ≠ 1 → s.rollout.conf = [] → exec c s = .next (cacheFail s k r op 1))
        ∧ ((op ≠ 1 → s.rollout.conf ≠ []) → (leAt b 0 1 ≠ op ∨ argReserved b = true → exec c s = .next (cacheFail s k r op 2))
          ∧ (leAt b 0 1 = op → argReserved b = false → ∀ d, cacheRefuses op (reclaim s k) b = some d →
              exec c s = .next (cacheFail (reclaim s k) k r op d))))))
  ∧ (∀ (s : State) (k : ClusterId) (r : CcReq) (op reason : Nat), ∃ u, OnlyRegs s u
      ∧ RegsKept s u [F.RC_ERR_VALID k, F.RC_ERR_SLOT k, F.RC_ERR_OP k, F.RC_ERR_REASON k] ∧ rd u (F.RC_ERR_VALID k) = 1
      ∧ (rd s (F.RC_ERR_VALID k) = 0 → rd u (F.RC_ERR_OP k) = op % 2 ^ (F.RC_ERR_OP k).width ∧ rd u (F.RC_ERR_REASON k) = reason % 2 ^ (F.RC_ERR_REASON k).width
          ∧ rd u (F.RC_ERR_SLOT k) = slotNum s r.core % 2 ^ (F.RC_ERR_SLOT k).width)
      ∧ (rd s (F.RC_ERR_VALID k) = 1 → u = s)
      ∧ ProgramFaulted u (cacheFail s k r op reason) r.core 0x05 (bits r.entry.word 70 4) r.entry.idx 0)
  ∧ (∀ (s v : State) (k : ClusterId) (r : CcReq) (b : List Byte),
    (CacheRuns s v k 1 r b →
      let record := ldBytes v (leAt b 0x18 8) 128
      let g := confOf record
      ∃ t, exec (.rcInit k) s = .next t ∧ t.rollout = { conf := record } ∧ t.pageDone = [] ∧ (cluster t k).rtBegun = false
        ∧ (cluster t k).ccq.head? = some { r with done := true }
        ∧ (∀ j : ClusterId, rd t (F.RC_STAT_INIT j) = 1 ∧ rd t (F.RC_STAT_NODES j) = 0 ∧ rd t (F.RC_STAT_RECLAIM j) = 0
            ∧ (∀ n, n < 9 → rd t (F.RC_CNT_COUNT j n) = 0))
        ∧ StoresWithin v t ((g.prec, 16 * g.precs) :: (r.arg + 1, 1) :: (r.arg + 0x24, 4) :: (List.range g.seqs).map (fun q => (g.seqBase + 32 * q, 1))))
    ∧ (CacheRuns s v k 2 r b →
      let base := leAt b 0x18 8
      let n := (conf v).tables * leAt b 0x14 4 * 8
      let w := openSeq (stBytes v base (List.replicate n 0)) (leAt b 4 4) (leAt b 0x14 4) base 0xFFFFFFFF
      ∃ t, exec (.rcOpen k) s = .next t ∧ CacheEnded w t k r 0 [] ∧ StoresWithin v w [(base, n), (seqAddr v (leAt b 4 4), 32)])
    ∧ (CacheRuns s v k 3 r b →
      let q := leAt b 4 4
      let p := leAt b 0x14 4
      let z := stBytes v (seqTables v p) (List.replicate ((conf v).tables * seqPages v p * 8) 0)
      let cells := (List.range (conf z).tables).flatMap (fun h => (List.range (leAt b 0x10 4)).map (fun i => (h, i)))
      let e := cells.foldl (fun (acc : State × Bool) e => if acc.2 then acc else match forkEntry acc.1 q p e.1 e.2 with
        | some u => (u, false)
        | none => (acc.1, true)) (z, false)
      (e.2 = true → exec (.rcFork k) s = .next (cacheFail e.1 k r 3 8))
      ∧ (e.2 = false → let w := openSeq e.1 p (seqPages e.1 p) (seqTables e.1 p) 0xFFFFFFFF
          ∃ t, exec (.rcFork k) s = .next t ∧ CacheEnded w t k r 0 [] ∧ StoresWithin e.1 w [(seqAddr e.1 p, 32)])))

/-- 08 R240 to R244, R246, R247, R251, R253, R254: the routines that work page by page. -/
def Obligations.CacheRoutinesFinish : Prop :=
  (∀ (s v : State) (k : ClusterId) (r : CcReq) (b : List Byte),
    let n := leAt b 0x10 4
    let past := fun (t : State) => decide (n ≤ (cluster t k).rtPos) || !(cluster t k).rtBegun
    let atEnd := fun (w : State) => w.run.isSome && (cluster w k).rtBegun && decide (n ≤ (cluster w k).rtPos)
    let runs := fun (c : Instr) (w : State) (res : Nat) => (atEnd w = false → exec c s = .next w)
      ∧ (atEnd w = true → ∃ t, exec c s = .next t ∧ CacheEnded w t k r res [])
    (CacheRuns s v k 4 r b → let w := pageLoop (fun t => writePage (reclaim t k) k r b) past n v; runs (.rcWrite k) w (cluster w k).rtCount)
    ∧ (CacheRuns s v k 6 r b → let w := pageLoop (fun t => walkPage t k r b) past n v; runs (.rcWalk k) w (cluster w k).rtCount)
    ∧ (CacheRuns s v k 7 r b → let w := pageLoop (fun t => evictPage t k r b) past n v; runs (.rcEvict k) w 0)
    ∧ (CacheRuns s v k 5 r b →
      let w := pageLoop (fun t => mergeEntry t k r b) (fun t => (cluster t k).rtSub == 0 || !(cluster t k).rtBegun) ((conf v).tables + 1) v
      let x := cluster w k
      (atEnd w = false ∨ x.rtSub ≠ 0 → exec (.rcSeal k) s = .next w)
      ∧ (atEnd w = true → x.rtSub = 0 → x.rtNode = 0xFFFFFFFF → ∃ t, exec (.rcSeal k) s = .next t ∧ CacheEnded w t k r x.rtCount [])
      ∧ (atEnd w = true → x.rtSub = 0 → x.rtNode ≠ 0xFFFFFFFF →
          ∃ t, exec (.rcSeal k) s = .next t ∧ CacheEnded w t k r x.rtCount [(seqAddr w (leAt b 4 4) + 0x10, 4)]))
    ∧ (CacheRuns s v k 8 r b →
      let q := leAt b 4 4
      let m := (conf v).tables * seqPages v q
      let w := pageLoop (fun t => freeEntry t k b) (fun t => decide (m ≤ (cluster t k).rtPos)) m v
      ((cluster w k).rtPos < m → exec (.rcFree k) s = .next w)
      ∧ (m ≤ (cluster w k).rtPos → let z := (chainNodes w maxNodes (seqChain w q)).foldl releaseNode w
          ∃ t, exec (.rcFree k) s = .next t ∧ CacheEnded z t k r 0 [(seqAddr z q, 1), (seqAddr z q + 0x10, 4)])))
  ∧ (∀ (s : State) (k : ClusterId) (r : CcReq) (b : List Byte),
    let x := cluster s k
    let v := pte s (leAt b 4 4) (argTable s b) (leAt b 0xC 4 + x.rtPos)
    let on := fun (t : State) (count : Nat) => (cluster t k).rtPos = x.rtPos + 1 ∧ (cluster t k).rtCount = count
    (pteValid v = false → ∃ t, walkPage s k r b = (t, true) ∧ evictPage s k r b = (t, true) ∧ on t x.rtCount ∧ MemKept s t ∧ t.cores = s.cores ∧ t.regs = s.regs)
    ∧ (∀ u, pteValid v = true → bringPage s r.core (ptePage v) = .live u → streamRoom u r.core 1 = true →
      let heads := bits (leAt b 9 1) 4 3 + 1
      ∃ t e, walkPage s k r b = (t, true) ∧ on t (x.rtCount + 1) ∧ MemKept u t ∧ (Machine.core t r.core).sq = (Machine.core u r.core).sq ++ [e]
        ∧ mapFind t.rollout.walked (ptePage v) = some x.rtEpoch
        ∧ e.page = ptePage v ∧ e.epoch = x.rtEpoch ∧ e.baton = leAt b 0xA 1 % 64 ∧ e.post = true
        ∧ e.pacer = (if bit (leAt b 0xB 1) 7 then some (leAt b 0xB 1 % 16) else none)
        ∧ e.runs = walkRuns (hbmSlot u (pageSlot u (ptePage v)))
            (leAt b 0x18 8 + (leAt b 0x22 2 + x.rtPos) % leAt b 0x20 2 * 33024 * heads) (bits (leAt b 9 1) 0 3) heads)
    ∧ (∀ slot l, pteValid v = true → pageState s (ptePage v) = 1 → (conf s).stSlots ≠ 0 → freeSt s = slot :: l → streamRoom s r.core 1 = true →
      ∃ t, evictPage s k r b = (t, true) ∧ on t x.rtCount ∧ t.mem = (setPageState s (ptePage v) 3).mem
        ∧ t.rollout.evicts = s.rollout.evicts ++ [(ptePage v, slot, false)]
        ∧ (Machine.core t r.core).sq = (Machine.core s r.core).sq
            ++ [pageCopy 1 (ptePage v) (epochWord s) (hbmSlot s (pageSlot s (ptePage v))) (stSlot s slot)])
    ∧ (∀ u, pteValid v = true → pteSealed v = false → pteTok v ≤ leAt b 0x14 4 → bringPage s r.core (ptePage v) = .live u →
      pageRef u (ptePage v) ≤ 1 → quietAt u (pageStamp u (ptePage v)) = true → streamRoom u r.core 1 = true →
      ∃ t e, writePage s k r b = (t, true) ∧ on t (x.rtCount + 1) ∧ (Machine.core t r.core).sq = (Machine.core u r.core).sq ++ [e]
        ∧ e.page = ptePage v ∧ e.post = false ∧ e.epoch = epochWord u
        ∧ e.runs = writeRuns (leAt b 0x18 8 + pageSize * x.rtPos) (hbmSlot u (pageSlot u (ptePage v))) (pteTok v) (leAt b 0x14 4)
        ∧ t.mem = (setPageTok (setPte u (leAt b 4 4) (argTable u b) (leAt b 0xC 4 + x.rtPos) (pteOf (ptePage v) (leAt b 0x14 4) false))
            (pageSlot u (ptePage v)) (leAt b 0x14 4)).mem)
    ∧ (let q := leAt b 4 4
      let i := x.rtPos % seqPages s q
      let h := x.rtPos / seqPages s q
      let y := pte s q h i
      (pteValid y = false → ∃ t, freeEntry s k b = (t, true) ∧ (cluster t k).rtPos = x.rtPos + 1 ∧ MemKept s t)
      ∧ (pteValid y = true → mayAdvance s = false → freeEntry s k b = (s, false))
      ∧ (pteValid y = true → mayAdvance s = true →
          ∃ t, freeEntry s k b = (t, true) ∧ (cluster t k).rtPos = x.rtPos + 1 ∧ t.mem = (removeMapping (setPte s q h i 0) (ptePage y)).mem))
    ∧ (∀ i n, ownPage s b x.rtPos = some i → nodeAt s x.rtNode = some n → x.rtSub ≤ (conf s).tables → x.rtSub ≠ 0 →
      let h := x.rtSub - 1
      let y := pte s (leAt b 4 4) h i
      let p := ldN s (psetAddr s n.pset + 4 * h) 4
      (pteValid y = false ∨ ptePage y = p ∨ p = 0xFFFFFFFF → ∃ t, mergeEntry s k r b = (t, true) ∧ (cluster t k).rtSub = x.rtSub + 1 ∧ MemKept s t)
      ∧ (pteValid y = true → ptePage y ≠ p → p ≠ 0xFFFFFFFF → mayAdvance s = true → pageRef s p < 2 ^ 32 - 1 →
        ∃ t, mergeEntry s k r b = (t, true) ∧ (cluster t k).rtSub = x.rtSub + 1 ∧ (cluster t k).rtCount = x.rtCount + 1
          ∧ t.mem = (removeMapping (setPte (setRef s p (pageRef s p + 1)) (leAt b 4 4) h i (pteOf p (pteTok y) true)) (ptePage y)).mem)))

/-- 08 R243 to R245, R249 to R251, R254, R255. -/
def Obligations.CacheFirmwareWorks : Prop :=
  (∀ (s : State) (k : ClusterId),
    let may := s.rollout.conf ≠ [] ∧ replaying s = false ∧ (freeHbm s).length < (conf s).low
    (¬ may ∨ coldestPage s k = none ∨ freeSt s = [] ∨ evictCore s k = none → exec (.lowWaterEvict k) s = .next s)
    ∧ (∀ p n l c, may → coldestPage s k = some p → freeSt s = n :: l → evictCore s k = some c →
      ∃ t, exec (.lowWaterEvict k) s = .next t ∧ t.rollout.evicts = s.rollout.evicts ++ [(p, n, false)]
        ∧ (Machine.core t c).sq = (Machine.core s c).sq ++ [pageCopy 1 p (epochWord s) (hbmSlot s (pageSlot s p)) (stSlot s n)]
        ∧ t.mem = (setPageState s p 3).mem ∧ StoresWithin s t [(precAddr s p + 8, 1)])
    ∧ (let ps := ((pagesIn s [2]).filter (fun p => pageHome s p == homeOf k && quietAt s (pageStamp s p))).take 256
      let now := s.run = none ∨ ((cluster s k).rtBegun = false ∧ (cluster s k).ccq ≠ [])
      (¬ now ∨ s.rollout.conf = [] → exec (.pageReclaim k) s = .next s)
      ∧ (now → s.rollout.conf ≠ [] →
        ∃ t, exec (.pageReclaim k) s = .next t ∧ t.mem = (ps.foldl (fun u p => setPageState u p 0) s).mem
          ∧ (rd s (F.RC_CNT_COUNT k 7) + ps.length < counterMax → rd t (F.RC_CNT_COUNT k 7) = rd s (F.RC_CNT_COUNT k 7) + ps.length)
          ∧ (∀ e ∈ t.rollout.quiets, e ∈ s.rollout.quiets) ∧ (∀ p ∈ ps, mapFind t.rollout.walked p = none)
          ∧ StoresWithin s t (ps.map (fun p => (precAddr s p + 8, 1))))))
  ∧ (∀ s : State,
    (s.pageDone.find? (fun e => e.1 == 1) = none → exec .evictionCopyDone s = .next s)
    ∧ (s.pageDone.find? (fun e => e.1 == 2) = none → exec .pageFetchDone s = .next s)
    ∧ ∀ d : Nat × Nat, let u : State := { s with pageDone := s.pageDone.erase d }
    (s.pageDone.find? (fun e => e.1 == 1) = some d →
      (s.rollout.evicts.find? (fun e => e.1 == d.2) = none → exec .evictionCopyDone s = .next u)
      ∧ (∀ p slot cancelled, s.rollout.evicts.find? (fun e => e.1 == d.2) = some (p, slot, cancelled) →
        let left := s.rollout.evicts.filter (fun e => !(e.1 == p && e.2.1 == slot))
        (cancelled = false → pageState s p = 3 → mayAdvance s = false → exec .evictionCopyDone s = .next s)
        ∧ (cancelled = true ∨ pageState s p ≠ 3 → exec .evictionCopyDone s = .next { u with rollout := { u.rollout with evicts := left } })
        ∧ (cancelled = false → pageState s p = 3 → mayAdvance s = true →
          let a := setPageState (setSlot s p slot) p 4
          ∃ t, exec .evictionCopyDone s = .next t ∧ t.pageDone = u.pageDone ∧ t.rollout.evicts = left
            ∧ t.rollout.quiets = s.rollout.quiets ++ [(pageSlot s p, epochWord a, pageHome s p)]
            ∧ t.mem = (setStamp (stN a (conf s).epoch 4 (epochWord a + 1)) p (epochWord a)).mem)))
    ∧ (s.pageDone.find? (fun e => e.1 == 2) = some d →
      (s.rollout.fetches.find? (fun e => e.1 == d.2) = none → exec .pageFetchDone s = .next u)
      ∧ (∀ p slot, s.rollout.fetches.find? (fun e => e.1 == d.2) = some (p, slot) →
        let left := s.rollout.fetches.filter (fun e => e.1 != p)
        (pageState s p ≠ 5 → exec .pageFetchDone s = .next { u with rollout := { u.rollout with fetches := left } })
        ∧ (pageState s p = 5 →
          ∃ t, exec .pageFetchDone s = .next t ∧ t.pageDone = u.pageDone ∧ t.rollout.fetches = left
            ∧ t.mem = (setPageState (setSlot s p slot) p 1).mem ∧ StoresWithin s t [(precAddr s p + 0xC, 4), (precAddr s p + 8, 1)]))))
  ∧ (∀ (s : State) (k : ClusterId), (routineHead s k 5 = none → exec (.prefixNodeOp k) s = .next s)
    ∧ ∀ r : CcReq, routineHead s k 5 = some r → (argBlock s k r = none → exec (.prefixNodeOp k) s = .next s)
    ∧ ∀ b : List Byte, argBlock s k r = some b →
    let x := cluster s k
    let j := x.rtPos
    let may := x.rtBegun = true ∧ x.rtSub = 0 ∧ j < leAt b 0x10 4
    let key := sealKey s (leAt b 0x18 8) j
    let toks := ldBytes s (leAt b 0x18 8 + 512 * j) 512
    let ways := (List.range 4).map (fun w => bucketBase key + w)
    let hit := ways.find? (fun g => (nodeAt s g).any (fun n => n.key == key && n.parent == x.rtNode) && nodeToks s g == toks)
    let ops := [F.RC_CNT_COUNT (unitOfPmu (keyUnit key)) 0, F.RC_CNT_COUNT (unitOfPmu (keyUnit key)) 2, F.RC_CNT_COUNT (unitOfPmu (keyUnit key)) 3] ++ satTouched
    let passed := fun (t : State) (g : Nat) => (cluster t k).rtPos = j + 1 ∧ (cluster t k).rtNode = g ∧ (cluster t k).rtSub = 0
    (¬ may → exec (.prefixNodeOp k) s = .next s)
    ∧ (may → ∀ g n, hit = some g → nodeAt s g = some n →
      let deep := (chainNodes s maxNodes (seqChain s (leAt b 4 4))).length ≤ j
      let nodes := if deep then mapPut s.rollout.nodes g (nodeRecord { n with ref := n.ref + 1 }) else s.rollout.nodes
      ((ownPage s b j).isSome = true → n.pset ≠ 0xFFFFFFFF →
        ∃ t, exec (.prefixNodeOp k) s = .next t ∧ t.rollout = { s.rollout with nodes := nodes } ∧ MemKept s t ∧ RegsKept s t ops
          ∧ (cluster t k).rtPos = j ∧ (cluster t k).rtNode = g ∧ (cluster t k).rtSub = 1)
      ∧ ((ownPage s b j).isSome = false ∨ n.pset = 0xFFFFFFFF →
        ∃ t, exec (.prefixNodeOp k) s = .next t ∧ t.rollout = { s.rollout with nodes := nodes } ∧ passed t g
          ∧ (ownPage s b j = none → MemKept s t ∧ RegsKept s t ops)))
    ∧ (may → hit = none → ways.find? (fun i => (mapFind s.rollout.nodes i).isNone) = none →
      ∃ t, exec (.prefixNodeOp k) s = .next t ∧ (cluster t k).rtPos = leAt b 0x10 4 ∧ (cluster t k).rtSub = 0 ∧ t.rollout = s.rollout ∧ MemKept s t
        ∧ RegsKept s t ops)
    ∧ (may → hit = none → ∀ g, ways.find? (fun i => (mapFind s.rollout.nodes i).isNone) = some g →
      (ownPage s b j = none → ∃ u t, exec (.prefixNodeOp k) s = .next t ∧ mapFind t.rollout.nodes g = some (nodeRecord ⟨key, x.rtNode, 0xFFFFFFFF, 1⟩) ∧ passed t g
        ∧ RegsKept s u ops ∧ OnlyRegsEvents s u ∧ t.mem = (stBytes u ((conf s).tok + 512 * g) toks).mem ∧ StoresWithin u t [((conf s).tok + 512 * g, 512)])
      ∧ (∀ i, ownPage s b j = some i → freePsets s = [] → ∃ u, exec (.prefixNodeOp k) s = .next (cacheFail u k r 5 4) ∧ RegsKept s u ops ∧ OnlyRegsEvents s u)
      ∧ (∀ i p l, ownPage s b j = some i → freePsets s = p :: l → ∃ t, exec (.prefixNodeOp k) s = .next t ∧ passed t g
        ∧ mapFind t.rollout.nodes g = some (nodeRecord ⟨key, x.rtNode, p, 1⟩))))

/-- 18 R516 to R519, R535, R536; 16 R488: part commands. -/
def Obligations.PartCommandsAct : Prop :=
  (∀ (s : State) (r : Fin 16) (seq op u : Nat) (c : Cmd) (lost : Bool) (i : Instr), Begins s r seq op c → c.param 0x10 2 = u →
    (op, i) ∈ [(0x50, Instr.retirePart r seq lost), (0x51, .repairPart r seq), (0x52, .resetPart r seq lost)] →
    let ends := fun (st detail : Nat) => ∃ t, exec i s = .next t ∧ Executed s t r.val seq st detail []
    let kind := u / 0x1000
    let z := zeroBytes c 0x12 46
    let ok := unitValid u && partServed op kind
    let busy := s.partCmds.any (fun p => p.2.1 == u)
    (z = false → ends 0x11 0x20) ∧ (z = true → ok = false → ends 0x11 0x22) ∧ (z = true → ok = true → busy = true → ends 0x03 0x40)
    ∧ (z = true → ok = true → busy = false → partCondition s op u = false → ends 0x11 0x23)
    ∧ (z = true → ok = true → busy = false → partCondition s op u = true →
      (op = 0x50 → rd s F.ID_FLT_NEXT_NEXT < 16 → ∃ v t, exec i s = .next t ∧ Executed v t r.val seq 0 0 [] ∧ v.journal = s.journal ∧ MemKept s v
        ∧ (kind = 0 → coreRetired v (unitCore u) = true ∧ (coreRetired s (unitCore u) = false → coreUnit (unitCore u) ∈ v.retired
            ∧ rd v F.ID_HEALTH_DEGRADED = 1))
        ∧ (kind = 1 → clusterRetired v (unitCluster u) = true) ∧ (kind ≤ 1 → stepUses s u = true → (u, 0x08) ∈ v.faults)
        ∧ (kind = 7 → portState v (u % 16) = 7)
        ∧ (kind = 9 → v.boards = s.boards.set (u % 8) 0 ∧ (lost = true → s.run.isSome = true → s.boards.getD (u % 8) 16 ≠ 0 → (0x9000 + u % 8, 0x06) ∈ v.faults)))
      ∧ (op = 0x51 → ∃ t, exec i s = .next t ∧ t.partCmds = s.partCmds ++ [(0x51, u, r.val, seq)]
        ∧ t.journal = (markStarted s r.val seq).journal ∧ MemKept s t
        ∧ (kind = 7 → (portState s (u % 16) = 7 → portState t (u % 16) = 2) ∧ (portState s (u % 16) = 4 → portState t (u % 16) = 5))
        ∧ (kind ≠ 7 → t = { s with partCmds := t.partCmds, journal := t.journal }))
      ∧ (op = 0x52 → ∃ t, exec i s = .next t ∧ t.partCmds = s.partCmds ++ [(0x52, u, r.val, seq)]
        ∧ t.journal = (markStarted s r.val seq).journal
        ∧ (kind = 0 → (∀ off, off < coreStoreSize → memByte t.mem (coreKey (unitCore u) off) = 0)
            ∧ (∀ k, (∀ off, off < coreStoreSize → k ≠ coreKey (unitCore u) off) → memByte t.mem k = memByte s.mem k)
            ∧ (∀ d, d ≠ unitCore u → Machine.core t d = Machine.core s d) ∧ Machine.core t (unitCore u) = resetStream (Machine.core s (unitCore u)))
        ∧ (kind = 1 → (∀ off, off < clusterStoreSize → memByte t.mem (clusterStoreBase (unitCluster u) + off) = 0)
            ∧ (∀ d : CoreId, d.cluster = unitCluster u → ∀ off, off < coreStoreSize → memByte t.mem (coreKey d off) = 0))
        ∧ (kind = 2 ∨ kind = 4 → t.prog = none) ∧ (kind = 4 → t.uds = s.uds.set (u % 4) {} ∧ rd t (F.UD_GEN_CUR (u % 4)) = rd s (F.UD_GEN_CUR (u % 4)) % 2)
        ∧ (kind = 7 → portState t (u % 16) = 1)
        ∧ (kind = 9 → MemKept s t ∧ t.boards = s.boards ∧ (lost = true → s.run.isSome = true → (u, 0x06) ∈ t.faults)))))
  ∧ (∀ (s : State) (u : Nat) (pass : Bool) (lanes : Nat) (mods : List Nat),
      (s.partCmds.find? (fun p => p.2.1 == u) = none → exec (.partActionDone u pass lanes mods) s = .next s)
      ∧ ∀ op r seq, s.partCmds.find? (fun p => p.2.1 == u) = some (op, u, r, seq) →
      let z : State := { s with partCmds := s.partCmds.filter (fun p => p.2.1 != u) }
      let n := if lanes = 16 then 16 else if lanes = 8 then 8 else 0
      (op ≠ 0x51 → u / 0x1000 ≠ 9 → exec (.partActionDone u pass lanes mods) s = .next (finish z r seq 0 0 []))
      ∧ (op ≠ 0x51 → u / 0x1000 = 9 → ∃ v, exec (.partActionDone u pass lanes mods) s = .next (finish v r seq 0 0 []) ∧ v.boards = s.boards.set (u % 8) n
          ∧ v.boardRemoved = s.boardRemoved.set (u % 8) 0 ∧ MemKept s v ∧ v.partCmds = z.partCmds ∧ (n = 16 → u ∉ v.retired))
      ∧ (op = 0x51 → ∃ v a b, exec (.partActionDone u pass lanes mods) s = .next (finish v r seq 0 0 (natLE 1 a ++ natLE 1 b)) ∧ v.partCmds = z.partCmds
          ∧ v.journal = s.journal ∧ MemKept s v ∧ (u / 0x1000 ≠ 7 → u / 0x1000 ≠ 8 → a = b2n pass)
          ∧ (u / 0x1000 = 0 → pass = true → unitValid u = true → coreRetired s (unitCore u) = true →
              coreRetired v (unitCore u) = false ∧ coreUnit (unitCore u) ∉ v.retired)
          ∧ (u / 0x1000 ≤ 1 → pass = false → v = z) ∧ (u / 0x1000 = 7 → (a = 1 ↔ portState v (u % 16) = 4) ∧ b = portLanes v (u % 16)))
      ∧ (∀ v c, cmdOf v r seq = some c → c.status = none → r < 16 → ∀ res, Executed v (finish v r seq 0 0 res) r seq 0 0 res))

/-- 18 R514 to R516; 01 R14: faults fatal to the job, and lanes of the panel links. -/
def Obligations.FatalFaultsEndTheProgram : Prop :=
  let ended := fun (s t : State) => rd t F.ID_HEALTH_FATAL = 1 ∧ t.prog = none ∧ t.run = none ∧ (s.remaps = [] → ∀ c, (Machine.core t c).occupied = false)
    ∧ t.faults = [] ∧ rd t F.CMD_STAT_STEP_STATE = 0 ∧ (s.rollout.conf = [] → s.remaps = [] → MemKept s t)
  (∀ (s : State) (u : Nat),
    (unitValid u = false ∨ u / 0x1000 = 0 ∨ 4 < u / 0x1000 → exec (.fatalFault u) s = .next s)
    ∧ (unitValid u = true → rd s F.ID_FLT_NEXT_NEXT < 16 → (∀ c ∈ s.journal, c.ring < 16) →
      (u / 0x1000 = 2 ∨ u / 0x1000 = 3 ∨ u / 0x1000 = 4 →
        ∃ t, exec (.fatalFault u) s = .next t ∧ ended s t ∧ (u / 0x1000 = 3 → rd t F.HA_STAT_WIDTH = 0) ∧ (u / 0x1000 = 4 → u % 4 ∈ t.udFault))
      ∧ (u / 0x1000 = 1 → ∃ t, exec (.fatalFault u) s = .next t ∧ clusterRetired t (unitCluster u) = true ∧ t.prog = s.prog ∧ MemKept s t
          ∧ (s.run.isSome = true → (u, 0x10) ∈ t.faults))))
  ∧ (∀ (s : State) (link : Fin 12) (m : Fin 25) (rx : Bool),
      let id := link.val * 64 + m.val
      let key := id * 2 + b2n rx
      let off := (s.ucieDis.filter (fun i => i / 64 == link.val)).length + 1
      (ucieModules link.val ≤ m.val ∨ id ∈ s.ucieDis → exec (.panelLaneFail link m rx) s = .next s)
      ∧ (m.val < ucieModules link.val → id ∉ s.ucieDis →
        (mapGet 0 s.ucie key < 4 → ∃ t, exec (.panelLaneFail link m rx) s = .next t ∧ mapGet 0 t.ucie key = mapGet 0 s.ucie key + 1
          ∧ t = { s with ucie := t.ucie, events := satOf s t, fired := t.fired })
        ∧ (4 ≤ mapGet 0 s.ucie key → rd s F.ID_FLT_NEXT_NEXT < 16 →
          (off ≠ ucieModules link.val →
            ∃ t, exec (.panelLaneFail link m rx) s = .next t ∧ t.ucieDis = s.ucieDis ++ [id]
              ∧ rd t F.ID_HEALTH_UCIE_DIS = (rd s F.ID_HEALTH_UCIE_DIS + 1) % 2 ^ 9 ∧ 0x8000 + link.val ∈ t.retired
              ∧ rd t F.ID_HEALTH_DEGRADED = 1 ∧ t.prog = s.prog ∧ MemKept s t)
          ∧ (off = ucieModules link.val → (∀ c ∈ s.journal, c.ring < 16) →
            ∃ t, exec (.panelLaneFail link m rx) s = .next t ∧ ended s t ∧ t.ucieDis = s.ucieDis ++ [id]))))

/-- 18 R517, R520 to R529, R531, R534; 16 R480: the replay of a step. -/
def Obligations.ReplayRunsItsPhases : Prop :=
  let phase := fun (s : State) => rd s F.ID_REPLAY_PHASE
  let fatal := fun (s : State) (i : Instr) => rd s F.ID_FLT_NEXT_NEXT < 16 → (∀ d ∈ s.journal, d.ring < 16) →
    ∃ t, exec i s = .next t ∧ rd t F.ID_HEALTH_FATAL = 1 ∧ t.prog = none ∧ t.run = none
  let counted := fun (s t : State) (n : Nat) => Room s (F.ID_FLT_CNT_COUNT n) → rd t (F.ID_FLT_CNT_COUNT n) = rd s (F.ID_FLT_CNT_COUNT n) + 1
  let stopped := fun (s t : State) => s.run ≠ none → ∀ d ∈ occupiedCores s, rd t (F.CO_SEQ_STAT_STATE d) = 3
  (∀ s : State, s.faults = [] ∨ s.run = none → exec .replayStart s = .next s)
  ∧ (∀ (s : State) (u c : Nat) (l : List (Nat × Nat)) (r : StepRun), s.faults = (u, c) :: l → s.run = some r →
      (r.sentCommit = true → exec .replayStart s = .next s)
      ∧ (r.sentCommit = false → r.program = false → (lostSlot s = false → nextReplayId s ≤ 16 →
        ∃ t q, exec .replayStart s = .next t ∧ t.faults = l ∧ t.run = some q ∧ q.replays = r.replays + 1 ∧ q.halted = false ∧ q.step = r.step
          ∧ t.replay.id = nextReplayId s ∧ t.replay.step = r.step ∧ phase t = 1 ∧ rd t F.ID_REPLAY_REPLAY_ID = nextReplayId s
          ∧ rd t F.ID_REPLAY_ORIG_VALID = 1 ∧ rd t F.ID_REPLAY_ORIG_CAUSE = u % 2 ^ 16 ∧ rd t F.ID_REPLAY_ORIG_ORIGIN = moduleId s % 2 ^ 10
          ∧ stopped s t ∧ rd t F.CMD_STAT_STEP_STATE = 5 ∧ counted s t 0 ∧ MemKept s t ∧ t.cores = s.cores)
        ∧ (lostSlot s = true ∨ 16 < nextReplayId s → fatal s .replayStart))
      ∧ (r.sentCommit = false → r.program = true → let again := (s.prog.map Program.rewrites).getD true = false ∧ lostSlot s = false
        (again → ∃ t, exec .replayStart s = .next t ∧ t.faults = l ∧ t.run = some { r with replays := r.replays + 1, halted := false } ∧ t.prog = s.prog)
        ∧ (¬ again → exec .replayStart s = .next (endRun (finish { s with faults := l } r.ring r.seq 0x21 0x34 [])))))
  ∧ (∀ (s : State) (k : Nat) (i : Instr), (k, i) ∈ [(1, Instr.replayStopReceive), (2, .stoppedReceive), (3, .drainReceive)] →
      (firstReplay s k = none → exec i s = .next s)
      ∧ ∀ f : CtrlFlit, firstReplay s k = some f →
      let m := replayMsgOf f
      (replayUse s m = .discard →
        ∃ t, exec i s = .next t ∧ t.ctrlIn = s.ctrlIn.erase f ∧ counted s t 2 ∧ m.src ∈ t.reporting
          ∧ RegsKept s t (F.ID_FLT_CNT_COUNT 2 :: satTouched)
          ∧ t = { s with regs := t.regs, ctrlIn := t.ctrlIn, ports := t.ports, reporting := t.reporting, events := satOf s t, fired := t.fired })
      ∧ (replayUse s m = .current →
        ∃ t, exec i s = .next t ∧ t.ctrlIn = s.ctrlIn.erase f ∧ (k ≠ 1 → m.id = s.replay.id → m ∈ t.replay.msgs)
          ∧ (k = 1 → t.replay = s.replay) ∧ t = { s with ctrlIn := t.ctrlIn, ports := t.ports, replay := { s.replay with msgs := t.replay.msgs } })
      ∧ (replayUse s m = .adopt → (m.id ≤ 16 → s.run = none ∨ lostSlot s = false →
        ∃ t, exec i s = .next t ∧ t.ctrlIn = s.ctrlIn.erase f ∧ t.replay.id = m.id ∧ t.replay.step = m.step ∧ phase t = 1
          ∧ rd t F.ID_REPLAY_REPLAY_ID = m.id ∧ rd t F.ID_REPLAY_ORIG_ORIGIN = leAt (f.payload.drop 8) 14 2 % 1024
          ∧ rd t F.ID_REPLAY_ORIG_CAUSE = leAt (f.payload.drop 8) 16 2 ∧ (k ≠ 1 → m ∈ t.replay.msgs) ∧ MemKept s t ∧ stopped s t)
        ∧ (16 < m.id ∨ (s.run ≠ none ∧ lostSlot s = true) → fatal s i)))
  ∧ (∀ s : State,
      let sets := fun (t : State) (n : Nat) (d : Bool) => phase t = 3 ∧ rd t F.ID_REPLAY_SET = min n 8191 ∧ t.replay.set = n ∧ t.replay.round = 0
        ∧ t.replay.reported = true ∧ t.replay.dirty = false ∧ t.replay.orDirty = (d || buffersDirty s) ∧ MemKept s t
      let more := s.replay.round + 1 < s.replay.rounds
      (phase s = 1 → originating s = true → exec .stoppedRoundsEnd s = .next s)
      ∧ (phase s = 1 → originating s = false → ∃ t, exec .stoppedRoundsEnd s = .next t ∧ phase t = 2 ∧ t.replay = { s.replay with round := 0 } ∧ MemKept s t
          ∧ (s.replay.rounds = 0 → RegsKept s t [F.ID_REPLAY_PHASE] ∧ t = { s with regs := t.regs, replay := t.replay }))
      ∧ (phase s = 2 → s.replay.rounds ≠ 0 → roundFull s 2 = false → exec .stoppedRoundsEnd s = .next s)
      ∧ (phase s = 2 → s.replay.rounds ≠ 0 → roundFull s 2 = true → more →
        ∃ t, exec .stoppedRoundsEnd s = .next t ∧ t.replay = { s.replay with round := s.replay.round + 1 } ∧ phase t = 2 ∧ MemKept s t)
      ∧ (phase s = 2 → s.replay.rounds = 0 ∨ (roundFull s 2 = true ∧ ¬ more) → ∃ t, exec .stoppedRoundsEnd s = .next t ∧ sets t 1 s.replay.dirty)
      ∧ (phase s ≠ 1 → phase s ≠ 2 → exec .stoppedRoundsEnd s = .next s)
      ∧ (phase s ≠ 3 → exec .drainSetEnd s = .next s)
      ∧ (phase s = 3 → s.replay.rounds ≠ 0 → roundFull s 3 = false → exec .drainSetEnd s = .next s)
      ∧ (phase s = 3 → s.replay.rounds ≠ 0 → roundFull s 3 = true → more →
        ∃ t, exec .drainSetEnd s = .next t ∧ phase t = 3 ∧ t.replay.round = s.replay.round + 1
          ∧ t.replay.orDirty = (s.replay.orDirty || (roundMsgs s 3).any (fun m => m.dirty)) ∧ MemKept s t)
      ∧ (phase s = 3 → s.replay.rounds = 0 ∨ (roundFull s 3 = true ∧ ¬ more) →
        let dirty := s.replay.orDirty || (s.replay.rounds != 0 && (roundMsgs s 3).any (fun m => m.dirty))
        (dirty = true → ∃ t, exec .drainSetEnd s = .next t ∧ sets t (s.replay.set + 1) s.replay.dirty ∧ t.replay.held = [])
        ∧ (dirty = false → (s.run = none → ∃ t, exec .drainSetEnd s = .next t ∧ phase t = 4 ∧ RegsKept s t [F.ID_REPLAY_PHASE] ∧ MemKept s t)
          ∧ (s.run ≠ none → lostSlot s = true → fatal s .drainSetEnd)
          ∧ (s.run ≠ none → lostSlot s = false → ∃ t u, exec .drainSetEnd s = .next t ∧ t = wr (applyRemaps u) F.ID_REPLAY_PHASE 4
              ∧ u = { s with replay := u.replay } ∧ phase t = 4))))
  ∧ (∀ s : State,
      let wait := phase s ≠ 4 ∨ s.faults ≠ [] ∨ s.softRows ≠ [] ∨ remapDue s = true ∨ s.partCmds.any (fun p => p.1 == 0x52) = true
      (wait → exec .restoreEnd s = .next s)
      ∧ (¬ wait →
        (s.run = none → ∃ t, exec .restoreEnd s = .next t ∧ phase t = 0 ∧ RegsKept s t [F.ID_REPLAY_PHASE] ∧ t.replay.held = []
            ∧ t.inbox = s.replay.held.filter (fun m => m.vc != 6) ++ s.inbox ∧ MemKept s t)
        ∧ (∀ r, s.run = some r →
          ∃ t, exec .restoreEnd s = .next t ∧ t.run = some r ∧ phase t = 0 ∧ rd t F.CMD_STAT_STEP_STATE = 2 ∧ t.replay.held = []
            ∧ t.inbox = s.replay.held.filter (fun m => m.vc != 6) ++ s.inbox
            ∧ t.hurdleBits = s.snapshot.hurdles ∧ ((∀ e ∈ s.snapshot.regs, recorded e.1 = true) → counted s t 1))))

/-- 19 R548 to R556; 16 R489: firmware. -/
def Obligations.FirmwareStagesActivatesRecovers : Prop :=
  (∀ (s : State) (r : Fin 16) (seq : Nat) (c : Cmd) (image : List Byte), Begins s r seq 0x60 c →
    let i : Instr := .fwStage r seq image
    let ends := fun (st detail : Nat) => ∃ t, exec i s = .next t ∧ Executed s t r.val seq st detail []
    let dev := c.param 0x18 8
    let len := c.param 0x20 8
    let good := leAt image 0x18 4 == image.length && (imageCause image s.fuseSvn).isNone && servesRings s image
    let may := zeroBytes c 0x28 24 = true ∧ rd s F.SEC_FW_STATE < 3
    let fits := c.param 0x10 8 % 64 = 0 ∧ 64 ≤ len ∧ len ≤ maxImage ∧ stageRun dev len = true ∧ reachesProgram s dev len = false
    (zeroBytes c 0x28 24 = false → ends 0x11 0x20) ∧ (zeroBytes c 0x28 24 = true → 3 ≤ rd s F.SEC_FW_STATE → ends 0x03 0x41)
    ∧ (may → len = 0 → ∃ u t, exec i s = .next t ∧ Executed u t r.val seq 0 0 [] ∧ u.journal = s.journal ∧ u.staged = none
        ∧ rd u F.SEC_FW_STATE = 0 ∧ MemKept s u)
    ∧ (may → len ≠ 0 → ¬ fits → ends 0x11 0x21)
    ∧ (may → fits → (image.length ≠ len ∨ parkedRun s dev len = true → exec i s = .next s)
      ∧ (image.length = len → parkedRun s dev len = false → good = true →
        ∃ u t, exec i s = .next t ∧ Executed u t r.val seq 0 0 [] ∧ u.journal = s.journal ∧ u.staged = some (dev, len)
          ∧ rd u F.SEC_FW_STATE = 2 ∧ rd u F.SEC_FW_STAGED_MAJOR = leAt image 0xB 1 ∧ rd u F.SEC_FW_STAGED_MINOR = leAt image 0xA 1
          ∧ rd u F.SEC_FW_STAGED_BUILD = leAt image 8 2 ∧ StoresWithin s u [(dev, len)]
          ∧ (prRegions s = [] → s.lineKeys = [] → s.pair = none → ldBytes u dev len = image))
      ∧ (image.length = len → parkedRun s dev len = false → good = false →
        ∃ u t, exec i s = .next t ∧ Executed u t r.val seq 0x11 0x25 [] ∧ u.journal = s.journal ∧ u.staged = none
          ∧ rd u F.SEC_FW_STATE = 0)))
  ∧ (∀ (s : State) (r : Fin 16) (seq : Nat) (c : Cmd) (fail : Option (Fin 109)), Begins s r seq 0x61 c →
      let i : Instr := .fwActivate r seq fail
      let ends := fun (st detail : Nat) => ∃ t, exec i s = .next t ∧ Executed s t r.val seq st detail []
      let b := stagedBytes s
      let may := zeroBytes c 0x10 48 = true ∧ s.staged ≠ none
      let now := s.run = none ∧ aloneInJournal s r.val seq = true
      (¬ may → ends 0x11 0x20) ∧ (may → ¬ now → exec i s = .next s) ∧ (may → now → servesRings s b = false → ends 0x11 0x2C)
      ∧ (may → now → servesRings s b = true →
        (digestsOk b = true → fail = none →
          ∃ u t, exec i s = .next t ∧ Executed u t r.val seq 0 0 [] ∧ u.journal = s.journal ∧ u.running = imageBytes b
            ∧ u.staged = none ∧ rd u F.SEC_FW_STATE = 4 ∧ rd u F.SEC_FW_UNITS = 109 ∧ rd u F.SEC_SVN_RUNNING = imageSvn b
            ∧ rd u F.ID_FW_VER_MAJOR = leAt b 0xB 1 ∧ rd u F.ID_FW_VER_MINOR = leAt b 0xA 1 ∧ rd u F.ID_FW_VER_BUILD = leAt b 8 2
            ∧ u.prog = s.prog ∧ MemKept s u)
        ∧ (∀ k, (digestsOk b = false ∧ k = 0) ∨ (digestsOk b = true ∧ fail.map Fin.val = some k) →
          ∃ u t, exec i s = .next t ∧ Executed u t r.val seq 0x11 0x25 [] ∧ u.journal = s.journal ∧ u.running = s.running
            ∧ u.staged = none ∧ rd u F.SEC_FW_STATE = 0 ∧ rd u F.SEC_FW_UNITS = k ∧ MemKept s u)))
  ∧ (∀ s : State, (rd s F.SEC_FW_STATE ≠ 4 → exec .flashingDone s = .next s)
      ∧ (rd s F.SEC_FW_STATE = 4 → ∃ t, exec .flashingDone s = .next t ∧ t.flash = s.running ∧ rd t F.SEC_FW_STATE = 0
          ∧ t.fuseSvn = (if leAt s.running 0x2C 4 % 2 = 1 ∧ s.fuseSvn < imageSvn s.running then imageSvn s.running else s.fuseSvn)
          ∧ t.running = s.running ∧ MemKept s t))
  ∧ (∀ (s : State) (via : RecoverVia) (code : Nat), let t := answerRecover s via code
      t.replies = s.replies ++ [.mailbox via.code code] ∧ t = { s with regs := t.regs, replies := t.replies } ∧ (via = .sideband → t.regs = s.regs)
        ∧ (via = .mailbox → rd t F.HV_MBOX_CMD_OPCODE = 0xC000 ∧ rd t F.HV_MBOX_STAT_RETURN = code % 2 ^ 16
          ∧ RegsKept s t [F.HV_MBOX_CMD_OPCODE, F.HV_MBOX_STAT_RETURN]))
  ∧ (∀ (s : State) (via : RecoverVia) (req : List Byte),
      let answers := fun (i : Instr) (u : State) (code : Nat) => exec i s = .next (answerRecover u via code)
      let header := fun (op : Nat) => 16 ≤ req.length ∧ leAt req 0 1 = op ∧ leAt req 1 3 = 0 ∧ leAt req 0xC 4 = 0
      let mine := s.recover.all (fun b => b.via == via.code)
      let off := leAt req 4 4
      let len := leAt req 8 4
      (∀ op i, (op, i) ∈ [(1, Instr.fwRecoverBegin via req), (2, .fwRecoverData via req), (3, .fwRecoverEnd via req)] →
        (recoverReachable s via = false → exec i s = .next s)
        ∧ (recoverReachable s via = true → (inRecovery s = false → answers i s 3)
          ∧ (inRecovery s = true → (¬ header op → answers i s 2) ∧ (header op → mine = false → answers i s 6)
            ∧ (header op → s.recover = none → op ≠ 1 → answers i s 2))))
      ∧ (recoverReachable s via = true → inRecovery s = true → mine = true →
        (header 1 → (len = 0 ∨ maxImage < len → answers (.fwRecoverBegin via req) s 2)
          ∧ (len ≠ 0 → len ≤ maxImage → answers (.fwRecoverBegin via req) { s with recover := some ⟨via.code, len, List.replicate len 0⟩ } 0))
        ∧ (∀ b, s.recover = some b →
          let piece := off % 64 = 0 ∧ 64 ≤ len ∧ len ≤ 65520 ∧ req.length = 16 + len ∧ off + len ≤ b.len
          (header 2 → (piece → answers (.fwRecoverData via req) { s with recover := some { b with data := putBytes b.data off (req.drop 16) } } 0)
            ∧ (¬ piece → answers (.fwRecoverData via req) s 2))
          ∧ (header 3 → let good := leAt b.data 0x18 4 = b.data.length ∧ imageCause b.data s.fuseSvn = none
            (good → ∃ t, exec (.fwRecoverEnd via req) s = .next t ∧ t.replies = s.replies ++ [.mailbox via.code 0] ∧ t.recover = none ∧ t.flash = b.data
              ∧ t.powered = true ∧ t.mem = [] ∧ t.prog = none ∧ t.boot.rails = true ∧ t.boot.verified = false ∧ t.dynAddr = s.dynAddr
              ∧ rd t F.TB_NOW_TIME = rd s F.TB_NOW_TIME % 2 ^ 64)
            ∧ (¬ good → ∃ t, exec (.fwRecoverEnd via req) s = .next t ∧ t.replies = s.replies ++ [.mailbox via.code 2] ∧ t.recover = none
              ∧ t.flash = s.flash ∧ rd t F.SEC_BOOT_CAUSE = 0x0A ∧ MemKept s t)))))

/-- 19 R557, R558, R561, R562; 16 R490; 15 R452, R453, R455: trust services. -/
def Obligations.SignaturesCertificatesAndKeys : Prop :=
  (∀ (s : State) (r : Fin 16) (seq : Nat) (c : Cmd),
    (Begins s r seq 0x70 c →
      let ends := fun (st detail : Nat) => ∃ t, exec (.attest r seq) s = .next t ∧ Executed s t r.val seq st detail []
      let mask := c.param 0x3C 4
      let ok := misaligned64 [c.param 0x30 8, c.param 0x38 4] = false ∧ 64 + 72 * (maskIndices mask).length + idSigBytes ≤ c.param 0x38 4
      (2 ^ 24 ≤ mask → ends 0x11 0x20) ∧ (mask < 2 ^ 24 → ¬ ok → ends 0x11 0x21)
      ∧ (mask < 2 ^ 24 → ok → ∃ t, exec (.attest r seq) s = .next t
          ∧ t.sigs = s.sigs ++ [.attest r.val seq (c.param 0x30 8) (attestReport s (sliceBytes c.entry 0x10 32) mask)]
          ∧ t.journal = (markStarted s r.val seq).journal ∧ t = { s with sigs := t.sigs, journal := t.journal }))
    ∧ (Begins s r seq 0x71 c →
      let ends := fun (st detail : Nat) => ∃ t, exec (.getCert r seq) s = .next t ∧ Executed s t r.val seq st detail []
      let ok := c.param 0x10 1 ≤ 7 ∧ zeroBytes c 0x11 7 = true ∧ zeroBytes c 0x2C 20 = true
      let chain := certChain s (c.param 0x10 1)
      let part := (chain.drop (c.param 0x18 8)).take (c.param 0x28 4)
      (¬ ok → ends 0x11 0x20) ∧ (ok → misaligned64 [c.param 0x20 8, c.param 0x28 4] = true → ends 0x11 0x21)
      ∧ (ok → misaligned64 [c.param 0x20 8, c.param 0x28 4] = false →
        ∃ u t, exec (.getCert r seq) s = .next t ∧ Executed u t r.val seq 0 0 (natLE 4 chain.length)
          ∧ u = (if part = [] then s else { s with hostOut := s.hostOut ++ [(c.param 0x20 8, part)] }))))
  ∧ (∀ s : State, (s.sigs = [] → exec .signatureDone s = .next s)
      ∧ ∀ q l, s.sigs = q :: l → ∃ u, u.sigs = l ∧ (Room s (F.SEC_CNT_COUNT 0) → rd u (F.SEC_CNT_COUNT 0) = rd s (F.SEC_CNT_COUNT 0) + 1)
        ∧ RegsKept s u (F.SEC_CNT_COUNT 0 :: satTouched) ∧ u = { s with regs := u.regs, sigs := l, events := satOf s u, fired := u.fired }
        ∧ (∀ ring seq host report, q = .attest ring seq host report →
          let out := report ++ signed49856 report
          let v := { u with hostOut := s.hostOut ++ [(host, out)] }
          exec .signatureDone s = .next (finish v ring seq 0 0 (natLE 4 out.length))
          ∧ (∀ c, cmdOf s ring seq = some c → c.status = none → ring < 16 → Executed v (finish v ring seq 0 0 (natLE 4 out.length)) ring seq 0 0 (natLE 4 out.length)))
        ∧ (∀ via data, q = .spdm via data →
          exec .signatureDone s = .next { u with replies := s.replies ++ spdmReplies via (data ++ signed49856 data) }))
  ∧ (∀ (s : State) (via : SpdmVia) (key chain req : List Byte) (slot : Fin 16) (cert : Fin 8) (kind : SpdmKind) (stream : IdeStream) (go : Bool),
      let all := [Instr.setCertificate via cert chain, .keyErase via slot, .keySet via slot key] ++ (if via = .doe then [.ideKm stream key go] else [])
      let refused := { s with replies := s.replies ++ [.outcome via.code false] }
      let body := Config.spdmResponse via.code req (sessionOpen s via) ((List.range 24).map (measurement s)) ((List.range 8).map (certChain s))
      let answered := s.replies ++ spdmReplies via.code body
      let tooLong := via = .doe ∧ 65536 < req.length
      (spdmServed s via = false → ∀ i ∈ Instr.spdmRequest via kind req :: all, exec i s = .next s)
      ∧ (tooLong → exec (.spdmRequest via kind req) s = .next s)
      ∧ (spdmServed s via = true → ¬ tooLong →
        exec (.spdmRequest via .plain req) s = .next { s with replies := answered }
        ∧ exec (.spdmRequest via .sign req) s = .next { s with sigs := s.sigs ++ [.spdm via.code body] }
        ∧ (sessionOpen s via = true → exec (.spdmRequest via .openSession req) s = .next refused)
        ∧ (sessionOpen s via = false → ∃ t, exec (.spdmRequest via .openSession req) s = .next t ∧ sessionOpen t via = true
            ∧ t = { s with replies := answered, sessions := t.sessions })
        ∧ (∃ t, exec (.spdmRequest via .endSession req) s = .next t ∧ sessionOpen t via = false
            ∧ t = { s with replies := answered, sessions := t.sessions }))
      ∧ (spdmServed s via = true → sessionOpen s via = false → ∀ i ∈ all, exec i s = .next refused)
      ∧ (spdmServed s via = true → sessionOpen s via = true →
        let done := fun (t : State) => t.replies = s.replies ++ [.outcome via.code true]
        (cert.val = 0 → exec (.setCertificate via cert chain) s = .next refused)
        ∧ (cert.val ≠ 0 → ∃ t, exec (.setCertificate via cert chain) s = .next t ∧ done t ∧ certChain t cert.val = chain
            ∧ (∀ o, o ≠ cert.val → certChain t o = certChain s o) ∧ t = { s with certs := t.certs, replies := t.replies })
        ∧ (keyInUse s slot.val = true → exec (.keyErase via slot) s = .next refused)
        ∧ (keyInUse s slot.val = true ∨ key.length ≠ 64 → exec (.keySet via slot key) s = .next refused)
        ∧ (keyInUse s slot.val = false →
          (∃ t, exec (.keyErase via slot) s = .next t ∧ done t ∧ mapFind t.keySlots slot.val = none
              ∧ (∀ o, o ≠ slot.val → mapFind t.keySlots o = mapFind s.keySlots o) ∧ t = { s with keySlots := t.keySlots, replies := t.replies })
          ∧ (key.length = 64 → ∃ t, exec (.keySet via slot key) s = .next t ∧ done t ∧ mapFind t.keySlots slot.val = some (leNat key)
              ∧ (∀ o, o ≠ slot.val → mapFind t.keySlots o = mapFind s.keySlots o) ∧ t = { s with keySlots := t.keySlots, replies := t.replies }))
        ∧ (via = .doe → key.length ≠ 32 → exec (.ideKm stream key go) s = .next refused)
        ∧ (via = .doe → key.length = 32 →
          ∃ t, exec (.ideKm stream key go) s = .next t ∧ done t ∧ t = { s with regs := t.regs, ideKeys := t.ideKeys, ideNext := t.ideNext, replies := t.replies }
            ∧ (go = false → mapFind t.ideNext stream.code = some (leNat key) ∧ t.ideKeys = s.ideKeys ∧ t.regs = s.regs)
            ∧ (go = true → mapFind t.ideKeys stream.code = some (leNat key) ∧ mapFind t.ideNext stream.code = none)
            ∧ (go = true → stream = .cacheMem → rd t F.HA_STAT_IDE_CM = 1 ∧ rd t F.HC_IDE_STAT_RX = 1 ∧ rd t F.HC_IDE_STAT_TX = 1)
            ∧ (go = true → stream = .link → rd t F.HA_STAT_IDE_IO = 1) ∧ (stream = .selective → t.regs = s.regs)
            ∧ RegsKept s t [F.HA_STAT_IDE_CM, F.HA_STAT_IDE_IO, F.HC_IDE_STAT_RX, F.HC_IDE_STAT_TX])))

/-- 15 R441 to R456; 19 R541, R563: the host link and the sideband. -/
def Obligations.HostLinkAndSidebandServe : Prop :=
  ∀ s : State,
    let counted := fun (t : State) (n k : Nat) => rd s (F.HA_CNT_COUNT n) + k < counterMax → rd t (F.HA_CNT_COUNT n) = rd s (F.HA_CNT_COUNT n) + k
    let trains := s.powered = true ∧ s.boot.cxl = false ∧ s.boot.perst = false ∧ (s.boot.verified = true ∨ inRecovery s = true)
    let waits := s.boot.cxl = true ∧ rd s F.HA_STAT_CFG_READY ≠ 1
    (¬ trains → exec .cxlTrainingStart s = .next s)
    ∧ (trains → ∃ t, exec .cxlTrainingStart s = .next t ∧ t.boot = { s.boot with cxl := true } ∧ counted t 0 (b2n s.boot.trained)
        ∧ RegsKept s t (F.HA_CNT_COUNT 0 :: satTouched) ∧ t = { s with regs := t.regs, boot := t.boot, events := satOf s t, fired := t.fired })
    ∧ (∀ p : LinkPartner, let m := agreedMode p
      (¬ waits → exec (.cfgReady p) s = .next s)
      ∧ (waits → ∃ t, exec (.cfgReady p) s = .next t ∧ rd t F.HA_STAT_SPEED = (modeFields m).1 ∧ rd t F.HA_STAT_WIDTH = (modeFields m).2.1
        ∧ rd t F.HA_STAT_FLIT = (modeFields m).2.2 ∧ rd t F.HA_STAT_CFG_READY = 1 ∧ t.boot = { s.boot with trained := true }
        ∧ RegsKept s t [F.HA_STAT_SPEED, F.HA_STAT_WIDTH, F.HA_STAT_FLIT, F.HA_STAT_CFG_READY]
        ∧ t = { s with regs := t.regs, boot := t.boot, pci := { s.pci with tags14 := decide (2 ≤ (modeFields m).2.2) } })
      ∧ (p.cxl256 = true → m = .cxl256 p.lowLatency p.lanes8) ∧ (p.cxl256 = false → p.cxl68 = true → m = .cxl68 p.lanes8)
      ∧ (p.cxl256 = false → p.cxl68 = false → m = .pcie p.rate p.lanes8))
    ∧ (¬ waits → exec .configRequestRetry s = .next s)
    ∧ (waits → ∃ t, exec .configRequestRetry s = .next t ∧ t.replies = s.replies ++ [.retryStatus] ∧ counted t 2 1
        ∧ RegsKept s t (F.HA_CNT_COUNT 2 :: satTouched) ∧ t = { s with regs := t.regs, replies := t.replies, events := satOf s t, fired := t.fired })
    ∧ (let fields := [F.HA_STAT_SPEED, F.HA_STAT_WIDTH, F.HA_STAT_FLIT, F.HA_STAT_CFG_READY, F.HA_STAT_BME, F.HA_STAT_IDE_IO, F.HA_STAT_IDE_CM,
         F.HC_IDE_CTL_PCRC_OFF, F.HV_MBOX_CMD_LEN, F.HV_MBOX_CMD_OPCODE]
       let ide := [F.HC_IDE_STAT_RX, F.HC_IDE_STAT_TX]
       let decoder := fun (f : Fld) => 0x61200 * 8 ≤ f.at_ ∧ f.at_ < 0x61230 * 8
       let down := fun (t : State) (n : Nat) => (∀ f ∈ fields, rd t f = 0) ∧ (∀ f ∈ ide, rd t f = n) ∧ (∀ f, decoder f → rd t f = rd State.reset f)
         ∧ (∀ f : Fld, ¬ decoder f → f.at_ ∉ (fields ++ ide).map Fld.at_ → rd t f = rd s f)
         ∧ t = { s with regs := t.regs, boot := { s.boot with cxl := false }, events := { s.events with masked := false }, biWait := [], ideKeys := [],
                        ideNext := [], pci := {} }
       (s.powered = false → exec .hotReset s = .next s) ∧ (s.powered = true → ∃ t, exec .hotReset s = .next t ∧ down t 0)
         ∧ (s.ideKeys ≠ [] → ∃ t, exec .ideIntegrityFail s = .next t ∧ down t 2) ∧ (s.ideKeys = [] → exec .ideIntegrityFail s = .next s))
    ∧ (∀ bme, (rd s F.HA_STAT_WIDTH = 0 → exec (.linkUpFlush bme) s = .next s)
      ∧ (rd s F.HA_STAT_WIDTH ≠ 0 → ∃ t, exec (.linkUpFlush bme) s = .next t ∧ rd t F.HA_STAT_BME = b2n bme ∧ MemKept s t ∧ t.journal = s.journal
          ∧ t = (List.finRange 16).foldl (fun v r => flushRing r (owedBy v r.val).length v) (wr s F.HA_STAT_BME (b2n bme))
          ∧ (s.owed = [] → RegsKept s t [F.HA_STAT_BME] ∧ OnlyRegs s t)))
    ∧ (∀ r n t, exec (.completionWrite r) s = .next t → flushRing r (n + 1) s = flushRing r n t)
    ∧ (∀ a, exec (.h2dSnoop a) s = .next (if cxlMode s then { s with replies := s.replies ++ [.snoop a.toNat] } else s))
    ∧ (∀ (line : BitVec 46) (err : StoreErr) (data : List Byte),
      let read : Instr := .cxlMemRead line err
      let write : Instr := .cxlMemWrite line data
      (hdmDpa s (line.toNat * 64) = none → exec read s = .next s ∧ exec write s = .next s)
      ∧ ∀ o, hdmDpa s (line.toNat * 64) = some o →
      let zeros := fun (t : State) => counted t 4 1 ∧ RegsKept s t (F.HA_CNT_COUNT 4 :: satTouched)
        ∧ t = { s with regs := t.regs, replies := t.replies, events := satOf s t, fired := t.fired }
      (unbound s o = true →
        (∃ t, exec read s = .next t ∧ t.replies = s.replies ++ [.memData o (List.replicate 64 0) false] ∧ zeros t)
        ∧ (∃ t, exec write s = .next t ∧ t.replies = s.replies ++ [.memDone o] ∧ zeros t))
      ∧ (unbound s o = false → udParked s (o / 4096 % 4) = true → exec read s = .next s ∧ exec write s = .next s)
      ∧ (unbound s o = false → udParked s (o / 4096 % 4) = false →
        let a := windowAddr s o
        let u := match err with
          | .clean => s
          | .corrected => dramCorrected s a
          | .uncorrectable => dramUncorrectable s a
        let e := hostLine u a
        let bad := e.2 || err == .uncorrectable
        let wait := s.biWait.find? (fun w => w.line == a)
        (∃ t, exec read s = .next t ∧ t.replies = u.replies ++ [.memData o e.1 bad] ∧ (bad = false → t = { u with replies := t.replies })
          ∧ (bad = true → (Room u (F.HA_CNT_COUNT 5) → rd t (F.HA_CNT_COUNT 5) = rd u (F.HA_CNT_COUNT 5) + 1) ∧ RegsKept u t (F.HA_CNT_COUNT 5 :: satTouched)
            ∧ t = { u with regs := t.regs, replies := t.replies, events := satOf u t, fired := t.fired }))
        ∧ (wait = none → hostLine s a = (ldBytes s a 64, poisonedAt s a)) ∧ (∀ w, wait = some w → hostLine s a = (w.old, w.bad))
        ∧ (wait = none →
          ∃ t, exec write s = .next t ∧ t.replies = s.replies ++ [.memDone o] ∧ StoresWithin s t [(a, 64)] ∧ (∀ f, rd t f = rd s f)
            ∧ (prRegions s = [] → s.lineKeys = [] → (∀ i, i < 64 → physKey s (a + i) = some (a + i)) → ldBytes t a 64 = sliceBytes data 0 64))
        ∧ (∀ w, wait = some w →
          ∃ t, exec write s = .next t ∧ t.replies = s.replies ++ [.memDone o] ∧ StoresWithin s t [(a, 64)] ∧ (∀ f, rd t f = rd s f)
            ∧ t.biWait = s.biWait.map (fun v => if v.line = a then { v with old := sliceBytes data 0 64 } else v)
            ∧ t.mem = (stPlain s a (underWrite w.mine (ldBytes s a 64) (sliceBytes data 0 64))).mem)))
    ∧ (∀ a : BitVec 48, exec (.birspReceive a) s = .next { s with biWait := s.biWait.filter (fun w => w.line != a.toNat) })
    ∧ (rd s F.HA_STAT_CFG_READY ≠ 1 → exec .cdatRead s = .next s ∧ ∀ i, exec (.doeDiscovery i) s = .next s)
    ∧ (rd s F.HA_STAT_CFG_READY = 1 → exec .cdatRead s = .next { s with replies := s.replies ++ [.doe 0x1E98 2 (Config.cdatBytes 0 0 549755813888 true 600 59)] }
      ∧ ∀ i : Fin 256, ∃ e following, exec (.doeDiscovery i) s = .next { s with replies := s.replies ++ [.doe 0x0001 0 (natLE 2 e.1 ++ natLE 1 e.2 ++ natLE 1 following)] }
          ∧ e = doeTypes.getD i.val (0xFFFF, 0xFF) ∧ following = (if i.val + 1 < doeTypes.length then i.val + 1 else 0))
    ∧ (∀ a : BitVec 7, exec (.dynamicAddressAssignment a) s = .next (if s.boot.block then { s with dynAddr := some a.toNat } else s))
    ∧ (sidebandServed s = false → (∀ m, exec (.mctpControl m) s = .next s) ∧ exec .sidebandReadStatus s = .next s)
    ∧ (sidebandServed s = false ∨ s.boot.sections = false → exec .pldmMonitor s = .next s)
    ∧ (sidebandServed s = true → (∀ m, exec (.mctpControl m) s = .next { s with replies := s.replies ++ [.sideband 0x00 (Config.mctpResponse m)] })
      ∧ (s.boot.sections = true → exec .pldmMonitor s = .next { s with replies := s.replies ++ [.sideband 0x01 (monitorBytes s)] })
      ∧ (∃ b, exec .sidebandReadStatus s = .next { s with replies := s.replies ++ [.sideband 0x7E b] } ∧ b.length = 16
          ∧ leAt b 0 4 = regWord s 0x50000 % 2 ^ 32 ∧ leAt b 4 4 = regWord s 0x10 % 2 ^ 32))

/-- 11 R323 to R326, R329: upkeep of DRAM. -/
def Obligations.DramUpkeepActs : Prop :=
  (∀ (s : State) (a row : Nat) (d : Bool × Nat × Nat), dramOf s a = some d →
    let f := if d.1 then F.HBM_SCRUB_COUNT d.2.1 else F.ST_SCRUB_COUNT d.2.1
    let ce := if d.1 then F.HBM_CE_CNT_COUNT d.2.1 d.2.2 else F.ST_CE_CNT_COUNT d.2.1
    let k := rowKey (dramUnit d) row
    (lineOf s a ≠ lastLine d → exec (.patrolScrub a row .clean) s = .next s)
    ∧ (lineOf s a = lastLine d →
        ∃ t, exec (.patrolScrub a row .clean) s = .next t ∧ (Room s f → rd t f = rd s f + 1) ∧ RegsKept s t (f :: satTouched) ∧ OnlyRegsEvents s t)
    ∧ (rd s F.ID_FLT_NEXT_NEXT < 16 →
        ∃ t, exec (.patrolScrub a row .corrected) s = .next t ∧ (Room s ce → rd t ce = rd s ce + 1) ∧ MemKept s t ∧ t.run = s.run ∧ t.poison = s.poison
          ∧ (mapGet 0 s.ceRows k = 0 → mapGet 0 t.ceRows k = 4 * (rd s f + 1) + 1)
          ∧ (mapGet 0 s.ceRows k % 4 = 2 → mapGet 0 s.ceRows k / 4 ≠ rd s f + 1 → k ∈ t.softRows ∧ mapGet 0 t.ceRows k = 0))
    ∧ (rd s F.ID_FLT_NEXT_NEXT < 16 →
        ∃ t, exec (.patrolScrub a row .uncorrectable) s = .next t ∧ lineOf s a / 256 ∈ t.poison ∧ MemKept s t ∧ t.run = s.run ∧ t.faults = s.faults))
  ∧ (∀ (s : State) (a row : Nat) (err : StoreErr), dramOf s a = none → exec (.patrolScrub a row err) s = .next s)
  ∧ (∀ (s : State) (u row : Nat),
      let f := if u / 0x1000 = 5 then F.HBM_PPR_CNT_COUNT (u % 16) else F.ST_PPR_CNT_COUNT (u % 0x1000)
      (rowKey u row ∉ s.softRows ∨ atBoundary s = false → exec (.softPpr u row) s = .next s)
      ∧ (rowKey u row ∈ s.softRows → atBoundary s = true →
        ∃ t, exec (.softPpr u row) s = .next t ∧ t.softRows = s.softRows.erase (rowKey u row) ∧ rowKey u row ∈ t.hardRows
          ∧ (∀ k, k ∈ s.hardRows → k ∈ t.hardRows) ∧ (Room s f → rd t f = rd s f + 1) ∧ RegsKept s t (f :: satTouched)
          ∧ t = { s with regs := t.regs, softRows := t.softRows, hardRows := t.hardRows, events := satOf s t, fired := t.fired }))
  ∧ (∀ (s : State) (n : Fin 16) (bad : List Nat),
      (rd s (F.HBM_STAT_RET_PENDING n.val) ≠ 1 ∨ atBoundary s = false ∨ stackClear s n.val = false →
        exec (.pcRetireRemap n bad) s = .next s)
      ∧ (rd s (F.HBM_STAT_RET_PENDING n.val) = 1 → atBoundary s = true → stackClear s n.val = true → rd s F.ID_FLT_NEXT_NEXT < 16 →
        ∃ t, exec (.pcRetireRemap n bad) s = .next t ∧ rd t (F.HBM_STAT_RET_PENDING n.val) = 0 ∧ rd t (F.HBM_STAT_RET_VALID n.val) = 1
          ∧ MemKept s t ∧ t.run = s.run
          ∧ (∀ a ∈ bad, dramOf s a = some (true, n.val, rd s (F.HBM_STAT_RETIRED_PC n.val)) → lineOf s a / 256 ∈ t.poison)
          ∧ (bad = [] → RegsKept s t [F.HBM_STAT_RET_PENDING n.val, F.HBM_STAT_RET_VALID n.val] ∧ OnlyRegs s t)))

/-- 20 R566, R568 to R571, R584: the input, the power limit and the brake. -/
def Obligations.PowerInputsAct : Prop :=
  let shows := fun (u : State) => ∀ d, d < 8 → rd u (F.PWR_TEMP_DUTY d) = dieDuty u d % 2 ^ (F.PWR_TEMP_DUTY d).width
  (∀ s : State, s.powered = false →
    (∀ v, exec (.inputExcursion v) s = .next s) ∧ (∀ v a w m, exec (.powerSample v a w m) s = .next s) ∧ exec .brakeAssert s = .next s
      ∧ exec .brakeDeassert s = .next s ∧ exec .brakeRiseDone s = .next s ∧ exec .powerLoss s = .next s)
  ∧ (∀ s : State, s.powered = true →
    (∀ v : BitVec 16, ∃ t, exec (.inputExcursion v) s = .next t
      ∧ bit t.power.conds 0 = decide (v.toNat < 5800) ∧ bit t.power.conds 1 = decide (7000 < v.toNat)
      ∧ (v.toNat < 5800 → rd t F.PWR_ALERT_UV = 1) ∧ (7000 < v.toNat → rd t F.PWR_ALERT_OV = 1)
      ∧ (5800 ≤ v.toNat → rd t F.PWR_ALERT_UV = rd s F.PWR_ALERT_UV) ∧ (v.toNat ≤ 7000 → rd t F.PWR_ALERT_OV = rd s F.PWR_ALERT_OV)
      ∧ RegsKept s t [F.PWR_ALERT_UV, F.PWR_ALERT_OV]
      ∧ t = { s with regs := t.regs, power := { s.power with conds := t.power.conds } })
    ∧ (∀ v a w m : BitVec 16,
      let lim := rd s F.PWR_LIMIT_LIMIT
      let ready := s.power.waitTo ≤ rd s F.TB_NOW_TIME
      ∃ t, exec (.powerSample v a w m) s = .next t ∧ rd t F.PWR_IN_VOLTAGE = v.toNat ∧ rd t F.PWR_IN_CURRENT = a.toNat
        ∧ rd t F.PWR_IN_POWER = w.toNat
        ∧ t.power.limit = (if ¬ ready then s.power.limit
            else if 5600 < w.toNat then (if s.power.limit ≤ 2 then s.power.limit else max 2 (s.power.limit - 2))
            else if lim < m.toNat then (if s.power.limit ≤ 2 then s.power.limit else s.power.limit - 1)
            else if s.power.limit < 8 ∧ 100 * m.toNat ≤ 95 * lim then s.power.limit + 1 else s.power.limit)
        ∧ (t.power.limit < s.power.limit → (Room s (F.PWR_CNT_COUNT 3) → rd t (F.PWR_CNT_COUNT 3) = rd s (F.PWR_CNT_COUNT 3) + 1) ∧ rd t F.PWR_ALERT_LIMIT = 1
            ∧ t.power.waitTo = rd s F.TB_NOW_TIME + 1000000)
        ∧ (t.power.limit ≠ s.power.limit → shows t)
        ∧ (s.power.limit ≤ t.power.limit → rd t (F.PWR_CNT_COUNT 3) = rd s (F.PWR_CNT_COUNT 3) ∧ t.power.waitTo = s.power.waitTo)
        ∧ t.power.brake = s.power.brake ∧ t.power.dies = s.power.dies
        ∧ t = { s with regs := t.regs, power := t.power, events := satOf s t, fired := t.fired }
        ∧ RegsKept s t (F.PWR_IN_VOLTAGE :: F.PWR_IN_CURRENT :: F.PWR_IN_POWER :: F.PWR_ALERT_UV :: F.PWR_ALERT_OV :: F.PWR_ALERT_LIMIT
            :: F.PWR_CNT_COUNT 3 :: dutyFlds ++ satTouched))
    ∧ (rd s F.PWR_STAT_BRAKE = 1 → exec .brakeAssert s = .next s ∧ exec .brakeRiseDone s = .next s
      ∧ ∃ t, exec .brakeDeassert s = .next t ∧ rd t F.PWR_STAT_BRAKE = 0
        ∧ t.power = { s.power with brake := 4, riseAt := rd s F.TB_NOW_TIME + 10000 }
        ∧ shows t ∧ RegsKept s t (F.PWR_STAT_BRAKE :: dutyFlds)
        ∧ t = { s with regs := t.regs, power := t.power })
    ∧ (rd s F.PWR_STAT_BRAKE ≠ 1 → exec .brakeDeassert s = .next s)
    ∧ (rd s F.PWR_STAT_BRAKE ≠ 1 →
      ∃ t, exec .brakeAssert s = .next t ∧ rd t F.PWR_STAT_BRAKE = 1 ∧ t.power = { s.power with brake := 2, riseAt := 0 }
        ∧ shows t ∧ (∀ d, d < 8 → rd t (F.PWR_TEMP_DUTY d) ≤ 2)
        ∧ (Room s (F.PWR_CNT_COUNT 0) → rd t (F.PWR_CNT_COUNT 0) = rd s (F.PWR_CNT_COUNT 0) + 1)
        ∧ RegsKept s t (F.PWR_STAT_BRAKE :: F.PWR_CNT_COUNT 0 :: dutyFlds ++ satTouched)
        ∧ t = { s with regs := t.regs, power := t.power, events := satOf s t, fired := t.fired })
    ∧ (s.power.brake = 8 ∨ rd s F.TB_NOW_TIME < s.power.riseAt → exec .brakeRiseDone s = .next s)
    ∧ (rd s F.PWR_STAT_BRAKE ≠ 1 → s.power.brake ≠ 8 → s.power.riseAt ≤ rd s F.TB_NOW_TIME →
      ∃ t, exec .brakeRiseDone s = .next t ∧ t.power = { s.power with brake := 8 } ∧ RegsKept s t dutyFlds
        ∧ shows t ∧ t = { s with regs := t.regs, power := t.power })
    ∧ (∃ t, exec .powerLoss s = .next t ∧ t.powered = false ∧ t.regs = [] ∧ t.mem = [] ∧ t.prog = none ∧ t.journal = [] ∧ t.run = none
        ∧ t.certs = s.certs ∧ t.fuseSvn = s.fuseSvn ∧ t.flash = (if rd s F.SEC_FW_STATE = 4 then [] else s.flash)
        ∧ t.hostOut = s.hostOut ∧ t.msixOut = s.msixOut ∧ t.wire = s.wire ∧ t.pending = s.pending))

/-- 20 R572, R573, R575, R576; 01 R34: temperatures and the power states of clusters. -/
def Obligations.HeatAndClusterPowerStates : Prop :=
  (∀ (s : State) (n : Fin 14) (temp : BitVec 16), s.powered = true →
    let ds := s.power.dies
    let q := ds.getD n.val 8
    let x := signed 16 temp.toNat
    ∃ t, exec (.thermalSample n temp) s = .next t ∧ rd t (F.PWR_TEMP_TEMP n.val) = temp.toNat
      ∧ (n.val < 13 → 800 ≤ x → rd t F.PWR_ALERT_TJ = 1)
      ∧ (n.val < 8 → t.power.limit = s.power.limit
          ∧ t.power.dies = (if 800 ≤ x ∧ 2 < q then ds.set n.val (q - 1) else if x ≤ 776 ∧ q < 8 then ds.set n.val (q + 1) else ds)
          ∧ (Room s (F.PWR_CNT_COUNT 2) → rd t (F.PWR_CNT_COUNT 2) = rd s (F.PWR_CNT_COUNT 2) + (if 800 ≤ x ∧ 2 < q then 1 else 0)))
      ∧ (n.val = 13 → t.power.dies = ds ∧ t.power.limit = s.power.limit ∧ (320 < x → rd t F.PWR_ALERT_INLET = 1))
      ∧ (8 ≤ n.val → n.val < 13 → t.power.dies = ds
          ∧ t.power.limit = (if 800 ≤ x ∧ s.power.waitTo ≤ rd s F.TB_NOW_TIME ∧ 2 < s.power.limit then s.power.limit - 1 else s.power.limit))
      ∧ t.prog = s.prog ∧ t.run = s.run ∧ MemKept s t)
  ∧ (∀ (s : State) (n : Fin 13), (s.powered = false ∨ s.boot.shut = true ∨ temperature s n.val < (880 : Int) → exec (.thermalShutdown n) s = .next s)
    ∧ (s.powered = true → s.boot.shut = false → (880 : Int) ≤ temperature s n.val → rd s F.ID_FLT_NEXT_NEXT < 16 → (∀ c ∈ s.journal, c.ring < 16) →
      ∃ t, exec (.thermalShutdown n) s = .next t ∧ t.prog = none ∧ t.run = none
        ∧ (n.val ≠ 8 → rd t F.ID_HEALTH_FATAL = 1 ∧ t.boot.shut = true ∧ rd t F.PWR_UD_STATE_PARKED = 0xF
            ∧ (∀ d, d < 8 → rd t (F.PWR_CL_STATE_DIE d) = 1)
            ∧ (Room s (F.PWR_CNT_COUNT 4) → rd t (F.PWR_CNT_COUNT 4) = rd s (F.PWR_CNT_COUNT 4) + 1)
            ∧ (s.rollout.conf = [] → s.remaps = [] → MemKept s t))
        ∧ (n.val = 8 → t.powered = false ∧ t.mem = [])))
  ∧ (∀ s : State, s.powered = false → (∀ n v, exec (.thermalSample n v) s = .next s) ∧ ∀ k, exec (.clockGate k) s = .next s ∧ exec (.clusterSleep k) s = .next s)
  ∧ (∀ (s : State) (k : ClusterId), s.powered = true →
      let f := clStateFld k
      let free := s.prog.isNone = true ∨ (coresOf k).all (coreRetired s) = true ∨ clusterRetired s k = true
      (clusterIdle s k = true → rd s f = 0 → ∃ t, exec (.clockGate k) s = .next t ∧ rd t f = 1 ∧ RegsKept s t [f] ∧ OnlyRegs s t)
      ∧ (clusterIdle s k = false ∨ rd s f ≠ 0 → exec (.clockGate k) s = .next s)
      ∧ (clusterIdle s k = false ∨ ¬ free ∨ rd s f = 2 → exec (.clusterSleep k) s = .next s)
      ∧ (clusterIdle s k = true → free → rd s f ≠ 2 →
        ∃ t, exec (.clusterSleep k) s = .next t ∧ rd t f = 2 ∧ RegsKept s t [f] ∧ t.fired = s.fired ++ [dieSrc k.die.val 8] ∧ OnlyRegsEvents s t))
  ∧ (∀ (s : State) (k : ClusterId) (cause : WakeCause),
      let f := clStateFld k
      let named := (cause = .load ∧ s.prog.isSome = true) ∨ (cause = .event ∧ latchedWake s k.key = true) ∨ cause = .access
      (rd s f = 2 → named →
        ∃ t, exec (.clusterWake k cause) s = .next t ∧ rd t f = 0 ∧ dieSrc k.die.val 8 ∈ t.fired ∧ t.prog = s.prog ∧ t.cores = s.cores ∧ MemKept s t
          ∧ (∀ c, c.cluster = k → rd t (F.CO_FMT_CTL_FLUSH_ACTIVE c) = rd (showFlush t c) (F.CO_FMT_CTL_FLUSH_ACTIVE c)))
      ∧ (rd s f = 2 → ¬ named → exec (.clusterWake k cause) s = .next s)
      ∧ (rd s f ≠ 0 → rd s f ≠ 2 →
        ∃ t, exec (.clusterWake k cause) s = .next t ∧ rd t f = 0 ∧ RegsKept s t (f :: (coresOf k).map F.CO_FMT_CTL_FLUSH_ACTIVE) ∧ OnlyRegs s t)
      ∧ (rd s f = 0 → exec (.clusterWake k cause) s = .next s))

/-- 19 R541 to R546: bring-up and warm reset. -/
def Obligations.BringUpRunsItsSteps : Prop :=
  let counted := fun (s t : State) (n : Nat) => Room s (F.SEC_CNT_COUNT n) → rd t (F.SEC_CNT_COUNT n) = rd s (F.SEC_CNT_COUNT n) + 1
  (∀ s : State, (s.powered = true → exec .powerOn s = .next s)
    ∧ (s.powered = false → ∃ t, exec .powerOn s = .next t ∧ t.powered = true ∧ rd t F.SEC_SVN_FUSED = s.fuseSvn % 256 ∧ t.mem = []
        ∧ t.prog = none ∧ t.certs = s.certs ∧ t.pending = s.pending ∧ ∀ f : Fld, f.at_ ≠ F.SEC_SVN_FUSED.at_ → rd t f = f.reset))
  ∧ (∀ s : State, exec .railsGood s = .next (if s.powered then { s with boot := { s.boot with rails := true } } else s)
    ∧ exec .startingBlockRun s = .next (if s.boot.rails then { s with boot := { s.boot with block := true } } else s)
    ∧ exec .perstDeassert s = .next { s with boot := { s.boot with perst := false } })
  ∧ (∀ s : State,
    let b := if rd s F.SEC_BOOT_WARM = 1 then s.running else s.flash
    (s.boot.block = false ∨ s.boot.verified = true ∨ 4 ≤ rd s F.SEC_BOOT_STAGE → exec .imageVerify s = .next s)
    ∧ (s.boot.block = true → s.boot.verified = false → rd s F.SEC_BOOT_STAGE < 4 →
      (imageCause b s.fuseSvn = none →
        ∃ t, exec .imageVerify s = .next t ∧ rd t F.SEC_BOOT_STAGE = 2 ∧ t.running = imageBytes b ∧ t.boot = { s.boot with verified := true }
          ∧ rd t F.ID_FW_VER_MAJOR = leAt b 0xB 1 ∧ rd t F.ID_FW_VER_MINOR = leAt b 0xA 1 ∧ rd t F.ID_FW_VER_BUILD = leAt b 8 2
          ∧ rd t F.ID_PROTO_SHOAVO_MAJ = leAt b 0x10 1 ∧ rd t F.ID_PROTO_SHOAVO_MIN = leAt b 0x11 1
          ∧ rd t F.ID_PROTO_COLSY_MAJ = leAt b 0x12 1 ∧ rd t F.ID_PROTO_COLSY_MIN = leAt b 0x13 1
          ∧ rd t F.SEC_SVN_RUNNING = imageSvn b ∧ rd t F.SEC_SVN_FUSED = s.fuseSvn % 256
          ∧ counted s t 1
          ∧ RegsKept s t ([F.SEC_BOOT_STAGE, F.ID_FW_VER_MAJOR, F.ID_FW_VER_MINOR, F.ID_FW_VER_BUILD, F.ID_PROTO_SHOAVO_MAJ,
              F.ID_PROTO_SHOAVO_MIN, F.ID_PROTO_COLSY_MAJ, F.ID_PROTO_COLSY_MIN, F.SEC_SVN_RUNNING, F.SEC_SVN_FUSED, F.SEC_CNT_COUNT 1] ++ satTouched)
          ∧ t = { s with regs := t.regs, running := t.running, boot := t.boot, events := satOf s t, fired := t.fired })
      ∧ (∀ cause, imageCause b s.fuseSvn = some cause →
        ∃ t, exec .imageVerify s = .next t ∧ rd t F.SEC_BOOT_STAGE = 4 ∧ rd t F.SEC_BOOT_CAUSE = cause
          ∧ counted s t 1 ∧ counted s t 2
          ∧ RegsKept s t (F.SEC_BOOT_STAGE :: F.SEC_BOOT_CAUSE :: F.SEC_CNT_COUNT 1 :: F.SEC_CNT_COUNT 2 :: satTouched) ∧ OnlyRegsEvents s t)))
  ∧ (∀ s : State,
    let halted := fun (t : State) (cause : Nat) =>
        rd t F.SEC_BOOT_STAGE = 5 ∧ rd t F.SEC_BOOT_CAUSE = cause ∧ (∀ d, d < 8 → rd t (F.PWR_CL_STATE_DIE d) = 1)
          ∧ rd t F.PWR_UD_STATE_PARKED = 0xF ∧ OnlyRegs s t
          ∧ RegsKept s t (F.SEC_BOOT_STAGE :: F.SEC_BOOT_CAUSE :: F.PWR_UD_STATE_PARKED :: (List.range 8).map F.PWR_CL_STATE_DIE)
    (s.boot.verified = false ∨ s.boot.sections = true ∨ 4 ≤ rd s F.SEC_BOOT_STAGE → ∀ e, exec (.sectionsLoad e) s = .next s)
    ∧ (s.boot.verified = true → s.boot.sections = false → rd s F.SEC_BOOT_STAGE < 4 →
      exec (.sectionsLoad none) s = .next { s with boot := { s.boot with sections := true } }
      ∧ (∃ t, exec (.sectionsLoad (some .computeDie)) s = .next t ∧ halted t 6)
      ∧ (∃ t, exec (.sectionsLoad (some .updateDie)) s = .next t ∧ halted t 7)
      ∧ (∃ t, exec (.sectionsLoad (some .hub)) s = .next t ∧ halted t 9))
    ∧ (s.boot.sections = false ∨ s.boot.released = true ∨ 4 ≤ rd s F.SEC_BOOT_STAGE → exec .fabricRelease s = .next s)
    ∧ (s.boot.sections = true → s.boot.released = false → rd s F.SEC_BOOT_STAGE < 4 →
      ∃ t, exec .fabricRelease s = .next t ∧ t.boot = { s.boot with released := true, releasedAt := rd s F.TB_NOW_TIME }
        ∧ (∀ p, p < 16 → portState t p = (if portState s p = 0 ∧ rd s (F.FP_CFG_ENABLE p) = 1 then 1 else portState s p))
        ∧ RegsKept s t ((List.range 16).map F.FP_STAT_STATE) ∧ t = { s with regs := t.regs, events := satOf s t, fired := t.fired, boot := t.boot })
    ∧ (∀ hbm st pcs, s.boot.sections = false ∨ s.boot.dram = true ∨ 4 ≤ rd s F.SEC_BOOT_STAGE → exec (.dramTrainingDone hbm st pcs) s = .next s)
    ∧ (∀ (hbm : List (Fin 16)) (st : List (Fin 24)) (pcs : List (Fin 16 × Fin 32)), s.boot.sections = true → s.boot.dram = false →
        rd s F.SEC_BOOT_STAGE < 4 →
      (st ≠ [] → s.boot.released = false → ∃ t, exec (.dramTrainingDone hbm st pcs) s = .next t ∧ halted t 8)
      ∧ (st ≠ [] → s.boot.released = true → ∃ t, exec (.dramTrainingDone hbm st pcs) s = .next t ∧ rd t F.SEC_BOOT_STAGE = 5
          ∧ rd t F.SEC_BOOT_CAUSE = 8 ∧ (∀ d, d < 8 → rd t (F.PWR_CL_STATE_DIE d) = 1) ∧ rd t F.PWR_UD_STATE_PARKED = 0xF
          ∧ t.boot = { s.boot with released := false } ∧ (∀ p, p < 16 → portState t p = if portState s p = 7 then 7 else 0) ∧ MemKept s t)
      ∧ (st = [] → rd s F.ID_FLT_NEXT_NEXT < 16 →
        ∃ t, exec (.dramTrainingDone hbm st pcs) s = .next t ∧ t.boot = { s.boot with dram := true } ∧ rd t F.CMD_STAT_MIR_A = 1
          ∧ rd t F.CMD_STAT_MIR_B = 1 ∧ (∀ n, n < 24 → rd t (F.ST_STAT_TRAINED n) = 1)
          ∧ (∀ n : Fin 16, n ∉ hbm → rd t (F.HBM_STAT_TRAINED n.val) = 1) ∧ (∀ n ∈ hbm, rd t (F.HBM_STAT_FAILING n.val) = 1)
          ∧ (∀ e ∈ pcs, rd t (F.HBM_STAT_RET_VALID e.1.val) = 1)
          ∧ (∀ n pc, pcs = [(n, pc)] → rd s (F.HBM_STAT_RET_VALID n.val) ≠ 1 →
              rd t (F.HBM_STAT_RETIRED_PC n.val) = pc.val ∧ rd t (F.HBM_LIMIT_LIMIT n.val) = 0xAD39DB100)
          ∧ (∀ n pc, pcs = [(n, pc)] → rd s (F.HBM_STAT_RET_VALID n.val) = 1 → rd s (F.HBM_STAT_RETIRED_PC n.val) ≠ pc.val →
              rd t (F.HBM_STAT_FAILING n.val) = 1)
          ∧ (∀ n ∈ hbm, rd s (F.HBM_STAT_FAILING n.val) ≠ 1 → rd t F.ID_HEALTH_DEGRADED = 1 ∧ 0x5000 + n.val ∈ t.retired)
          ∧ (hbm = [] → pcs = [] → RegsKept s t (F.CMD_STAT_MIR_A :: F.CMD_STAT_MIR_B :: ((List.range 16).map F.HBM_STAT_TRAINED
              ++ (List.range 24).map F.ST_STAT_TRAINED)) ∧ t = { s with regs := t.regs, boot := t.boot })
          ∧ MemKept s t ∧ t.run = s.run ∧ t.prog = s.prog)))
  ∧ (∀ s : State,
    let still := s.run.isSome = true ∨ s.remaps = []
    (s.boot.sections = false ∨ s.boot.dram = false ∨ 4 ≤ rd s F.SEC_BOOT_STAGE ∨ rd s F.CMD_STAT_READY = 1 → exec .ready s = .next s)
    ∧ (s.boot.sections = true → s.boot.dram = true → rd s F.SEC_BOOT_STAGE < 4 → rd s F.CMD_STAT_READY ≠ 1 →
      ∃ t, exec .ready s = .next t ∧ rd t F.CMD_STAT_READY = 1 ∧ rd t F.SEC_BOOT_STAGE = 3
        ∧ (still → rd t F.SEC_BOOT_READY_MS = min ((rd s F.TB_NOW_TIME - s.boot.start) / 1000000) 4095)
        ∧ rd t F.CMD_STAT_STEP_STATE = (if s.run.isSome then 3 else if s.prog.isSome then 1 else 0) ∧ hubSrc 16 ∈ t.fired
        ∧ (rd s F.SEC_BOOT_WARM = 1 → t.ftabs = s.ftabs)
        ∧ (rd s F.SEC_BOOT_WARM ≠ 1 → ∀ p, (p < 7 → (mapFind t.ftabs p).map (fun q : FtPair => q.data) =
              some (libTable (2 * p + 1) (leNat s.running) ++ libTable (2 * p + 2) (leNat s.running)))
            ∧ (7 ≤ p → mapFind t.ftabs p = mapFind s.ftabs p))
        ∧ (s.run = none → t.remaps = []) ∧ t.run = s.run ∧ t.prog = s.prog ∧ t.journal = s.journal
        ∧ (still → RegsKept s t [F.CMD_STAT_READY, F.SEC_BOOT_STAGE, F.SEC_BOOT_READY_MS, F.CMD_STAT_STEP_STATE]
            ∧ t = { s with regs := t.regs, events := satOf s t, fired := t.fired, ftabs := t.ftabs })))
  ∧ (∀ s : State,
    let l := [F.HA_STAT_SPEED, F.HA_STAT_WIDTH, F.HA_STAT_FLIT, F.HA_STAT_CFG_READY, F.HA_STAT_BME, F.HA_STAT_IDE_IO, F.HA_STAT_IDE_CM,
        F.HC_IDE_CTL_PCRC_OFF, F.HC_IDE_STAT_RX, F.HC_IDE_STAT_TX, F.HV_MBOX_CMD_LEN, F.HV_MBOX_CMD_OPCODE]
    let decoder := fun (f : Fld) => 0x61200 * 8 ≤ f.at_ ∧ f.at_ < 0x61230 * 8
    (s.boot.perst = true → exec .perstAssert s = .next s)
    ∧ (s.boot.perst = false → ∃ t, exec .perstAssert s = .next t ∧ (∀ f ∈ l, rd t f = 0) ∧ (∀ f, decoder f → rd t f = rd State.reset f)
        ∧ (∀ f : Fld, ¬ decoder f → f.at_ ∉ l.map Fld.at_ → rd t f = rd s f)
        ∧ t = { s with regs := t.regs, biWait := [], ideKeys := [], ideNext := [], pci := {}, events := { s.events with masked := false },
                       boot := { s.boot with cxl := false, perst := true, perstAt := rd s F.TB_NOW_TIME } }))
  ∧ (∀ s : State,
    (s.powered = false ∨ s.boot.shut = true ∨ 4 ≤ rd s F.SEC_BOOT_STAGE ∨ rd s F.CMD_STAT_READY ≠ 1 ∨ s.boot.perst = false
        ∨ rd s F.TB_NOW_TIME < s.boot.perstAt + 100000 → exec .warmReset s = .next s)
    ∧ (s.powered = true → s.boot.shut = false → rd s F.SEC_BOOT_STAGE < 4 → rd s F.CMD_STAT_READY = 1 → s.boot.perst = true →
        s.boot.perstAt + 100000 ≤ rd s F.TB_NOW_TIME → (∀ e ∈ s.snapshot.regs, recorded e.1 = true) →
      ∃ t, exec .warmReset s = .next t ∧ rd t F.SEC_BOOT_STAGE = 0 ∧ rd t F.SEC_BOOT_WARM = 1 ∧ rd t F.CMD_STAT_READY = 0
        ∧ rd t F.TB_NOW_TIME = rd s F.TB_NOW_TIME ∧ rd t F.PWR_LIMIT_LIMIT = rd s F.PWR_LIMIT_LIMIT
        ∧ (∀ p, p < 16 → portState s p = 7 → portState t p = 7)
        ∧ (s.prog = none ∨ s.snapshot.amax = [] → ∀ k, (k < 0x200000000000 → memByte t.mem k = memByte s.mem k)
            ∧ (0x200000000000 ≤ k → memByte t.mem k = emptyByte))
        ∧ t.prog = s.prog ∧ t.run = warmRun s ∧ t.journal = s.journal.map warmCmd ∧ t.keySlots = s.keySlots ∧ t.staged = s.staged
        ∧ t.ceRows = s.ceRows ∧ t.softRows = s.softRows ∧ t.hardRows = s.hardRows ∧ t.ceTimes = s.ceTimes ∧ t.poison = s.poison
        ∧ t.retired = s.retired ∧ t.running = s.running ∧ t.flash = s.flash ∧ t.certs = s.certs ∧ t.fuseSvn = s.fuseSvn
        ∧ t.powered = true ∧ t.boot.rails = true ∧ t.boot.verified = false ∧ t.boot.start = rd s F.TB_NOW_TIME ∧ t.pending = s.pending))
end

