-- ==== Sys2Proof/Laws/Maps.lean ====
section
/-!
SUPPORT. Laws of finite maps: a value put is the value got, other keys keep theirs, and the canonical form is kept.
-/

namespace Sys2Proof.Machine

variable {α : Type}

@[simp] theorem mapGet_nil (d : α) (x : Nat) : mapGet d [] x = d := rfl

theorem mapGet_cons (d : α) (k : Nat) (v : α) (m : NMap α) (x : Nat) :
    mapGet d ((k, v) :: m) x = if k = x then v else mapGet d m x := rfl

@[simp] theorem mapGet_mapPut_same (d : α) (m : NMap α) (x : Nat) (a : α) : mapGet d (mapPut m x a) x = a := by
  induction m with
  | nil => simp [mapPut, mapGet]
  | cons e m ih =>
    obtain ⟨k, v⟩ := e
    simp only [mapPut]
    split
    · simp [mapGet, *]
    · split
      · simp [mapGet]
      · simp [mapGet, *]

theorem mapGet_mapPut_ne (d : α) (m : NMap α) {x y : Nat} (a : α) (h : y ≠ x) :
    mapGet d (mapPut m x a) y = mapGet d m y := by
  induction m with
  | nil => simp [mapPut, mapGet, h.symm]
  | cons e m ih =>
    obtain ⟨k, v⟩ := e
    simp only [mapPut]
    split
    · next hk => subst hk; simp [mapGet, h.symm]
    · split
      · simp [mapGet, h.symm]
      · simp [mapGet, ih]

@[simp] theorem mapGet_mapErase_same (d : α) (m : NMap α) (x : Nat) : mapGet d (mapErase m x) x = d := by
  induction m with
  | nil => rfl
  | cons e m ih =>
    obtain ⟨k, v⟩ := e
    simp only [mapErase]
    split
    · exact ih
    · next hk => simp [mapGet, hk, ih]

theorem mapGet_mapErase_ne (d : α) (m : NMap α) {x y : Nat} (h : y ≠ x) : mapGet d (mapErase m x) y = mapGet d m y := by
  induction m with
  | nil => rfl
  | cons e m ih =>
    obtain ⟨k, v⟩ := e
    simp only [mapErase]
    split
    · next hk => subst hk; simp [mapGet, h.symm, ih]
    · simp [mapGet, ih]

@[simp] theorem mapGet_mapSetD_same [DecidableEq α] (d : α) (m : NMap α) (x : Nat) (a : α) :
    mapGet d (mapSetD d m x a) x = a := by
  unfold mapSetD
  split
  · simp [*]
  · simp

theorem mapGet_mapSetD_ne [DecidableEq α] (d e : α) (m : NMap α) {x y : Nat} (a : α) (h : y ≠ x) :
    mapGet e (mapSetD d m x a) y = mapGet e m y := by
  unfold mapSetD
  split
  · exact mapGet_mapErase_ne e m h
  · exact mapGet_mapPut_ne e m a h

/-- Every key of a map lies above a bound. -/
def keysAbove (b : Nat) (m : NMap α) : Prop := ∀ e ∈ m, b < e.1

theorem keysRise_cons (k : Nat) (v : α) (m : NMap α) : keysRise ((k, v) :: m) = true ↔ keysAbove k m ∧ keysRise m = true := by
  induction m generalizing k v with
  | nil => simp [keysRise, keysAbove]
  | cons e m ih =>
    obtain ⟨l, w⟩ := e
    constructor
    · intro h
      simp only [keysRise, Bool.and_eq_true, decide_eq_true_eq] at h
      refine ⟨?_, h.2⟩
      intro e he
      rcases List.mem_cons.1 he with rfl | he
      · exact h.1
      · exact Nat.lt_trans h.1 (((ih l w).1 h.2).1 e he)
    · rintro ⟨h1, h2⟩
      simp only [keysRise, Bool.and_eq_true, decide_eq_true_eq]
      exact ⟨h1 _ (List.mem_cons_self ..), h2⟩

theorem keysAbove_mapErase {b : Nat} {m : NMap α} (x : Nat) (h : keysAbove b m) : keysAbove b (mapErase m x) := by
  induction m with
  | nil => exact h
  | cons e m ih =>
    obtain ⟨k, v⟩ := e
    have hm : keysAbove b m := fun e he => h e (List.mem_cons_of_mem _ he)
    simp only [mapErase]
    split
    · exact ih hm
    · intro e he
      rcases List.mem_cons.1 he with rfl | he
      · exact h _ (List.mem_cons_self ..)
      · exact ih hm e he

theorem keysAbove_mapPut {b : Nat} {m : NMap α} {x : Nat} (a : α) (hx : b < x) (h : keysAbove b m) :
    keysAbove b (mapPut m x a) := by
  induction m with
  | nil =>
    intro e he
    simp only [mapPut, List.mem_singleton] at he
    subst he
    exact hx
  | cons e m ih =>
    obtain ⟨k, v⟩ := e
    have hm : keysAbove b m := fun e he => h e (List.mem_cons_of_mem _ he)
    simp only [mapPut]
    split
    · intro e he
      rcases List.mem_cons.1 he with rfl | he
      · exact h (k, v) (List.mem_cons_self ..)
      · exact hm e he
    · split
      · intro e he
        rcases List.mem_cons.1 he with rfl | he
        · exact hx
        · exact h e he
      · intro e he
        rcases List.mem_cons.1 he with rfl | he
        · exact h _ (List.mem_cons_self ..)
        · exact ih hm e he

/-- Dropping a key keeps the order of the keys. -/
theorem keysRise_mapErase {m : NMap α} (x : Nat) (h : keysRise m = true) : keysRise (mapErase m x) = true := by
  induction m with
  | nil => rfl
  | cons e m ih =>
    obtain ⟨k, v⟩ := e
    have h' := (keysRise_cons k v m).1 h
    simp only [mapErase]
    split
    · exact ih h'.2
    · exact (keysRise_cons _ _ _).2 ⟨keysAbove_mapErase x h'.1, ih h'.2⟩

/-- Putting a value keeps the order of the keys. -/
theorem keysRise_mapPut {m : NMap α} (x : Nat) (a : α) (h : keysRise m = true) : keysRise (mapPut m x a) = true := by
  induction m with
  | nil => rfl
  | cons e m ih =>
    obtain ⟨k, v⟩ := e
    have h' := (keysRise_cons k v m).1 h
    simp only [mapPut]
    split
    · exact (keysRise_cons _ _ _).2 h'
    · split
      · next hx =>
        refine (keysRise_cons _ _ _).2 ⟨?_, h⟩
        intro e he
        rcases List.mem_cons.1 he with rfl | he
        · exact hx
        · exact Nat.lt_trans hx (h'.1 e he)
      · next hk hx => exact (keysRise_cons _ _ _).2 ⟨keysAbove_mapPut a (by omega) h'.1, ih h'.2⟩

/-- Setting a value keeps the order of the keys. -/
theorem keysRise_mapSetD [DecidableEq α] (d : α) {m : NMap α} (x : Nat) (a : α) (h : keysRise m = true) :
    keysRise (mapSetD d m x a) = true := by
  unfold mapSetD
  split
  · exact keysRise_mapErase x h
  · exact keysRise_mapPut x a h

theorem canonical_iff [DecidableEq α] (d : α) (m : NMap α) :
    canonical d m = true ↔ keysRise m = true ∧ ∀ e ∈ m, e.2 ≠ d := by
  simp [canonical]

theorem mem_mapErase {m : NMap α} {x : Nat} {e : Nat × α} (h : e ∈ mapErase m x) : e ∈ m := by
  induction m with
  | nil => exact h
  | cons f m ih =>
    obtain ⟨k, v⟩ := f
    simp only [mapErase] at h
    split at h
    · exact List.mem_cons_of_mem _ (ih h)
    · rcases List.mem_cons.1 h with rfl | h
      · exact List.mem_cons_self ..
      · exact List.mem_cons_of_mem _ (ih h)

theorem mem_mapPut {m : NMap α} {x : Nat} {a : α} {e : Nat × α} (h : e ∈ mapPut m x a) : e.2 = a ∨ e ∈ m := by
  induction m with
  | nil =>
    simp only [mapPut, List.mem_singleton] at h
    exact .inl (by rw [h])
  | cons f m ih =>
    obtain ⟨k, v⟩ := f
    simp only [mapPut] at h
    split at h
    · rcases List.mem_cons.1 h with rfl | h
      · exact .inl rfl
      · exact .inr (List.mem_cons_of_mem _ h)
    · split at h
      · rcases List.mem_cons.1 h with rfl | h
        · exact .inl rfl
        · exact .inr h
      · rcases List.mem_cons.1 h with rfl | h
        · exact .inr (List.mem_cons_self ..)
        · exact (ih h).imp id (List.mem_cons_of_mem _)

/-- Setting a value keeps the canonical form. -/
theorem canonical_mapSetD [DecidableEq α] (d : α) {m : NMap α} (x : Nat) (a : α) (h : canonical d m = true) :
    canonical d (mapSetD d m x a) = true := by
  have h' := (canonical_iff d m).1 h
  refine (canonical_iff d _).2 ⟨keysRise_mapSetD d x a h'.1, ?_⟩
  intro e he
  unfold mapSetD at he
  split at he
  · exact h'.2 e (mem_mapErase he)
  · next ha =>
    rcases mem_mapPut he with he | he
    · rw [he]; exact ha
    · exact h'.2 e he

end Sys2Proof.Machine
end

