-- ==== Sys2Proof/Laws/State.lean ====
section
/-!
SUPPORT. One lemma per field of State for each of the shared updates: a register written, a core, a cluster replaced, an event input raised.
-/

namespace Sys2Proof.Machine

open Sys2Proof

section updates

variable (s : State)

@[simp] theorem wr_latches (f : Fld) (v : Nat) : (wr s f v).latches = s.latches := rfl
@[simp] theorem wr_readout (f : Fld) (v : Nat) : (wr s f v).readout = s.readout := rfl
@[simp] theorem wr_mem (f : Fld) (v : Nat) : (wr s f v).mem = s.mem := rfl
@[simp] theorem wr_poison (f : Fld) (v : Nat) : (wr s f v).poison = s.poison := rfl
@[simp] theorem wr_lineKeys (f : Fld) (v : Nat) : (wr s f v).lineKeys = s.lineKeys := rfl
@[simp] theorem wr_free (f : Fld) (v : Nat) : (wr s f v).free = s.free := rfl
@[simp] theorem wr_fired (f : Fld) (v : Nat) : (wr s f v).fired = s.fired := rfl
@[simp] theorem wr_cores (f : Fld) (v : Nat) : (wr s f v).cores = s.cores := rfl
@[simp] theorem wr_clusters (f : Fld) (v : Nat) : (wr s f v).clusters = s.clusters := rfl
@[simp] theorem wr_prog (f : Fld) (v : Nat) : (wr s f v).prog = s.prog := rfl
@[simp] theorem wr_pair (f : Fld) (v : Nat) : (wr s f v).pair = s.pair := rfl
@[simp] theorem wr_keySlots (f : Fld) (v : Nat) : (wr s f v).keySlots = s.keySlots := rfl
@[simp] theorem wr_posts (f : Fld) (v : Nat) : (wr s f v).posts = s.posts := rfl
@[simp] theorem wr_stallClock (f : Fld) (v : Nat) : (wr s f v).stallClock = s.stallClock := rfl
@[simp] theorem wr_reporting (f : Fld) (v : Nat) : (wr s f v).reporting = s.reporting := rfl
@[simp] theorem wr_ports (f : Fld) (v : Nat) : (wr s f v).ports = s.ports := rfl
@[simp] theorem wr_wire (f : Fld) (v : Nat) : (wr s f v).wire = s.wire := rfl
@[simp] theorem wr_groups (f : Fld) (v : Nat) : (wr s f v).groups = s.groups := rfl
@[simp] theorem wr_bindRec (f : Fld) (v : Nat) : (wr s f v).bindRec = s.bindRec := rfl
@[simp] theorem wr_features (f : Fld) (v : Nat) : (wr s f v).features = s.features := rfl
@[simp] theorem wr_tags (f : Fld) (v : Nat) : (wr s f v).tags = s.tags := rfl
@[simp] theorem wr_inbox (f : Fld) (v : Nat) : (wr s f v).inbox = s.inbox := rfl
@[simp] theorem wr_hurdleBits (f : Fld) (v : Nat) : (wr s f v).hurdleBits = s.hurdleBits := rfl
@[simp] theorem wr_journal (f : Fld) (v : Nat) : (wr s f v).journal = s.journal := rfl
@[simp] theorem wr_owed (f : Fld) (v : Nat) : (wr s f v).owed = s.owed := rfl
@[simp] theorem wr_lastRing (f : Fld) (v : Nat) : (wr s f v).lastRing = s.lastRing := rfl
@[simp] theorem wr_hostOut (f : Fld) (v : Nat) : (wr s f v).hostOut = s.hostOut := rfl
@[simp] theorem wr_msixOut (f : Fld) (v : Nat) : (wr s f v).msixOut = s.msixOut := rfl
@[simp] theorem wr_ctrlIn (f : Fld) (v : Nat) : (wr s f v).ctrlIn = s.ctrlIn := rfl
@[simp] theorem wr_run (f : Fld) (v : Nat) : (wr s f v).run = s.run := rfl
@[simp] theorem wr_firstRun (f : Fld) (v : Nat) : (wr s f v).firstRun = s.firstRun := rfl
@[simp] theorem wr_failedStep (f : Fld) (v : Nat) : (wr s f v).failedStep = s.failedStep := rfl
@[simp] theorem wr_commits (f : Fld) (v : Nat) : (wr s f v).commits = s.commits := rfl
@[simp] theorem wr_replay (f : Fld) (v : Nat) : (wr s f v).replay = s.replay := rfl
@[simp] theorem wr_snapshot (f : Fld) (v : Nat) : (wr s f v).snapshot = s.snapshot := rfl
@[simp] theorem wr_faults (f : Fld) (v : Nat) : (wr s f v).faults = s.faults := rfl
@[simp] theorem wr_ueTimes (f : Fld) (v : Nat) : (wr s f v).ueTimes = s.ueTimes := rfl
@[simp] theorem wr_ceTimes (f : Fld) (v : Nat) : (wr s f v).ceTimes = s.ceTimes := rfl
@[simp] theorem wr_retired (f : Fld) (v : Nat) : (wr s f v).retired = s.retired := rfl
@[simp] theorem wr_frozen (f : Fld) (v : Nat) : (wr s f v).frozen = s.frozen := rfl
@[simp] theorem wr_remaps (f : Fld) (v : Nat) : (wr s f v).remaps = s.remaps := rfl
@[simp] theorem wr_storeErrs (f : Fld) (v : Nat) : (wr s f v).storeErrs = s.storeErrs := rfl
@[simp] theorem wr_ftabs (f : Fld) (v : Nat) : (wr s f v).ftabs = s.ftabs := rfl
@[simp] theorem wr_ftPend (f : Fld) (v : Nat) : (wr s f v).ftPend = s.ftPend := rfl
@[simp] theorem wr_upd (f : Fld) (v : Nat) : (wr s f v).upd = s.upd := rfl
@[simp] theorem wr_pageDone (f : Fld) (v : Nat) : (wr s f v).pageDone = s.pageDone := rfl
@[simp] theorem wr_relay (f : Fld) (v : Nat) : (wr s f v).relay = s.relay := rfl
@[simp] theorem wr_uds (f : Fld) (v : Nat) : (wr s f v).uds = s.uds := rfl
@[simp] theorem wr_curves (f : Fld) (v : Nat) : (wr s f v).curves = s.curves := rfl
@[simp] theorem wr_normDone (f : Fld) (v : Nat) : (wr s f v).normDone = s.normDone := rfl
@[simp] theorem wr_updPend (f : Fld) (v : Nat) : (wr s f v).updPend = s.updPend := rfl
@[simp] theorem wr_partCmds (f : Fld) (v : Nat) : (wr s f v).partCmds = s.partCmds := rfl
@[simp] theorem wr_powered (f : Fld) (v : Nat) : (wr s f v).powered = s.powered := rfl
@[simp] theorem wr_staged (f : Fld) (v : Nat) : (wr s f v).staged = s.staged := rfl
@[simp] theorem wr_tbHalf (f : Fld) (v : Nat) : (wr s f v).tbHalf = s.tbHalf := rfl
@[simp] theorem wr_boards (f : Fld) (v : Nat) : (wr s f v).boards = s.boards := rfl
@[simp] theorem wr_boardRemoved (f : Fld) (v : Nat) : (wr s f v).boardRemoved = s.boardRemoved := rfl
@[simp] theorem wr_boardFails (f : Fld) (v : Nat) : (wr s f v).boardFails = s.boardFails := rfl
@[simp] theorem wr_ucie (f : Fld) (v : Nat) : (wr s f v).ucie = s.ucie := rfl
@[simp] theorem wr_ucieDis (f : Fld) (v : Nat) : (wr s f v).ucieDis = s.ucieDis := rfl
@[simp] theorem wr_portsHeld (f : Fld) (v : Nat) : (wr s f v).portsHeld = s.portsHeld := rfl
@[simp] theorem wr_ceRows (f : Fld) (v : Nat) : (wr s f v).ceRows = s.ceRows := rfl
@[simp] theorem wr_softRows (f : Fld) (v : Nat) : (wr s f v).softRows = s.softRows := rfl
@[simp] theorem wr_hardRows (f : Fld) (v : Nat) : (wr s f v).hardRows = s.hardRows := rfl
@[simp] theorem wr_udFault (f : Fld) (v : Nat) : (wr s f v).udFault = s.udFault := rfl
@[simp] theorem wr_biWait (f : Fld) (v : Nat) : (wr s f v).biWait = s.biWait := rfl
@[simp] theorem wr_pci (f : Fld) (v : Nat) : (wr s f v).pci = s.pci := rfl
@[simp] theorem wr_rollout (f : Fld) (v : Nat) : (wr s f v).rollout = s.rollout := rfl
@[simp] theorem wr_events (f : Fld) (v : Nat) : (wr s f v).events = s.events := rfl
@[simp] theorem wr_boot (f : Fld) (v : Nat) : (wr s f v).boot = s.boot := rfl
@[simp] theorem wr_power (f : Fld) (v : Nat) : (wr s f v).power = s.power := rfl
@[simp] theorem wr_fuseSvn (f : Fld) (v : Nat) : (wr s f v).fuseSvn = s.fuseSvn := rfl
@[simp] theorem wr_flash (f : Fld) (v : Nat) : (wr s f v).flash = s.flash := rfl
@[simp] theorem wr_running (f : Fld) (v : Nat) : (wr s f v).running = s.running := rfl
@[simp] theorem wr_recover (f : Fld) (v : Nat) : (wr s f v).recover = s.recover := rfl
@[simp] theorem wr_certs (f : Fld) (v : Nat) : (wr s f v).certs = s.certs := rfl
@[simp] theorem wr_sessions (f : Fld) (v : Nat) : (wr s f v).sessions = s.sessions := rfl
@[simp] theorem wr_ideKeys (f : Fld) (v : Nat) : (wr s f v).ideKeys = s.ideKeys := rfl
@[simp] theorem wr_ideNext (f : Fld) (v : Nat) : (wr s f v).ideNext = s.ideNext := rfl
@[simp] theorem wr_sigs (f : Fld) (v : Nat) : (wr s f v).sigs = s.sigs := rfl
@[simp] theorem wr_replies (f : Fld) (v : Nat) : (wr s f v).replies = s.replies := rfl
@[simp] theorem wr_dynAddr (f : Fld) (v : Nat) : (wr s f v).dynAddr = s.dynAddr := rfl
@[simp] theorem wr_pending (f : Fld) (v : Nat) : (wr s f v).pending = s.pending := rfl

@[simp] theorem setCore_regs (c : CoreId) (x : CoreSt) : (setCore s c x).regs = s.regs := rfl
@[simp] theorem setCore_latches (c : CoreId) (x : CoreSt) : (setCore s c x).latches = s.latches := rfl
@[simp] theorem setCore_readout (c : CoreId) (x : CoreSt) : (setCore s c x).readout = s.readout := rfl
@[simp] theorem setCore_mem (c : CoreId) (x : CoreSt) : (setCore s c x).mem = s.mem := rfl
@[simp] theorem setCore_poison (c : CoreId) (x : CoreSt) : (setCore s c x).poison = s.poison := rfl
@[simp] theorem setCore_lineKeys (c : CoreId) (x : CoreSt) : (setCore s c x).lineKeys = s.lineKeys := rfl
@[simp] theorem setCore_free (c : CoreId) (x : CoreSt) : (setCore s c x).free = s.free := rfl
@[simp] theorem setCore_fired (c : CoreId) (x : CoreSt) : (setCore s c x).fired = s.fired := rfl
@[simp] theorem setCore_clusters (c : CoreId) (x : CoreSt) : (setCore s c x).clusters = s.clusters := rfl
@[simp] theorem setCore_prog (c : CoreId) (x : CoreSt) : (setCore s c x).prog = s.prog := rfl
@[simp] theorem setCore_pair (c : CoreId) (x : CoreSt) : (setCore s c x).pair = s.pair := rfl
@[simp] theorem setCore_keySlots (c : CoreId) (x : CoreSt) : (setCore s c x).keySlots = s.keySlots := rfl
@[simp] theorem setCore_posts (c : CoreId) (x : CoreSt) : (setCore s c x).posts = s.posts := rfl
@[simp] theorem setCore_stallClock (c : CoreId) (x : CoreSt) : (setCore s c x).stallClock = s.stallClock := rfl
@[simp] theorem setCore_reporting (c : CoreId) (x : CoreSt) : (setCore s c x).reporting = s.reporting := rfl
@[simp] theorem setCore_ports (c : CoreId) (x : CoreSt) : (setCore s c x).ports = s.ports := rfl
@[simp] theorem setCore_wire (c : CoreId) (x : CoreSt) : (setCore s c x).wire = s.wire := rfl
@[simp] theorem setCore_groups (c : CoreId) (x : CoreSt) : (setCore s c x).groups = s.groups := rfl
@[simp] theorem setCore_bindRec (c : CoreId) (x : CoreSt) : (setCore s c x).bindRec = s.bindRec := rfl
@[simp] theorem setCore_features (c : CoreId) (x : CoreSt) : (setCore s c x).features = s.features := rfl
@[simp] theorem setCore_tags (c : CoreId) (x : CoreSt) : (setCore s c x).tags = s.tags := rfl
@[simp] theorem setCore_inbox (c : CoreId) (x : CoreSt) : (setCore s c x).inbox = s.inbox := rfl
@[simp] theorem setCore_hurdleBits (c : CoreId) (x : CoreSt) : (setCore s c x).hurdleBits = s.hurdleBits := rfl
@[simp] theorem setCore_journal (c : CoreId) (x : CoreSt) : (setCore s c x).journal = s.journal := rfl
@[simp] theorem setCore_owed (c : CoreId) (x : CoreSt) : (setCore s c x).owed = s.owed := rfl
@[simp] theorem setCore_lastRing (c : CoreId) (x : CoreSt) : (setCore s c x).lastRing = s.lastRing := rfl
@[simp] theorem setCore_hostOut (c : CoreId) (x : CoreSt) : (setCore s c x).hostOut = s.hostOut := rfl
@[simp] theorem setCore_msixOut (c : CoreId) (x : CoreSt) : (setCore s c x).msixOut = s.msixOut := rfl
@[simp] theorem setCore_ctrlIn (c : CoreId) (x : CoreSt) : (setCore s c x).ctrlIn = s.ctrlIn := rfl
@[simp] theorem setCore_run (c : CoreId) (x : CoreSt) : (setCore s c x).run = s.run := rfl
@[simp] theorem setCore_firstRun (c : CoreId) (x : CoreSt) : (setCore s c x).firstRun = s.firstRun := rfl
@[simp] theorem setCore_failedStep (c : CoreId) (x : CoreSt) : (setCore s c x).failedStep = s.failedStep := rfl
@[simp] theorem setCore_commits (c : CoreId) (x : CoreSt) : (setCore s c x).commits = s.commits := rfl
@[simp] theorem setCore_replay (c : CoreId) (x : CoreSt) : (setCore s c x).replay = s.replay := rfl
@[simp] theorem setCore_snapshot (c : CoreId) (x : CoreSt) : (setCore s c x).snapshot = s.snapshot := rfl
@[simp] theorem setCore_faults (c : CoreId) (x : CoreSt) : (setCore s c x).faults = s.faults := rfl
@[simp] theorem setCore_ueTimes (c : CoreId) (x : CoreSt) : (setCore s c x).ueTimes = s.ueTimes := rfl
@[simp] theorem setCore_ceTimes (c : CoreId) (x : CoreSt) : (setCore s c x).ceTimes = s.ceTimes := rfl
@[simp] theorem setCore_retired (c : CoreId) (x : CoreSt) : (setCore s c x).retired = s.retired := rfl
@[simp] theorem setCore_frozen (c : CoreId) (x : CoreSt) : (setCore s c x).frozen = s.frozen := rfl
@[simp] theorem setCore_remaps (c : CoreId) (x : CoreSt) : (setCore s c x).remaps = s.remaps := rfl
@[simp] theorem setCore_storeErrs (c : CoreId) (x : CoreSt) : (setCore s c x).storeErrs = s.storeErrs := rfl
@[simp] theorem setCore_ftabs (c : CoreId) (x : CoreSt) : (setCore s c x).ftabs = s.ftabs := rfl
@[simp] theorem setCore_ftPend (c : CoreId) (x : CoreSt) : (setCore s c x).ftPend = s.ftPend := rfl
@[simp] theorem setCore_upd (c : CoreId) (x : CoreSt) : (setCore s c x).upd = s.upd := rfl
@[simp] theorem setCore_pageDone (c : CoreId) (x : CoreSt) : (setCore s c x).pageDone = s.pageDone := rfl
@[simp] theorem setCore_relay (c : CoreId) (x : CoreSt) : (setCore s c x).relay = s.relay := rfl
@[simp] theorem setCore_uds (c : CoreId) (x : CoreSt) : (setCore s c x).uds = s.uds := rfl
@[simp] theorem setCore_curves (c : CoreId) (x : CoreSt) : (setCore s c x).curves = s.curves := rfl
@[simp] theorem setCore_normDone (c : CoreId) (x : CoreSt) : (setCore s c x).normDone = s.normDone := rfl
@[simp] theorem setCore_updPend (c : CoreId) (x : CoreSt) : (setCore s c x).updPend = s.updPend := rfl
@[simp] theorem setCore_partCmds (c : CoreId) (x : CoreSt) : (setCore s c x).partCmds = s.partCmds := rfl
@[simp] theorem setCore_powered (c : CoreId) (x : CoreSt) : (setCore s c x).powered = s.powered := rfl
@[simp] theorem setCore_staged (c : CoreId) (x : CoreSt) : (setCore s c x).staged = s.staged := rfl
@[simp] theorem setCore_tbHalf (c : CoreId) (x : CoreSt) : (setCore s c x).tbHalf = s.tbHalf := rfl
@[simp] theorem setCore_boards (c : CoreId) (x : CoreSt) : (setCore s c x).boards = s.boards := rfl
@[simp] theorem setCore_boardRemoved (c : CoreId) (x : CoreSt) : (setCore s c x).boardRemoved = s.boardRemoved := rfl
@[simp] theorem setCore_boardFails (c : CoreId) (x : CoreSt) : (setCore s c x).boardFails = s.boardFails := rfl
@[simp] theorem setCore_ucie (c : CoreId) (x : CoreSt) : (setCore s c x).ucie = s.ucie := rfl
@[simp] theorem setCore_ucieDis (c : CoreId) (x : CoreSt) : (setCore s c x).ucieDis = s.ucieDis := rfl
@[simp] theorem setCore_portsHeld (c : CoreId) (x : CoreSt) : (setCore s c x).portsHeld = s.portsHeld := rfl
@[simp] theorem setCore_ceRows (c : CoreId) (x : CoreSt) : (setCore s c x).ceRows = s.ceRows := rfl
@[simp] theorem setCore_softRows (c : CoreId) (x : CoreSt) : (setCore s c x).softRows = s.softRows := rfl
@[simp] theorem setCore_hardRows (c : CoreId) (x : CoreSt) : (setCore s c x).hardRows = s.hardRows := rfl
@[simp] theorem setCore_udFault (c : CoreId) (x : CoreSt) : (setCore s c x).udFault = s.udFault := rfl
@[simp] theorem setCore_biWait (c : CoreId) (x : CoreSt) : (setCore s c x).biWait = s.biWait := rfl
@[simp] theorem setCore_pci (c : CoreId) (x : CoreSt) : (setCore s c x).pci = s.pci := rfl
@[simp] theorem setCore_rollout (c : CoreId) (x : CoreSt) : (setCore s c x).rollout = s.rollout := rfl
@[simp] theorem setCore_events (c : CoreId) (x : CoreSt) : (setCore s c x).events = s.events := rfl
@[simp] theorem setCore_boot (c : CoreId) (x : CoreSt) : (setCore s c x).boot = s.boot := rfl
@[simp] theorem setCore_power (c : CoreId) (x : CoreSt) : (setCore s c x).power = s.power := rfl
@[simp] theorem setCore_fuseSvn (c : CoreId) (x : CoreSt) : (setCore s c x).fuseSvn = s.fuseSvn := rfl
@[simp] theorem setCore_flash (c : CoreId) (x : CoreSt) : (setCore s c x).flash = s.flash := rfl
@[simp] theorem setCore_running (c : CoreId) (x : CoreSt) : (setCore s c x).running = s.running := rfl
@[simp] theorem setCore_recover (c : CoreId) (x : CoreSt) : (setCore s c x).recover = s.recover := rfl
@[simp] theorem setCore_certs (c : CoreId) (x : CoreSt) : (setCore s c x).certs = s.certs := rfl
@[simp] theorem setCore_sessions (c : CoreId) (x : CoreSt) : (setCore s c x).sessions = s.sessions := rfl
@[simp] theorem setCore_ideKeys (c : CoreId) (x : CoreSt) : (setCore s c x).ideKeys = s.ideKeys := rfl
@[simp] theorem setCore_ideNext (c : CoreId) (x : CoreSt) : (setCore s c x).ideNext = s.ideNext := rfl
@[simp] theorem setCore_sigs (c : CoreId) (x : CoreSt) : (setCore s c x).sigs = s.sigs := rfl
@[simp] theorem setCore_replies (c : CoreId) (x : CoreSt) : (setCore s c x).replies = s.replies := rfl
@[simp] theorem setCore_dynAddr (c : CoreId) (x : CoreSt) : (setCore s c x).dynAddr = s.dynAddr := rfl
@[simp] theorem setCore_pending (c : CoreId) (x : CoreSt) : (setCore s c x).pending = s.pending := rfl

@[simp] theorem setCluster_regs (k : ClusterId) (x : ClusterSt) : (setCluster s k x).regs = s.regs := rfl
@[simp] theorem setCluster_latches (k : ClusterId) (x : ClusterSt) : (setCluster s k x).latches = s.latches := rfl
@[simp] theorem setCluster_readout (k : ClusterId) (x : ClusterSt) : (setCluster s k x).readout = s.readout := rfl
@[simp] theorem setCluster_mem (k : ClusterId) (x : ClusterSt) : (setCluster s k x).mem = s.mem := rfl
@[simp] theorem setCluster_poison (k : ClusterId) (x : ClusterSt) : (setCluster s k x).poison = s.poison := rfl
@[simp] theorem setCluster_lineKeys (k : ClusterId) (x : ClusterSt) : (setCluster s k x).lineKeys = s.lineKeys := rfl
@[simp] theorem setCluster_free (k : ClusterId) (x : ClusterSt) : (setCluster s k x).free = s.free := rfl
@[simp] theorem setCluster_fired (k : ClusterId) (x : ClusterSt) : (setCluster s k x).fired = s.fired := rfl
@[simp] theorem setCluster_cores (k : ClusterId) (x : ClusterSt) : (setCluster s k x).cores = s.cores := rfl
@[simp] theorem setCluster_prog (k : ClusterId) (x : ClusterSt) : (setCluster s k x).prog = s.prog := rfl
@[simp] theorem setCluster_pair (k : ClusterId) (x : ClusterSt) : (setCluster s k x).pair = s.pair := rfl
@[simp] theorem setCluster_keySlots (k : ClusterId) (x : ClusterSt) : (setCluster s k x).keySlots = s.keySlots := rfl
@[simp] theorem setCluster_posts (k : ClusterId) (x : ClusterSt) : (setCluster s k x).posts = s.posts := rfl
@[simp] theorem setCluster_stallClock (k : ClusterId) (x : ClusterSt) : (setCluster s k x).stallClock = s.stallClock := rfl
@[simp] theorem setCluster_reporting (k : ClusterId) (x : ClusterSt) : (setCluster s k x).reporting = s.reporting := rfl
@[simp] theorem setCluster_ports (k : ClusterId) (x : ClusterSt) : (setCluster s k x).ports = s.ports := rfl
@[simp] theorem setCluster_wire (k : ClusterId) (x : ClusterSt) : (setCluster s k x).wire = s.wire := rfl
@[simp] theorem setCluster_groups (k : ClusterId) (x : ClusterSt) : (setCluster s k x).groups = s.groups := rfl
@[simp] theorem setCluster_bindRec (k : ClusterId) (x : ClusterSt) : (setCluster s k x).bindRec = s.bindRec := rfl
@[simp] theorem setCluster_features (k : ClusterId) (x : ClusterSt) : (setCluster s k x).features = s.features := rfl
@[simp] theorem setCluster_tags (k : ClusterId) (x : ClusterSt) : (setCluster s k x).tags = s.tags := rfl
@[simp] theorem setCluster_inbox (k : ClusterId) (x : ClusterSt) : (setCluster s k x).inbox = s.inbox := rfl
@[simp] theorem setCluster_hurdleBits (k : ClusterId) (x : ClusterSt) : (setCluster s k x).hurdleBits = s.hurdleBits := rfl
@[simp] theorem setCluster_journal (k : ClusterId) (x : ClusterSt) : (setCluster s k x).journal = s.journal := rfl
@[simp] theorem setCluster_owed (k : ClusterId) (x : ClusterSt) : (setCluster s k x).owed = s.owed := rfl
@[simp] theorem setCluster_lastRing (k : ClusterId) (x : ClusterSt) : (setCluster s k x).lastRing = s.lastRing := rfl
@[simp] theorem setCluster_hostOut (k : ClusterId) (x : ClusterSt) : (setCluster s k x).hostOut = s.hostOut := rfl
@[simp] theorem setCluster_msixOut (k : ClusterId) (x : ClusterSt) : (setCluster s k x).msixOut = s.msixOut := rfl
@[simp] theorem setCluster_ctrlIn (k : ClusterId) (x : ClusterSt) : (setCluster s k x).ctrlIn = s.ctrlIn := rfl
@[simp] theorem setCluster_run (k : ClusterId) (x : ClusterSt) : (setCluster s k x).run = s.run := rfl
@[simp] theorem setCluster_firstRun (k : ClusterId) (x : ClusterSt) : (setCluster s k x).firstRun = s.firstRun := rfl
@[simp] theorem setCluster_failedStep (k : ClusterId) (x : ClusterSt) : (setCluster s k x).failedStep = s.failedStep := rfl
@[simp] theorem setCluster_commits (k : ClusterId) (x : ClusterSt) : (setCluster s k x).commits = s.commits := rfl
@[simp] theorem setCluster_replay (k : ClusterId) (x : ClusterSt) : (setCluster s k x).replay = s.replay := rfl
@[simp] theorem setCluster_snapshot (k : ClusterId) (x : ClusterSt) : (setCluster s k x).snapshot = s.snapshot := rfl
@[simp] theorem setCluster_faults (k : ClusterId) (x : ClusterSt) : (setCluster s k x).faults = s.faults := rfl
@[simp] theorem setCluster_ueTimes (k : ClusterId) (x : ClusterSt) : (setCluster s k x).ueTimes = s.ueTimes := rfl
@[simp] theorem setCluster_ceTimes (k : ClusterId) (x : ClusterSt) : (setCluster s k x).ceTimes = s.ceTimes := rfl
@[simp] theorem setCluster_retired (k : ClusterId) (x : ClusterSt) : (setCluster s k x).retired = s.retired := rfl
@[simp] theorem setCluster_frozen (k : ClusterId) (x : ClusterSt) : (setCluster s k x).frozen = s.frozen := rfl
@[simp] theorem setCluster_remaps (k : ClusterId) (x : ClusterSt) : (setCluster s k x).remaps = s.remaps := rfl
@[simp] theorem setCluster_storeErrs (k : ClusterId) (x : ClusterSt) : (setCluster s k x).storeErrs = s.storeErrs := rfl
@[simp] theorem setCluster_ftabs (k : ClusterId) (x : ClusterSt) : (setCluster s k x).ftabs = s.ftabs := rfl
@[simp] theorem setCluster_ftPend (k : ClusterId) (x : ClusterSt) : (setCluster s k x).ftPend = s.ftPend := rfl
@[simp] theorem setCluster_upd (k : ClusterId) (x : ClusterSt) : (setCluster s k x).upd = s.upd := rfl
@[simp] theorem setCluster_pageDone (k : ClusterId) (x : ClusterSt) : (setCluster s k x).pageDone = s.pageDone := rfl
@[simp] theorem setCluster_relay (k : ClusterId) (x : ClusterSt) : (setCluster s k x).relay = s.relay := rfl
@[simp] theorem setCluster_uds (k : ClusterId) (x : ClusterSt) : (setCluster s k x).uds = s.uds := rfl
@[simp] theorem setCluster_curves (k : ClusterId) (x : ClusterSt) : (setCluster s k x).curves = s.curves := rfl
@[simp] theorem setCluster_normDone (k : ClusterId) (x : ClusterSt) : (setCluster s k x).normDone = s.normDone := rfl
@[simp] theorem setCluster_updPend (k : ClusterId) (x : ClusterSt) : (setCluster s k x).updPend = s.updPend := rfl
@[simp] theorem setCluster_partCmds (k : ClusterId) (x : ClusterSt) : (setCluster s k x).partCmds = s.partCmds := rfl
@[simp] theorem setCluster_powered (k : ClusterId) (x : ClusterSt) : (setCluster s k x).powered = s.powered := rfl
@[simp] theorem setCluster_staged (k : ClusterId) (x : ClusterSt) : (setCluster s k x).staged = s.staged := rfl
@[simp] theorem setCluster_tbHalf (k : ClusterId) (x : ClusterSt) : (setCluster s k x).tbHalf = s.tbHalf := rfl
@[simp] theorem setCluster_boards (k : ClusterId) (x : ClusterSt) : (setCluster s k x).boards = s.boards := rfl
@[simp] theorem setCluster_boardRemoved (k : ClusterId) (x : ClusterSt) : (setCluster s k x).boardRemoved = s.boardRemoved := rfl
@[simp] theorem setCluster_boardFails (k : ClusterId) (x : ClusterSt) : (setCluster s k x).boardFails = s.boardFails := rfl
@[simp] theorem setCluster_ucie (k : ClusterId) (x : ClusterSt) : (setCluster s k x).ucie = s.ucie := rfl
@[simp] theorem setCluster_ucieDis (k : ClusterId) (x : ClusterSt) : (setCluster s k x).ucieDis = s.ucieDis := rfl
@[simp] theorem setCluster_portsHeld (k : ClusterId) (x : ClusterSt) : (setCluster s k x).portsHeld = s.portsHeld := rfl
@[simp] theorem setCluster_ceRows (k : ClusterId) (x : ClusterSt) : (setCluster s k x).ceRows = s.ceRows := rfl
@[simp] theorem setCluster_softRows (k : ClusterId) (x : ClusterSt) : (setCluster s k x).softRows = s.softRows := rfl
@[simp] theorem setCluster_hardRows (k : ClusterId) (x : ClusterSt) : (setCluster s k x).hardRows = s.hardRows := rfl
@[simp] theorem setCluster_udFault (k : ClusterId) (x : ClusterSt) : (setCluster s k x).udFault = s.udFault := rfl
@[simp] theorem setCluster_biWait (k : ClusterId) (x : ClusterSt) : (setCluster s k x).biWait = s.biWait := rfl
@[simp] theorem setCluster_pci (k : ClusterId) (x : ClusterSt) : (setCluster s k x).pci = s.pci := rfl
@[simp] theorem setCluster_rollout (k : ClusterId) (x : ClusterSt) : (setCluster s k x).rollout = s.rollout := rfl
@[simp] theorem setCluster_events (k : ClusterId) (x : ClusterSt) : (setCluster s k x).events = s.events := rfl
@[simp] theorem setCluster_boot (k : ClusterId) (x : ClusterSt) : (setCluster s k x).boot = s.boot := rfl
@[simp] theorem setCluster_power (k : ClusterId) (x : ClusterSt) : (setCluster s k x).power = s.power := rfl
@[simp] theorem setCluster_fuseSvn (k : ClusterId) (x : ClusterSt) : (setCluster s k x).fuseSvn = s.fuseSvn := rfl
@[simp] theorem setCluster_flash (k : ClusterId) (x : ClusterSt) : (setCluster s k x).flash = s.flash := rfl
@[simp] theorem setCluster_running (k : ClusterId) (x : ClusterSt) : (setCluster s k x).running = s.running := rfl
@[simp] theorem setCluster_recover (k : ClusterId) (x : ClusterSt) : (setCluster s k x).recover = s.recover := rfl
@[simp] theorem setCluster_certs (k : ClusterId) (x : ClusterSt) : (setCluster s k x).certs = s.certs := rfl
@[simp] theorem setCluster_sessions (k : ClusterId) (x : ClusterSt) : (setCluster s k x).sessions = s.sessions := rfl
@[simp] theorem setCluster_ideKeys (k : ClusterId) (x : ClusterSt) : (setCluster s k x).ideKeys = s.ideKeys := rfl
@[simp] theorem setCluster_ideNext (k : ClusterId) (x : ClusterSt) : (setCluster s k x).ideNext = s.ideNext := rfl
@[simp] theorem setCluster_sigs (k : ClusterId) (x : ClusterSt) : (setCluster s k x).sigs = s.sigs := rfl
@[simp] theorem setCluster_replies (k : ClusterId) (x : ClusterSt) : (setCluster s k x).replies = s.replies := rfl
@[simp] theorem setCluster_dynAddr (k : ClusterId) (x : ClusterSt) : (setCluster s k x).dynAddr = s.dynAddr := rfl
@[simp] theorem setCluster_pending (k : ClusterId) (x : ClusterSt) : (setCluster s k x).pending = s.pending := rfl

@[simp] theorem raise_regs (n : Nat) : (raise s n).regs = s.regs := rfl
@[simp] theorem raise_latches (n : Nat) : (raise s n).latches = s.latches := rfl
@[simp] theorem raise_readout (n : Nat) : (raise s n).readout = s.readout := rfl
@[simp] theorem raise_mem (n : Nat) : (raise s n).mem = s.mem := rfl
@[simp] theorem raise_poison (n : Nat) : (raise s n).poison = s.poison := rfl
@[simp] theorem raise_lineKeys (n : Nat) : (raise s n).lineKeys = s.lineKeys := rfl
@[simp] theorem raise_free (n : Nat) : (raise s n).free = s.free := rfl
@[simp] theorem raise_cores (n : Nat) : (raise s n).cores = s.cores := rfl
@[simp] theorem raise_clusters (n : Nat) : (raise s n).clusters = s.clusters := rfl
@[simp] theorem raise_prog (n : Nat) : (raise s n).prog = s.prog := rfl
@[simp] theorem raise_pair (n : Nat) : (raise s n).pair = s.pair := rfl
@[simp] theorem raise_keySlots (n : Nat) : (raise s n).keySlots = s.keySlots := rfl
@[simp] theorem raise_posts (n : Nat) : (raise s n).posts = s.posts := rfl
@[simp] theorem raise_stallClock (n : Nat) : (raise s n).stallClock = s.stallClock := rfl
@[simp] theorem raise_reporting (n : Nat) : (raise s n).reporting = s.reporting := rfl
@[simp] theorem raise_ports (n : Nat) : (raise s n).ports = s.ports := rfl
@[simp] theorem raise_wire (n : Nat) : (raise s n).wire = s.wire := rfl
@[simp] theorem raise_groups (n : Nat) : (raise s n).groups = s.groups := rfl
@[simp] theorem raise_bindRec (n : Nat) : (raise s n).bindRec = s.bindRec := rfl
@[simp] theorem raise_features (n : Nat) : (raise s n).features = s.features := rfl
@[simp] theorem raise_tags (n : Nat) : (raise s n).tags = s.tags := rfl
@[simp] theorem raise_inbox (n : Nat) : (raise s n).inbox = s.inbox := rfl
@[simp] theorem raise_hurdleBits (n : Nat) : (raise s n).hurdleBits = s.hurdleBits := rfl
@[simp] theorem raise_journal (n : Nat) : (raise s n).journal = s.journal := rfl
@[simp] theorem raise_owed (n : Nat) : (raise s n).owed = s.owed := rfl
@[simp] theorem raise_lastRing (n : Nat) : (raise s n).lastRing = s.lastRing := rfl
@[simp] theorem raise_hostOut (n : Nat) : (raise s n).hostOut = s.hostOut := rfl
@[simp] theorem raise_msixOut (n : Nat) : (raise s n).msixOut = s.msixOut := rfl
@[simp] theorem raise_ctrlIn (n : Nat) : (raise s n).ctrlIn = s.ctrlIn := rfl
@[simp] theorem raise_run (n : Nat) : (raise s n).run = s.run := rfl
@[simp] theorem raise_firstRun (n : Nat) : (raise s n).firstRun = s.firstRun := rfl
@[simp] theorem raise_failedStep (n : Nat) : (raise s n).failedStep = s.failedStep := rfl
@[simp] theorem raise_commits (n : Nat) : (raise s n).commits = s.commits := rfl
@[simp] theorem raise_replay (n : Nat) : (raise s n).replay = s.replay := rfl
@[simp] theorem raise_snapshot (n : Nat) : (raise s n).snapshot = s.snapshot := rfl
@[simp] theorem raise_faults (n : Nat) : (raise s n).faults = s.faults := rfl
@[simp] theorem raise_ueTimes (n : Nat) : (raise s n).ueTimes = s.ueTimes := rfl
@[simp] theorem raise_ceTimes (n : Nat) : (raise s n).ceTimes = s.ceTimes := rfl
@[simp] theorem raise_retired (n : Nat) : (raise s n).retired = s.retired := rfl
@[simp] theorem raise_frozen (n : Nat) : (raise s n).frozen = s.frozen := rfl
@[simp] theorem raise_remaps (n : Nat) : (raise s n).remaps = s.remaps := rfl
@[simp] theorem raise_storeErrs (n : Nat) : (raise s n).storeErrs = s.storeErrs := rfl
@[simp] theorem raise_ftabs (n : Nat) : (raise s n).ftabs = s.ftabs := rfl
@[simp] theorem raise_ftPend (n : Nat) : (raise s n).ftPend = s.ftPend := rfl
@[simp] theorem raise_upd (n : Nat) : (raise s n).upd = s.upd := rfl
@[simp] theorem raise_pageDone (n : Nat) : (raise s n).pageDone = s.pageDone := rfl
@[simp] theorem raise_relay (n : Nat) : (raise s n).relay = s.relay := rfl
@[simp] theorem raise_uds (n : Nat) : (raise s n).uds = s.uds := rfl
@[simp] theorem raise_curves (n : Nat) : (raise s n).curves = s.curves := rfl
@[simp] theorem raise_normDone (n : Nat) : (raise s n).normDone = s.normDone := rfl
@[simp] theorem raise_updPend (n : Nat) : (raise s n).updPend = s.updPend := rfl
@[simp] theorem raise_partCmds (n : Nat) : (raise s n).partCmds = s.partCmds := rfl
@[simp] theorem raise_powered (n : Nat) : (raise s n).powered = s.powered := rfl
@[simp] theorem raise_staged (n : Nat) : (raise s n).staged = s.staged := rfl
@[simp] theorem raise_tbHalf (n : Nat) : (raise s n).tbHalf = s.tbHalf := rfl
@[simp] theorem raise_boards (n : Nat) : (raise s n).boards = s.boards := rfl
@[simp] theorem raise_boardRemoved (n : Nat) : (raise s n).boardRemoved = s.boardRemoved := rfl
@[simp] theorem raise_boardFails (n : Nat) : (raise s n).boardFails = s.boardFails := rfl
@[simp] theorem raise_ucie (n : Nat) : (raise s n).ucie = s.ucie := rfl
@[simp] theorem raise_ucieDis (n : Nat) : (raise s n).ucieDis = s.ucieDis := rfl
@[simp] theorem raise_portsHeld (n : Nat) : (raise s n).portsHeld = s.portsHeld := rfl
@[simp] theorem raise_ceRows (n : Nat) : (raise s n).ceRows = s.ceRows := rfl
@[simp] theorem raise_softRows (n : Nat) : (raise s n).softRows = s.softRows := rfl
@[simp] theorem raise_hardRows (n : Nat) : (raise s n).hardRows = s.hardRows := rfl
@[simp] theorem raise_udFault (n : Nat) : (raise s n).udFault = s.udFault := rfl
@[simp] theorem raise_biWait (n : Nat) : (raise s n).biWait = s.biWait := rfl
@[simp] theorem raise_pci (n : Nat) : (raise s n).pci = s.pci := rfl
@[simp] theorem raise_rollout (n : Nat) : (raise s n).rollout = s.rollout := rfl
@[simp] theorem raise_events (n : Nat) : (raise s n).events = s.events := rfl
@[simp] theorem raise_boot (n : Nat) : (raise s n).boot = s.boot := rfl
@[simp] theorem raise_power (n : Nat) : (raise s n).power = s.power := rfl
@[simp] theorem raise_fuseSvn (n : Nat) : (raise s n).fuseSvn = s.fuseSvn := rfl
@[simp] theorem raise_flash (n : Nat) : (raise s n).flash = s.flash := rfl
@[simp] theorem raise_running (n : Nat) : (raise s n).running = s.running := rfl
@[simp] theorem raise_recover (n : Nat) : (raise s n).recover = s.recover := rfl
@[simp] theorem raise_certs (n : Nat) : (raise s n).certs = s.certs := rfl
@[simp] theorem raise_sessions (n : Nat) : (raise s n).sessions = s.sessions := rfl
@[simp] theorem raise_ideKeys (n : Nat) : (raise s n).ideKeys = s.ideKeys := rfl
@[simp] theorem raise_ideNext (n : Nat) : (raise s n).ideNext = s.ideNext := rfl
@[simp] theorem raise_sigs (n : Nat) : (raise s n).sigs = s.sigs := rfl
@[simp] theorem raise_replies (n : Nat) : (raise s n).replies = s.replies := rfl
@[simp] theorem raise_dynAddr (n : Nat) : (raise s n).dynAddr = s.dynAddr := rfl
@[simp] theorem raise_pending (n : Nat) : (raise s n).pending = s.pending := rfl

end updates

end Sys2Proof.Machine
end

