-- ==== Sys2Proof/Laws/Registers.lean ====
section
/-!
SUPPORT. What the shared register and record operations do, once: a field written reads as written, other fields keep their value.
-/

namespace Sys2Proof.Machine

open Sys2Proof

@[simp] theorem rd_wr_same (s : State) (f : Fld) (v : Nat) : rd (wr s f v) f = v % 2 ^ f.width := by simp [rd, wr]

theorem rd_wr_fit (s : State) (f : Fld) {v : Nat} (h : v < 2 ^ f.width) : rd (wr s f v) f = v := by
  rw [rd_wr_same, Nat.mod_eq_of_lt h]

theorem rd_wr_ne (s : State) {f g : Fld} (v : Nat) (h : g.at_ ≠ f.at_) : rd (wr s f v) g = rd s g := by
  simp only [rd, wr]
  exact mapGet_mapSetD_ne _ _ _ _ h

/-- A field written, read at any field: by address. -/
theorem rd_wr (s : State) (f g : Fld) (v : Nat) (h : f.at_ = g.at_ → f = g) :
    rd (wr s f v) g = if f.at_ = g.at_ then v % 2 ^ f.width else rd s g := by
  split
  · next he => rw [← h he, rd_wr_same]
  · next he => exact rd_wr_ne s v (Ne.symm he)

@[simp] theorem wrAll_nil (s : State) : wrAll s [] = s := rfl

@[simp] theorem wrAll_cons (s : State) (e : Fld × Nat) (l : List (Fld × Nat)) : wrAll s (e :: l) = wrAll (wr s e.1 e.2) l := rfl

/-- Writing fields changes the registers only. -/
theorem wrAll_eq (s : State) (l : List (Fld × Nat)) : wrAll s l = { s with regs := (wrAll s l).regs } := by
  induction l generalizing s with
  | nil => rfl
  | cons e l ih => rw [wrAll_cons, ih]; rfl

theorem rd_wrAll_ne (s : State) (l : List (Fld × Nat)) (g : Fld) (h : ∀ e ∈ l, g.at_ ≠ e.1.at_) :
    rd (wrAll s l) g = rd s g := by
  induction l generalizing s with
  | nil => rfl
  | cons e l ih =>
    rw [wrAll_cons, ih _ (fun e he => h e (List.mem_cons_of_mem _ he)), rd_wr_ne _ _ (h e (List.mem_cons_self ..))]

@[simp] theorem core_setCore_same (s : State) (c : CoreId) (x : CoreSt) : core (setCore s c x) c = x := by
  simp [core, setCore]

@[simp] theorem cluster_setCluster_same (s : State) (k : ClusterId) (x : ClusterSt) : cluster (setCluster s k x) k = x := by
  simp [cluster, setCluster]

theorem coreKey_inj {c d : CoreId} (h : c.key = d.key) : c = d := by
  obtain ⟨⟨a, ha⟩, ⟨b, hb⟩, ⟨e, he⟩⟩ := c
  obtain ⟨⟨a', ha'⟩, ⟨b', hb'⟩, ⟨e', he'⟩⟩ := d
  simp only [CoreId.key] at h
  have h1 : a = a' := by omega
  have h2 : b = b' := by omega
  have h3 : e = e' := by omega
  subst h1 h2 h3
  rfl

theorem clusterKey_inj {k l : ClusterId} (h : k.key = l.key) : k = l := by
  obtain ⟨⟨a, ha⟩, ⟨b, hb⟩⟩ := k
  obtain ⟨⟨a', ha'⟩, ⟨b', hb'⟩⟩ := l
  simp only [ClusterId.key] at h
  have h1 : a = a' := by omega
  have h2 : b = b' := by omega
  subst h1 h2
  rfl

theorem core_setCore_ne (s : State) {c d : CoreId} (x : CoreSt) (h : d ≠ c) : core (setCore s c x) d = core s d := by
  simp only [core, setCore]
  exact mapGet_mapPut_ne _ _ _ (fun e => h (coreKey_inj e))

theorem cluster_setCluster_ne (s : State) {k l : ClusterId} (x : ClusterSt) (h : l ≠ k) :
    cluster (setCluster s k x) l = cluster s l := by
  simp only [cluster, setCluster]
  exact mapGet_mapPut_ne _ _ _ (fun e => h (clusterKey_inj e))

@[simp] theorem core_wr (s : State) (f : Fld) (v : Nat) (c : CoreId) : core (wr s f v) c = core s c := rfl
@[simp] theorem cluster_wr (s : State) (f : Fld) (v : Nat) (k : ClusterId) : cluster (wr s f v) k = cluster s k := rfl
@[simp] theorem rd_setCore (s : State) (c : CoreId) (x : CoreSt) (f : Fld) : rd (setCore s c x) f = rd s f := rfl
@[simp] theorem rd_setCluster (s : State) (k : ClusterId) (x : ClusterSt) (f : Fld) : rd (setCluster s k x) f = rd s f := rfl
@[simp] theorem rd_raise (s : State) (n : Nat) (f : Fld) : rd (raise s n) f = rd s f := rfl
@[simp] theorem cluster_setCore (s : State) (c : CoreId) (x : CoreSt) (k : ClusterId) :
    cluster (setCore s c x) k = cluster s k := rfl
@[simp] theorem core_setCluster (s : State) (k : ClusterId) (x : ClusterSt) (c : CoreId) :
    core (setCluster s k x) c = core s c := rfl

/-- Writing a field keeps the register map's canonical order. -/
theorem wr_keysRise {s : State} (f : Fld) (v : Nat) (h : keysRise s.regs = true) : keysRise (wr s f v).regs = true :=
  keysRise_mapSetD _ _ _ h

/-- Writing fields keeps it. -/
theorem wrAll_keysRise {s : State} (l : List (Fld × Nat)) (h : keysRise s.regs = true) :
    keysRise (wrAll s l).regs = true := by
  induction l generalizing s with
  | nil => exact h
  | cons e l ih => exact ih (wr_keysRise _ _ h)

/-- Only registers, event inputs and the time of EVC_CSAT differ. -/
def RegOnly (s t : State) : Prop := ∃ r x f, t = { s with regs := r, events := { s.events with csatAt := x }, fired := f }

theorem RegOnly.refl (s : State) : RegOnly s s := ⟨s.regs, s.events.csatAt, s.fired, rfl⟩

theorem RegOnly.trans {s t u : State} (h : RegOnly s t) (k : RegOnly t u) : RegOnly s u := by
  obtain ⟨r, x, f, rfl⟩ := h
  obtain ⟨r', x', f', rfl⟩ := k
  exact ⟨r', x', f', rfl⟩

theorem regOnly_wr (s : State) (f : Fld) (v : Nat) : RegOnly s (wr s f v) := ⟨_, s.events.csatAt, s.fired, rfl⟩

theorem regOnly_raise (s : State) (n : Nat) : RegOnly s (raise s n) := ⟨s.regs, s.events.csatAt, _, rfl⟩

theorem regOnly_csatAt (s : State) (x : Nat) : RegOnly s { s with events := { s.events with csatAt := x } } := ⟨s.regs, x, s.fired, rfl⟩

theorem regOnly_wrAll (s : State) (l : List (Fld × Nat)) : RegOnly s (wrAll s l) := by
  induction l generalizing s with
  | nil => exact .refl s
  | cons e l ih => exact (regOnly_wr s e.1 e.2).trans (ih _)

theorem regOnly_noteSat (s : State) (m : Bool) (a : Nat) : RegOnly s (noteSat s m a) := by
  unfold noteSat
  split
  · exact .refl s
  · exact (regOnly_csatAt s _).trans (regOnly_wrAll _ _)

theorem regOnly_captureSat (s : State) (m : Bool) (a : Nat) : RegOnly s (captureSat s m a) := by
  unfold captureSat
  refine (regOnly_noteSat s m a).trans ?_
  generalize noteSat s m a = t
  dsimp only
  split
  · exact regOnly_wr _ _ _
  · split
    · exact .refl _
    · exact ((regOnly_wr _ _ _).trans (regOnly_noteSat _ _ _)).trans (regOnly_raise _ _)

/-- A device counter's advance changes registers and event inputs only (17 R505, R506). -/
theorem regOnly_bumpOvf (s : State) (f : Fld) (n : Nat) (o : Option Fld) : RegOnly s (bumpOvf s f n o) := by
  unfold bumpOvf
  dsimp only
  split
  · exact regOnly_wr _ _ _
  · split
    · exact .refl _
    · refine RegOnly.trans ?_ (regOnly_raise _ _)
      refine RegOnly.trans ?_ (regOnly_captureSat _ _ _)
      cases o with
      | none => exact regOnly_wr _ _ _
      | some o => exact (regOnly_wr _ _ _).trans (regOnly_wr _ _ _)

/-- A counter without an OVF bit likewise. -/
theorem regOnly_bump (s : State) (f : Fld) (n : Nat) : RegOnly s (bump s f n) := regOnly_bumpOvf s f n none

/-- A recorded discarded write changes registers and event inputs only (00 R8). -/
theorem regOnly_recordRsvd (s : State) (off : Nat) : RegOnly s (recordRsvd s off) := by
  unfold recordRsvd
  refine (regOnly_bumpOvf s F.ID_RSVD_WR_CNT_COUNT 1 (some F.ID_RSVD_WR_OVF)).trans ?_
  generalize bumpOvf s F.ID_RSVD_WR_CNT_COUNT 1 (some F.ID_RSVD_WR_OVF) = t
  dsimp only
  split
  · exact .refl _
  · exact (regOnly_wrAll _ _).trans (regOnly_raise _ _)

/-- Addresses that the saturation of a counter may write (17 R506, R512). -/
def satFields : List Nat := [F.EVC_CSAT_VALID.at_, F.EVC_CSAT_MEM.at_, F.EVC_CSAT_ADDR.at_, (F.EVC_CNT_COUNT 2).at_]

theorem rd_noteSat (s : State) (m : Bool) (a : Nat) {g : Fld} (h : g.at_ ∉ satFields) : rd (noteSat s m a) g = rd s g := by
  simp only [satFields, List.mem_cons, List.not_mem_nil, or_false, not_or] at h
  unfold noteSat
  split
  · rfl
  · refine rd_wrAll_ne _ _ _ ?_
    simp only [List.mem_cons, List.not_mem_nil, or_false, forall_eq_or_imp, forall_eq]
    exact ⟨h.1, h.2.1, h.2.2.1⟩

theorem rd_captureSat (s : State) (m : Bool) (a : Nat) {g : Fld} (h : g.at_ ∉ satFields) : rd (captureSat s m a) g = rd s g := by
  have h4 : g.at_ ≠ (F.EVC_CNT_COUNT 2).at_ := fun e => h (by rw [e]; simp [satFields])
  unfold captureSat
  dsimp only
  split
  · rw [rd_wr_ne _ _ h4, rd_noteSat _ _ _ h]
  · split
    · exact rd_noteSat _ _ _ h
    · rw [rd_raise, rd_noteSat _ _ _ h, rd_wr_ne _ _ h4, rd_noteSat _ _ _ h]

/-- A device counter's advance leaves every field but itself and what a saturation writes (17 R505, R506). -/
theorem rd_bump_ne (s : State) (f : Fld) (n : Nat) {g : Fld} (hf : g.at_ ≠ f.at_) (h : g.at_ ∉ satFields) :
    rd (bump s f n) g = rd s g := by
  unfold bump bumpOvf
  dsimp only
  split
  · exact rd_wr_ne _ _ hf
  · split
    · rfl
    · rw [rd_raise, rd_captureSat _ _ _ h, rd_wr_ne _ _ hf]

/-- Below its maximum a device counter advances and nothing else happens (17 R505). -/
theorem bump_eq (s : State) (f : Fld) (n : Nat) (h : rd s f + n < counterMax) : bump s f n = wr s f (rd s f + n) := by
  simp [bump, bumpOvf, h]

end Sys2Proof.Machine
end

