-- ==== Sys2Proof/Laws/Counters.lean ====
section
/-!
SUPPORT. What a device counter's advance does, once, in the terms of the statements: the counter itself, what a saturation touches, nothing
else (17 R505, R506); and how such effects compose.
-/

namespace Sys2Proof.Machine

open Sys2Proof

theorem RegsKept.refl (s : State) (l : List Fld) : RegsKept s s l := fun _ _ => rfl

theorem RegsKept.mono {s t : State} {l m : List Fld} (h : RegsKept s t l) (hm : ∀ f ∈ l, f ∈ m) : RegsKept s t m := by
  intro f hf
  refine h f (fun hl => hf ?_)
  obtain ⟨g, hg, e⟩ := List.mem_map.1 hl
  exact List.mem_map.2 ⟨g, hm g hg, e⟩

theorem RegsKept.trans {s t u : State} {l m : List Fld} (h : RegsKept s t l) (k : RegsKept t u m) : RegsKept s u (l ++ m) := by
  intro f hf
  rw [List.map_append, List.mem_append, not_or] at hf
  rw [k f hf.2, h f hf.1]

theorem regsKept_wr (s : State) (f : Fld) (v : Nat) : RegsKept s (wr s f v) [f] := by
  intro g hg
  exact rd_wr_ne _ _ (by simpa using hg)

/-- Writing fields keeps every other field. -/
theorem regsKept_wrAll (s : State) (l : List (Fld × Nat)) : RegsKept s (wrAll s l) (l.map Prod.fst) := by
  intro g hg
  refine rd_wrAll_ne s l g (fun e he h => hg ?_)
  simp only [List.map_map, List.mem_map, Function.comp]
  exact ⟨e, he, h.symm⟩

theorem onlyRegs_wr (s : State) (f : Fld) (v : Nat) : OnlyRegs s (wr s f v) := rfl

theorem onlyRegs_wrAll (s : State) (l : List (Fld × Nat)) : OnlyRegs s (wrAll s l) := wrAll_eq s l

theorem OnlyRegs.onlyRegsEvents {s t : State} (h : OnlyRegs s t) : OnlyRegsEvents s t := by
  unfold OnlyRegs at h
  unfold OnlyRegsEvents satOf
  rw [h]

/-- Registers, event inputs and the time of EVC_CSAT alone differ: the form of the statements. -/
theorem RegOnly.onlyRegsEvents {s t : State} (h : RegOnly s t) : OnlyRegsEvents s t := by
  obtain ⟨r, x, f, rfl⟩ := h
  rfl

theorem OnlyRegsEvents.memKept {s t : State} (h : OnlyRegsEvents s t) : MemKept s t := by
  intro k
  rw [h]

theorem OnlyRegsEvents.trans {s t u : State} (h : OnlyRegsEvents s t) (k : OnlyRegsEvents t u) : OnlyRegsEvents s u := by
  unfold OnlyRegsEvents satOf at *
  rw [k, h]

theorem satTouched_at : satTouched.map Fld.at_ = satFields := rfl

/-- A counter's advance by n (17 R505, R506): with room it counts, and in any case nothing but the counter and what its saturation touches
differs. -/
theorem bump_spec (s : State) (f : Fld) (n : Nat) :
    (rd s f + n < counterMax → rd (bump s f n) f = (rd s f + n) % 2 ^ f.width)
      ∧ RegsKept s (bump s f n) (f :: satTouched) ∧ OnlyRegsEvents s (bump s f n) := by
  refine ⟨fun h => ?_, fun g hg => ?_, (regOnly_bump s f n).onlyRegsEvents⟩
  · rw [bump_eq s f n h, rd_wr_same]
  · rw [List.map_cons, List.mem_cons, not_or, satTouched_at] at hg
    exact rd_bump_ne s f n hg.1 hg.2

/-- A 64-bit counter with room advances by one: the count of the statements. -/
theorem bump_one (s : State) {f : Fld} (hw : f.width = 64) (h : Room s f) : rd (bump s f 1) f = rd s f + 1 := by
  rw [(bump_spec s f 1).1 h, hw]
  refine Nat.mod_eq_of_lt (lt_of_lt_of_le h ?_)
  decide

end Sys2Proof.Machine
end

