-- ==== Sys2Proof/Laws/Commands.lean ====
section
/-!
SUPPORT. What the end of a command does, once (16 R465 to R468), and when a command's own rules are reached.
-/

namespace Sys2Proof.Machine

open Sys2Proof

theorem cmdOf_is {s : State} {r seq : Nat} {c : Cmd} (h : cmdOf s r seq = some c) : c.ring = r ∧ c.seq = seq := by
  have := List.find?_some h
  simpa [Cmd.is] using this

/-- A command that passes what is judged before its own parameters runs its own rules (16 R468 to R473). -/
theorem beginCmd_begins {s : State} {r : Fin 16} {seq op : Nat} {c : Cmd} (h : Begins s r seq op c) (body : Cmd → State) :
    beginCmd s r.val seq op body = body c := by
  obtain ⟨h1, h2, h3, h4, h5, h6⟩ := h
  unfold beginCmd
  rw [h1]
  dsimp only
  rw [if_neg (by simp [h2, h3]), if_neg (by intro k; rcases h6 with h | h | h <;> simp_all), if_neg (by simp [h4]), if_neg (by simp [h5])]

/-- Beside a journal replaced, only registers and event inputs differ. -/
theorem RegOnly.with_journal {s u t : State} {r : NMap Nat} {j : List Cmd} (hu : u = { s with regs := r, journal := j }) (h : RegOnly u t) :
    t.journal = j ∧ t = { s with regs := t.regs, journal := t.journal, events := satOf s t, fired := t.fired } := by
  subst hu
  obtain ⟨_, _, _, rfl⟩ := h
  exact ⟨rfl, rfl⟩

/-- A journal replaced, a field written and two counters advanced: what that changes. -/
theorem journal_counted (s : State) (x : List Cmd) (f g h : Fld) (n a b : Nat) (t : State)
    (ht : bump (bump (wr { s with journal := x } f n) g a) h b = t) :
    t.journal = x ∧ RegsKept s t (f :: g :: h :: satTouched)
      ∧ t = { s with regs := t.regs, journal := t.journal, events := satOf s t, fired := t.fired } := by
  generalize hu : wr { s with journal := x } f n = u at ht
  have k : RegOnly u t := ht ▸ (regOnly_bump u g a).trans (regOnly_bump _ h b)
  obtain ⟨k1, k2⟩ := k.with_journal (s := s) (r := u.regs) (j := x) (by subst hu; rfl)
  refine ⟨k1, ?_, k2⟩
  have h0 : RegsKept s u [f] := by
    subst hu
    exact fun g hg => rd_wr_ne _ _ (by simpa using hg)
  rw [← ht]
  refine ((h0.trans (bump_spec u _ a).2.1).trans (bump_spec _ _ b).2.1).mono ?_
  intro f hf
  simp only [List.mem_append, List.mem_cons, List.not_mem_nil, or_false] at hf ⊢
  tauto

/-- A ring takes the terminal statuses that are due: its journal, its INFLIGHT and the two counts of statuses, nothing else (16 R465). -/
theorem settle_spec (s : State) (r : Nat) :
    (settle s r).journal = trimRing (settleFrom (mirrors s) s.journal r (now s)) r
      ∧ RegsKept s (settle s r) (F.CMD_RING_STAT_INFLIGHT r :: F.CMD_CNT_COUNT 5 :: F.CMD_CNT_COUNT 6 :: satTouched)
      ∧ settle s r = { s with regs := (settle s r).regs, journal := (settle s r).journal, events := satOf s (settle s r),
                              fired := (settle s r).fired } :=
  journal_counted s _ _ _ _ _ _ _ _ rfl

/-- A command without a terminal status ends as the statements say. -/
theorem finish_executed {s : State} {r seq : Nat} {c : Cmd} (h : cmdOf s r seq = some c) (hs : c.status = none) (st detail : Nat)
    (res : List Byte) : Executed s (finish s r seq st detail res) r seq st detail res := by
  obtain ⟨hr, hq⟩ := cmdOf_is h
  generalize ht : finish s r seq st detail res = t
  unfold finish at ht
  rw [h] at ht
  dsimp only at ht
  rw [if_neg (by rw [hs]; simp)] at ht
  unfold Executed
  generalize hd : ({ c with started := true, fin := some (if st = 0 ∧ c.replayed then 0x20 else st, detail),
                            result := sliceBytes res 0 16 } : Cmd) = d at ht
  have hdr : d.ring = r ∧ d.seq = seq := by
    subst hd
    exact ⟨hr, hq⟩
  generalize hj : s.journal.map (fun x => if x.is r seq then d else x) = j
  have hu : setCmd s d = { s with journal := j } := by
    unfold setCmd
    rw [hdr.1, hdr.2, hj]
  rw [hu] at ht
  obtain ⟨k1, k2, k3⟩ := settle_spec { s with journal := j } r
  rw [ht] at k1 k2 k3
  exact ⟨⟨c, h, by rw [hd]; exact hj ▸ k1⟩, k2, k3⟩

end Sys2Proof.Machine
end

