-- ==== Sys2Proof/Laws/Memory.lean ====
section
/-!
SUPPORT. Laws of memory: a byte put is the byte got, other bytes stay, and every operation keeps the canonical form.
-/

namespace Sys2Proof.Machine

open Sys2Proof

@[simp] theorem memByte_memPut_same (m : List Host.Cell) (k : Nat) (b : Byte) : memByte (memPut m k b) k = b := by
  simp [memByte, memPut]

theorem memByte_memPut_ne (m : List Host.Cell) {k l : Nat} (b : Byte) (h : l ≠ k) :
    memByte (memPut m k b) l = memByte m l := by
  simp only [memByte, memPut]
  exact mapGet_mapSetD_ne _ _ _ _ h

/-- A byte put keeps the canonical form. -/
theorem memPut_wf {m : List Host.Cell} (k : Nat) (b : Byte) (h : Memory.wf m = true) : Memory.wf (memPut m k b) = true :=
  canonical_mapSetD _ _ _ h

theorem foldl_memPut_wf {ι : Type} (l : List ι) (f : ι → Nat) (g : List Host.Cell → ι → Byte) {m : List Host.Cell}
    (h : Memory.wf m = true) : Memory.wf (l.foldl (fun m i => memPut m (f i) (g m i)) m) = true := by
  induction l generalizing m with
  | nil => exact h
  | cons i l ih => exact ih (memPut_wf _ _ h)

/-- A line put under another key keeps the canonical form (11 R343). -/
theorem rekeyLine_wf {s : State} (k a now : Nat) (h : Memory.wf s.mem = true) : Memory.wf (rekeyLine s k a now).mem = true := by
  unfold rekeyLine
  generalize List.range 256 = l
  exact foldl_memPut_wf l (fun i => k / 256 * 256 + i)
    (fun m i => Config.cipherByte (mapGet 0 s.lineKeys (k / 256)) now (a - k % 256 + i) (memByte m (k / 256 * 256 + i))) h

/-- A byte stored keeps the canonical form. -/
theorem stByte_wf (rs : List PrRegion) {s : State} (a : Nat) (b : Byte) (h : Memory.wf s.mem = true) :
    Memory.wf (stByte rs s a b).mem = true := by
  unfold stByte
  split
  · exact h
  · dsimp only
    split
    · exact memPut_wf _ _ h
    · exact memPut_wf _ _ (rekeyLine_wf _ _ _ h)

/-- Bytes stored keep the canonical form. -/
theorem stBytesFrom_wf (rs : List PrRegion) (bs : List Byte) {s : State} (a : Nat) (h : Memory.wf s.mem = true) :
    Memory.wf (stBytesFrom rs s a bs).mem = true := by
  induction bs generalizing s a with
  | nil => exact h
  | cons b bs ih => exact ih _ (stByte_wf rs a b h)

theorem clearPoison_mem (s : State) (a n : Nat) : (clearPoison s a n).mem = s.mem := by
  unfold clearPoison
  split <;> rfl

theorem stPlain_wf {s : State} (a : Nat) (bs : List Byte) (h : Memory.wf s.mem = true) :
    Memory.wf (stPlain s a bs).mem = true := by
  unfold stPlain
  rw [clearPoison_mem]
  exact stBytesFrom_wf _ _ _ h

/-- A window line taken back changes registers and event inputs, the lines waited for and what leaves (15 R451). -/
theorem snoopLine_eq (a n : Nat) (s : State) (line : Nat) :
    ∃ b o, RegOnly { s with biWait := b, replies := o } (snoopLine a n s line) := by
  unfold snoopLine
  split
  · exact ⟨s.biWait, s.replies, .refl s⟩
  · split
    · exact ⟨_, s.replies, .refl _⟩
    · exact ⟨_, _, regOnly_bump _ _ _⟩

theorem RegOnly.mem_eq {s t : State} (h : RegOnly s t) : t.mem = s.mem := by
  obtain ⟨r, x, f, rfl⟩ := h
  rfl

theorem RegOnly.lineKeys_eq {s t : State} (h : RegOnly s t) : t.lineKeys = s.lineKeys := by
  obtain ⟨r, x, f, rfl⟩ := h
  rfl

theorem snoopLine_mem (a n : Nat) (s : State) (line : Nat) : (snoopLine a n s line).mem = s.mem := by
  obtain ⟨b, o, h⟩ := snoopLine_eq a n s line
  exact h.mem_eq

theorem snoopLine_lineKeys (a n : Nat) (s : State) (line : Nat) : (snoopLine a n s line).lineKeys = s.lineKeys := by
  obtain ⟨b, o, h⟩ := snoopLine_eq a n s line
  exact h.lineKeys_eq

theorem foldl_snoopLine_mem (a n : Nat) (l : List Nat) (s : State) : (l.foldl (snoopLine a n) s).mem = s.mem := by
  induction l generalizing s with
  | nil => rfl
  | cons x l ih => rw [List.foldl_cons, ih, snoopLine_mem]

theorem foldl_snoopLine_lineKeys (a n : Nat) (l : List Nat) (s : State) : (l.foldl (snoopLine a n) s).lineKeys = s.lineKeys := by
  induction l generalizing s with
  | nil => rfl
  | cons x l ih => rw [List.foldl_cons, ih, snoopLine_lineKeys]

/-- Every store of the module keeps the canonical form of memory. -/
theorem stBytes_wf {s : State} (a : Nat) (bs : List Byte) (h : Memory.wf s.mem = true) :
    Memory.wf (stBytes s a bs).mem = true := by
  refine stPlain_wf _ _ ?_
  rw [foldl_snoopLine_mem]
  exact h

/-- A number stored keeps it. -/
theorem stN_wf {s : State} (a n v : Nat) (h : Memory.wf s.mem = true) : Memory.wf (stN s a n v).mem = true :=
  stBytes_wf _ _ h

/-- A saturated counter captured keeps it. -/
theorem captureSat_wf {s : State} (m : Bool) (a : Nat) (h : Memory.wf s.mem = true) : Memory.wf (captureSat s m a).mem = true := by
  rw [(regOnly_captureSat s m a).mem_eq]
  exact h

/-- A counter in a record keeps it. -/
theorem bumpMem_wf {s : State} (a n : Nat) (h : Memory.wf s.mem = true) : Memory.wf (bumpMem s a n).mem = true := by
  unfold bumpMem
  generalize ldN s a 8 = v
  generalize counterMax = m
  dsimp only
  have h1 : Memory.wf (stN s a 8 (v + n)).mem = true := stN_wf a 8 (v + n) h
  have h2 : Memory.wf (stN s a 8 m).mem = true := stN_wf a 8 m h
  generalize stN s a 8 (v + n) = x at h1
  generalize stN s a 8 m = y at h2
  have k : Memory.wf (captureSat y true a).mem = true := captureSat_wf true a h2
  generalize captureSat y true a = z at k
  split
  · exact h
  · split
    · exact h1
    · split
      · exact h
      · split <;> exact k

end Sys2Proof.Machine
end

