-- ==== Sys2Proof/Laws/Sequencer.lean ====
section
/-!
SUPPORT. What the sequencer's shared operations do, once: a wait takes its count, a post leaves, execution continues at an index.
-/

namespace Sys2Proof.Machine

open Sys2Proof

/-- Only registers, units' records and posts differ. -/
def SeqOnly (s t : State) : Prop := ∃ r k p, t = { s with regs := r, cores := k, posts := p }

theorem SeqOnly.eq {s t : State} (h : SeqOnly s t) : t = { s with regs := t.regs, cores := t.cores, posts := t.posts } := by
  obtain ⟨r, k, p, rfl⟩ := h
  rfl

theorem SeqOnly.trans {s t u : State} (h : SeqOnly s t) (k : SeqOnly t u) : SeqOnly s u := by
  obtain ⟨_, _, _, rfl⟩ := h
  obtain ⟨r, k, p, rfl⟩ := k
  exact ⟨r, k, p, rfl⟩

theorem seqOnly_wr (s : State) (f : Fld) (v : Nat) : SeqOnly s (wr s f v) := ⟨_, s.cores, s.posts, rfl⟩

theorem seqOnly_wrAll (s : State) (l : List (Fld × Nat)) : SeqOnly s (wrAll s l) := by
  induction l generalizing s with
  | nil => exact ⟨s.regs, s.cores, s.posts, rfl⟩
  | cons e l ih => exact (seqOnly_wr s e.1 e.2).trans (ih _)

theorem SeqOnly.mem {s t : State} (h : SeqOnly s t) : t.mem = s.mem := by
  obtain ⟨r, k, p, rfl⟩ := h
  rfl

/-- A sequencer instruction at the front with its wait met runs its effect (04 R101). -/
theorem control_front {s : State} {c : CoreId} {op w : Nat} (h : FrontIs s c op w) (hw : waitMet s c w = true)
    (f : Nat → State → State) : Machine.control s c op f = f w (nextSeq (takeWait s c w) c) := by
  obtain ⟨h1, h2, h3⟩ := h
  simp [Machine.control, h1, h2, h3, hw]

theorem controlPost_front {s : State} {c : CoreId} {op w : Nat} (h : FrontIs s c op w) (hw : waitMet s c w = true)
    (f : Nat → State → State) :
    controlPost s c op f = .next (makePost (f w (nextSeq (takeWait s c w) c)) c w) := by
  simp [controlPost, control_front h hw]

/-- A wait writes at most its counter (04 R102). -/
theorem takeWait_eq (s : State) (c : CoreId) (w : Nat) :
    takeWait s c w = if waitCnt w = 0 then s else wr s (waitFld c w) (rd s (waitFld c w) - waitCnt w) := by
  unfold takeWait waitFld
  split
  · rfl
  · split <;> rfl

theorem rd_takeWait_same (s : State) (c : CoreId) (w : Nat) : rd (takeWait s c w) (waitFld c w) = waitLeft s c w := by
  have hwid : (waitFld c w).width = 16 := by unfold waitFld; split <;> rfl
  rw [takeWait_eq]
  unfold waitLeft
  split
  · rfl
  · rw [rd_wr_same, hwid]

theorem rd_takeWait_ne (s : State) (c : CoreId) (w : Nat) {g : Fld} (h : g.at_ ≠ (waitFld c w).at_) :
    rd (takeWait s c w) g = rd s g := by
  rw [takeWait_eq]
  split
  · rfl
  · exact rd_wr_ne _ _ h

theorem seqOnly_takeWait (s : State) (c : CoreId) (w : Nat) : SeqOnly s (takeWait s c w) := by
  rw [takeWait_eq]
  split
  · exact ⟨s.regs, s.cores, s.posts, rfl⟩
  · exact seqOnly_wr _ _ _

/-- A post joins the posts under way and changes nothing else (04 R105). -/
theorem makePost_only (s : State) (c : CoreId) (w : Nat) : ∃ p, makePost s c w = { s with posts := p } := by
  unfold makePost
  dsimp only
  split
  · exact ⟨s.posts, rfl⟩
  · split
    · exact ⟨_, rfl⟩
    · exact ⟨s.posts, rfl⟩

@[simp] theorem rd_makePost (s : State) (c : CoreId) (w : Nat) (f : Fld) : rd (makePost s c w) f = rd s f := by
  obtain ⟨p, h⟩ := makePost_only s c w
  rw [h]; rfl

@[simp] theorem core_makePost (s : State) (c d : CoreId) (w : Nat) : core (makePost s c w) d = core s d := by
  obtain ⟨p, h⟩ := makePost_only s c w
  rw [h]; rfl

theorem seqOnly_makePost (s : State) (c : CoreId) (w : Nat) : SeqOnly s (makePost s c w) := by
  obtain ⟨p, h⟩ := makePost_only s c w
  rw [h]; exact ⟨s.regs, s.cores, p, rfl⟩

/-- Which posts a post leaves depends on the remap table and the posts alone. -/
theorem makePost_posts_congr {s t : State} {c : CoreId} (w : Nat) (hp : t.posts = s.posts)
    (hr : ∀ x, slotCore t x = slotCore s x) : (makePost t c w).posts = (makePost s c w).posts := by
  have hc : coreSlot t c = coreSlot s c := by simp [coreSlot, hr]
  unfold makePost
  dsimp only
  rw [hc]
  split
  · exact hp
  · split
    · simp [hp]
    · exact hp

theorem waitFld_ge (c : CoreId) (w : Nat) :
    (coreBase c + 0x200) * 8 ≤ (waitFld c w).at_ ∧ (waitFld c w).at_ < (coreBase c + 0x340) * 8 := by
  unfold waitFld
  have h6 : waitIdx w < 64 := Nat.mod_lt _ (by decide)
  split
  · simp only [F.CO_PA_COUNT]
    omega
  · simp only [F.CO_BT_COUNT]
    omega

theorem index_at (c : CoreId) : (F.CO_SEQ_STAT_INDEX c).at_ = coreBase c * 8 + 16 := by
  simp [F.CO_SEQ_STAT_INDEX]
theorem stall_at (c : CoreId) : (F.CO_SEQ_STAT_STALL c).at_ = coreBase c * 8 + 2 := by
  simp [F.CO_SEQ_STAT_STALL]

/-- A remap table entry is no core register. -/
theorem slotCore_congr {s t : State} (x : SlotId) (h : rd t (remapFld x.cluster x.slot.val) = rd s (remapFld x.cluster x.slot.val)) :
    slotCore t x = slotCore s x := by
  unfold slotCore
  dsimp only
  rw [h]

theorem remapFld_lt (c : CoreId) (x : SlotId) {a : Nat} (h1 : coreBase c * 8 ≤ a) (h2 : a < (coreBase c + 0x1000) * 8) :
    (remapFld x.cluster x.slot.val).at_ ≠ a := by
  obtain ⟨⟨d, hd⟩, ⟨k, hk⟩, ⟨j, hj⟩⟩ := c
  obtain ⟨⟨d', hd'⟩, ⟨k', hk'⟩, ⟨j', hj'⟩⟩ := x
  simp only [remapFld, clusterBase, coreBase, SlotId.cluster] at *
  omega

/-- Execution continues at an index: INDEX and STALL alone are written, and the core's front is timed anew. -/
theorem goTo_spec (s : State) (c : CoreId) (i : Nat) :
    SeqOnly s (goTo s c i) ∧ (goTo s c i).posts = s.posts ∧ rd (goTo s c i) (F.CO_SEQ_STAT_INDEX c) = i % 2 ^ 12
      ∧ rd (goTo s c i) (F.CO_SEQ_STAT_STALL c) = 0 ∧ RegsKept s (goTo s c i) [F.CO_SEQ_STAT_INDEX c, F.CO_SEQ_STAT_STALL c]
      ∧ core (goTo s c i) c = { core s c with since := setAt (core s c).since 0 s.stallClock }
      ∧ ∀ d, d ≠ c → core (goTo s c i) d = core s d := by
  refine ⟨⟨_, _, s.posts, rfl⟩, rfl, ?_, ?_, ?_, ?_, ?_⟩
  · simp only [goTo, wrAll_cons, wrAll_nil]
    rw [rd_wr_ne _ _ (by rw [index_at, stall_at]; omega), rd_wr_same]
    rfl
  · simp only [goTo, wrAll_cons, wrAll_nil, rd_wr_same]
    rfl
  · intro f hf
    simp only [List.map_cons, List.map_nil, List.mem_cons, List.not_mem_nil, or_false, not_or] at hf
    simp only [goTo, wrAll_cons, wrAll_nil]
    rw [rd_wr_ne _ _ hf.2, rd_wr_ne _ _ hf.1, rd_setCore]
  · simp only [goTo, wrAll_cons, wrAll_nil, core_wr, core_setCore_same]
  · intro d h
    simp only [goTo, wrAll_cons, wrAll_nil, core_wr, core_setCore_ne _ _ h]

/-- A sequencer instruction's flow from what its effect left: the wait taken, own fields written, the next place used. -/
theorem flowed_of {s u : State} {c : CoreId} {w i : Nat} {own : List Fld} (hu : SeqOnly s u)
    (hp : u.posts = s.posts) (hc : core u c = { core s c with seq := (core s c).seq + 1 })
    (hd : ∀ d, d ≠ c → core u d = core s d) (hw : rd u (waitFld c w) = waitLeft s c w)
    (hr : RegsKept s u (waitFld c w :: own))
    (ho : ∀ f ∈ own, coreBase c * 8 ≤ f.at_ ∧ f.at_ < (coreBase c + 0x1000) * 8) :
    Flowed s (makePost (goTo u c i) c w) c w i own := by
  obtain ⟨g0, g1, g2, g3, g4, g5, g6⟩ := goTo_spec u c i
  have hwf := waitFld_ge c w
  have hslot : ∀ x, slotCore (goTo u c i) x = slotCore s x := by
    intro x
    refine slotCore_congr x ?_
    have hne : ∀ a, coreBase c * 8 ≤ a → a < (coreBase c + 0x1000) * 8 → (remapFld x.cluster x.slot.val).at_ ≠ a :=
      fun a h1 h2 => remapFld_lt c x h1 h2
    rw [g4 _ (by
      simp only [List.map_cons, List.map_nil, List.mem_cons, List.not_mem_nil, or_false, not_or]
      exact ⟨hne _ (by rw [index_at]; omega) (by rw [index_at]; omega),
        hne _ (by rw [stall_at]; omega) (by rw [stall_at]; omega)⟩)]
    refine hr _ ?_
    simp only [List.map_cons, List.mem_cons, List.mem_map, not_or, not_exists, not_and]
    exact ⟨hne _ (by omega) (by omega), fun f hf e => hne _ (ho f hf).1 (ho f hf).2 e.symm⟩
  have hclk : u.stallClock = s.stallClock := by
    obtain ⟨_, _, _, rfl⟩ := hu
    rfl
  have hseq : SeqOnly s (makePost (goTo u c i) c w) := (hu.trans g0).trans (seqOnly_makePost _ _ _)
  refine ⟨?_, ?_, ?_, ?_, ?_, ?_, ?_, ?_, hseq.eq⟩
  · rw [rd_makePost, g2]
  · rw [rd_makePost, g3]
  · rw [rd_makePost, g4 _ (by
      simp only [List.map_cons, List.map_nil, List.mem_cons, List.not_mem_nil, or_false, not_or, index_at, stall_at]
      omega), hw]
  · exact makePost_posts_congr w (g1.trans hp) hslot
  · rw [core_makePost, g5, hc, hclk]
    rfl
  · intro d h
    rw [core_makePost, g6 d h, hd d h]
  · intro k
    rw [hseq.mem]
  · intro f hf
    simp only [List.map_cons, List.mem_cons, not_or] at hf
    rw [rd_makePost, g4 f (by simp [hf.1, hf.2.1])]
    exact hr f (by simp only [List.map_cons, List.mem_cons, not_or]; exact ⟨hf.2.2.1, hf.2.2.2⟩)

/-- The wait taken and the next place used: what the flow of an instruction without a field of its own needs. -/
theorem taken_spec (s : State) (c : CoreId) (w : Nat) :
    SeqOnly s (nextSeq (takeWait s c w) c) ∧ (nextSeq (takeWait s c w) c).posts = s.posts
      ∧ core (nextSeq (takeWait s c w) c) c = { core s c with seq := (core s c).seq + 1 }
      ∧ (∀ d, d ≠ c → core (nextSeq (takeWait s c w) c) d = core s d)
      ∧ rd (nextSeq (takeWait s c w) c) (waitFld c w) = waitLeft s c w
      ∧ RegsKept s (nextSeq (takeWait s c w) c) [waitFld c w] := by
  have hcore : ∀ d, core (takeWait s c w) d = core s d := by
    intro d
    rw [takeWait_eq]
    split <;> rfl
  refine ⟨?_, ?_, ?_, ?_, ?_, ?_⟩
  · refine (seqOnly_takeWait s c w).trans ?_
    exact ⟨_, _, (takeWait s c w).posts, rfl⟩
  · show (takeWait s c w).posts = s.posts
    rw [takeWait_eq]
    split <;> rfl
  · simp only [nextSeq, core_setCore_same, hcore]
  · intro d h
    simp only [nextSeq, core_setCore_ne _ _ h, hcore]
  · simp only [nextSeq, rd_setCore]
    exact rd_takeWait_same s c w
  · intro f hf
    simp only [nextSeq, rd_setCore]
    exact rd_takeWait_ne s c w (by simpa using hf)

end Sys2Proof.Machine
end

