-- ==== Sys2Proof/Laws/Stores.lean ====
section
/-!
SUPPORT. What a store does, once: which fields it may change, and which bytes of memory.
-/

namespace Sys2Proof.Machine

open Sys2Proof

/-- A store changes memory, its keys and poison marks, the window lines taken back from the host, and what that counts. -/
def StoreOnly (s t : State) : Prop :=
  ∃ m l p r x f b o, t = { s with
    mem := m, lineKeys := l, poison := p, regs := r, events := { s.events with csatAt := x }, fired := f, biWait := b, replies := o }

theorem StoreOnly.refl (s : State) : StoreOnly s s := ⟨s.mem, s.lineKeys, s.poison, s.regs, s.events.csatAt, s.fired, s.biWait, s.replies, rfl⟩

theorem StoreOnly.trans {s t u : State} (h : StoreOnly s t) (k : StoreOnly t u) : StoreOnly s u := by
  obtain ⟨_, _, _, _, _, _, _, _, rfl⟩ := h
  obtain ⟨m, l, p, r, x, f, b, o, rfl⟩ := k
  exact ⟨m, l, p, r, x, f, b, o, rfl⟩

theorem StoreOnly.of_regOnly {s t : State} (h : RegOnly s t) : StoreOnly s t := by
  obtain ⟨r, x, f, rfl⟩ := h
  exact ⟨s.mem, s.lineKeys, s.poison, r, x, f, s.biWait, s.replies, rfl⟩

/-- The bytes stored change memory and its line keys alone. -/
theorem stByte_eq (rs : List PrRegion) (s : State) (a : Nat) (b : Byte) :
    ∃ m l, stByte rs s a b = { s with mem := m, lineKeys := l } := by
  unfold stByte
  split
  · exact ⟨s.mem, s.lineKeys, rfl⟩
  · next k hk =>
    dsimp only
    split
    · exact ⟨_, s.lineKeys, rfl⟩
    · unfold rekeyLine
      generalize List.range 256 = l
      exact ⟨_, _, rfl⟩

theorem stBytesFrom_eq (rs : List PrRegion) (bs : List Byte) (s : State) (a : Nat) :
    ∃ m l, stBytesFrom rs s a bs = { s with mem := m, lineKeys := l } := by
  induction bs generalizing s a with
  | nil => exact ⟨s.mem, s.lineKeys, rfl⟩
  | cons b bs ih =>
    obtain ⟨m, l, h⟩ := stByte_eq rs s a b
    obtain ⟨m', l', h'⟩ := ih (stByte rs s a b) (a + 1)
    refine ⟨m', l', ?_⟩
    simp only [stBytesFrom]
    rw [h', h]

theorem clearPoison_eq (s : State) (a n : Nat) : ∃ p, clearPoison s a n = { s with poison := p } := by
  unfold clearPoison
  split
  · exact ⟨s.poison, rfl⟩
  · exact ⟨_, rfl⟩

theorem storeOnly_stPlain (s : State) (a : Nat) (bs : List Byte) : StoreOnly s (stPlain s a bs) := by
  unfold stPlain
  obtain ⟨m, l, h⟩ := stBytesFrom_eq (prRegions s) bs s a
  obtain ⟨p, h'⟩ := clearPoison_eq (stBytesFrom (prRegions s) s a bs) a bs.length
  rw [h', h]
  exact ⟨m, l, p, s.regs, s.events.csatAt, s.fired, s.biWait, s.replies, rfl⟩

theorem storeOnly_snoopLine (a n : Nat) (s : State) (line : Nat) : StoreOnly s (snoopLine a n s line) := by
  obtain ⟨b, o, h⟩ := snoopLine_eq a n s line
  exact StoreOnly.trans ⟨s.mem, s.lineKeys, s.poison, s.regs, s.events.csatAt, s.fired, b, o, rfl⟩ (.of_regOnly h)

theorem storeOnly_foldl_snoopLine (a n : Nat) (l : List Nat) (s : State) : StoreOnly s (l.foldl (snoopLine a n) s) := by
  induction l generalizing s with
  | nil => exact .refl s
  | cons x l ih => exact (storeOnly_snoopLine a n s x).trans (ih _)

/-- A store of the module (11 R319, R343; 15 R451). -/
theorem storeOnly_stBytes (s : State) (a : Nat) (bs : List Byte) : StoreOnly s (stBytes s a bs) := by
  unfold stBytes
  exact (storeOnly_foldl_snoopLine _ _ _ s).trans (storeOnly_stPlain _ _ _)

/-- Where an address lies depends on the remap table, the generation and the pair alone. -/
theorem physKey_congr {s t : State} (hp : t.pair = s.pair) (hg : genCur t = genCur s)
    (hr : ∀ x : SlotId, rd t (remapFld x.cluster x.slot.val) = rd s (remapFld x.cluster x.slot.val)) (a : Nat) :
    physKey t a = physKey s a := by
  have hv : ∀ b, viewRoute t b = viewRoute s b := by
    intro b
    unfold viewRoute
    rw [hp, hg]
  have hs : ∀ x, slotCore t x = slotCore s x := by
    intro x
    unfold slotCore
    dsimp only
    rw [hr]
  unfold physKey
  split <;> simp [hv, hs]

/-- The addresses of the remap table and of the generation registers are those of no counter that a store may advance. -/
theorem physKey_stByte (rs : List PrRegion) (s : State) (a : Nat) (b : Byte) (x : Nat) :
    physKey (stByte rs s a b) x = physKey s x := by
  obtain ⟨m, l, h⟩ := stByte_eq rs s a b
  rw [h]
  rfl

/-- A line put under another key keeps the bytes of every other line. -/
theorem memByte_rekeyLine (s : State) (k a now : Nat) {j : Nat} (h : j / 256 ≠ k / 256) :
    memByte (rekeyLine s k a now).mem j = memByte s.mem j := by
  have key : ∀ (l : List Nat) (m : List Host.Cell), (∀ i ∈ l, i < 256) →
      memByte (l.foldl (fun m i => memPut m (k / 256 * 256 + i)
        (Config.cipherByte (mapGet 0 s.lineKeys (k / 256)) now (a - k % 256 + i) (memByte m (k / 256 * 256 + i)))) m) j = memByte m j := by
    intro l
    induction l with
    | nil => intro m _; rfl
    | cons i l ih =>
      intro m hl
      rw [List.foldl_cons, ih _ (fun x hx => hl x (List.mem_cons_of_mem _ hx))]
      have := hl i (List.mem_cons_self ..)
      exact memByte_memPut_ne _ _ (by omega)
  have hr : ∀ i ∈ List.range 256, i < 256 := fun i hi => List.mem_range.1 hi
  unfold rekeyLine
  revert hr
  generalize List.range 256 = l
  intro hr
  exact key l s.mem hr

theorem stByte_line (rs : List PrRegion) (s : State) (a : Nat) (b : Byte) {k : Nat}
    (h : (physKey s a).map (fun j => j / 256) ≠ some (k / 256)) : memByte (stByte rs s a b).mem k = memByte s.mem k := by
  unfold stByte
  split
  · rfl
  · next j hj =>
    rw [hj] at h
    simp only [Option.map_some, ne_eq, Option.some.injEq] at h
    have hne : k ≠ j := fun e => h (by rw [e])
    dsimp only
    split
    · exact memByte_memPut_ne _ _ hne
    · rw [memByte_memPut_ne _ _ hne]
      exact memByte_rekeyLine _ _ _ _ (fun e => h e.symm)

theorem stBytesFrom_line (rs : List PrRegion) (bs : List Byte) (s : State) (a k : Nat)
    (h : ∀ i, i < bs.length → (physKey s (a + i)).map (fun j => j / 256) ≠ some (k / 256)) :
    memByte (stBytesFrom rs s a bs).mem k = memByte s.mem k := by
  induction bs generalizing s a with
  | nil => rfl
  | cons b bs ih =>
    simp only [stBytesFrom]
    rw [ih]
    · exact stByte_line rs s a b (by simpa using h 0 (by simp))
    · intro i hi
      rw [physKey_stByte, show a + 1 + i = a + (i + 1) by omega]
      exact h (i + 1) (by simpa using hi)

/-- Where nothing is or was protected, a byte stored changes that byte alone. -/
theorem stByte_byte (s : State) (a : Nat) (b : Byte) (hk : s.lineKeys = []) :
    (stByte [] s a b).lineKeys = [] ∧ ∀ k, physKey s a ≠ some k → memByte (stByte [] s a b).mem k = memByte s.mem k := by
  unfold stByte
  split
  · exact ⟨hk, fun k _ => rfl⟩
  · next j hj =>
    dsimp only
    rw [if_pos (by rw [hk]; rfl)]
    refine ⟨hk, fun k h => memByte_memPut_ne _ _ (fun e => h (by rw [hj, e]))⟩

theorem stBytesFrom_byte (bs : List Byte) (s : State) (a : Nat) (hk : s.lineKeys = []) :
    ∀ k, (∀ i, i < bs.length → physKey s (a + i) ≠ some k) → memByte (stBytesFrom [] s a bs).mem k = memByte s.mem k := by
  induction bs generalizing s a with
  | nil => intro k _; rfl
  | cons b bs ih =>
    intro k h
    simp only [stBytesFrom]
    rw [ih _ _ (stByte_byte s a b hk).1]
    · exact (stByte_byte s a b hk).2 k (by simpa using h 0 (by simp))
    · intro i hi
      rw [physKey_stByte, show a + 1 + i = a + (i + 1) by omega]
      exact h (i + 1) (by simpa using hi)

/-- A plain store changes the bytes of its run alone. -/
theorem stPlain_within (s : State) (a : Nat) (bs : List Byte) : StoresWithin s (stPlain s a bs) [(a, bs.length)] := by
  unfold stPlain
  refine ⟨?_, ?_⟩
  · intro k h
    rw [clearPoison_mem]
    exact stBytesFrom_line _ _ _ _ _ (h _ (List.mem_singleton.2 rfl))
  · intro hr hk k h
    rw [clearPoison_mem, hr]
    exact stBytesFrom_byte _ _ _ hk _ (h _ (List.mem_singleton.2 rfl))

/-- Fields that no store writes: all but the counter of window lines taken back and what its saturation writes. -/
theorem rd_snoopLine (a n : Nat) (s : State) (line : Nat) {g : Fld} (hf : g.at_ ≠ (F.HA_CNT_COUNT 3).at_) (h : g.at_ ∉ satFields) :
    rd (snoopLine a n s line) g = rd s g := by
  unfold snoopLine
  split
  · rfl
  · split
    · rfl
    · rw [rd_bump_ne _ _ _ hf h]
      rfl

theorem rd_foldl_snoopLine (a n : Nat) (l : List Nat) (s : State) {g : Fld} (hf : g.at_ ≠ (F.HA_CNT_COUNT 3).at_) (h : g.at_ ∉ satFields) :
    rd (l.foldl (snoopLine a n) s) g = rd s g := by
  induction l generalizing s with
  | nil => rfl
  | cons x l ih => rw [List.foldl_cons, ih, rd_snoopLine a n s x hf h]

theorem rd_stPlain (s : State) (a : Nat) (bs : List Byte) (g : Fld) : rd (stPlain s a bs) g = rd s g := by
  unfold stPlain
  obtain ⟨m, l, h⟩ := stBytesFrom_eq (prRegions s) bs s a
  obtain ⟨p, h'⟩ := clearPoison_eq (stBytesFrom (prRegions s) s a bs) a bs.length
  rw [h', h]
  rfl

/-- A store leaves every register but HA_CNT_3 and what its saturation writes. -/
theorem rd_stBytes (s : State) (a : Nat) (bs : List Byte) {g : Fld} (hf : g.at_ ≠ (F.HA_CNT_COUNT 3).at_) (h : g.at_ ∉ satFields) :
    rd (stBytes s a bs) g = rd s g := by
  unfold stBytes
  rw [rd_stPlain, rd_foldl_snoopLine _ _ _ _ hf h]

/-- Taking window lines back from the host moves no address. -/
theorem physKey_foldl_snoopLine (b n : Nat) (l : List Nat) (s : State) (a : Nat) :
    physKey (l.foldl (snoopLine b n) s) a = physKey s a := by
  refine physKey_congr ?_ ?_ ?_ a
  · obtain ⟨_, _, _, _, _, _, _, _, h⟩ := storeOnly_foldl_snoopLine b n l s
    rw [h]
  · refine rd_foldl_snoopLine b n l s ?_ ?_
    · simp [F.UD_GEN_CUR, F.HA_CNT_COUNT]
    · simp [satFields, F.UD_GEN_CUR, F.EVC_CSAT_VALID, F.EVC_CSAT_MEM, F.EVC_CSAT_ADDR, F.EVC_CNT_COUNT]
  · intro x
    refine rd_foldl_snoopLine b n l s ?_ ?_
    · simp only [remapFld, clusterBase, F.HA_CNT_COUNT, SlotId.cluster]
      omega
    · simp only [satFields, remapFld, clusterBase, SlotId.cluster, F.EVC_CSAT_VALID, F.EVC_CSAT_MEM, F.EVC_CSAT_ADDR, F.EVC_CNT_COUNT,
        List.mem_cons, List.not_mem_nil, or_false, not_or]
      omega

theorem prRegions_foldl_snoopLine (b z : Nat) (l : List Nat) (s : State) : prRegions (l.foldl (snoopLine b z) s) = prRegions s := by
  have hk : (l.foldl (snoopLine b z) s).keySlots = s.keySlots := by
    obtain ⟨_, _, _, _, _, _, _, _, h⟩ := storeOnly_foldl_snoopLine b z l s
    rw [h]
  have hrd : ∀ g : Fld, 8 * 0x50000 ≤ g.at_ → g.at_ < 8 * 0x60000 → rd (l.foldl (snoopLine b z) s) g = rd s g := by
    intro g h1 h2
    refine rd_foldl_snoopLine b z l s ?_ ?_
    · simp only [F.HA_CNT_COUNT]
      omega
    · simp only [satFields, F.EVC_CSAT_VALID, F.EVC_CSAT_MEM, F.EVC_CSAT_ADDR, F.EVC_CNT_COUNT, List.mem_cons,
        List.not_mem_nil, or_false, not_or]
      omega
  have h1 : ∀ n ∈ List.range 16, rdb (l.foldl (snoopLine b z) s) (F.SEC_PR_CTL_EN n) = rdb s (F.SEC_PR_CTL_EN n) := by
    intro n hn
    have := List.mem_range.1 hn
    simp only [rdb]
    rw [hrd]
    · simp only [F.SEC_PR_CTL_EN]
      omega
    · simp only [F.SEC_PR_CTL_EN]
      omega
  unfold prRegions
  rw [List.filter_congr h1]
  refine List.map_congr_left ?_
  intro n hn
  have := List.mem_range.1 (List.mem_filter.1 hn).1
  rw [hk, hrd (F.SEC_PR_BASE_ADDR n), hrd (F.SEC_PR_LIMIT_ADDR n), hrd (F.SEC_PR_CTL_KEY_SLOT n)]
  all_goals
    simp only [F.SEC_PR_BASE_ADDR, F.SEC_PR_LIMIT_ADDR, F.SEC_PR_CTL_KEY_SLOT]
    omega

/-- A store changes the bytes of its run alone (11 R319, R343). -/
theorem stBytes_within (s : State) (a : Nat) (bs : List Byte) : StoresWithin s (stBytes s a bs) [(a, bs.length)] := by
  unfold stBytes
  generalize hl : windowLines s a bs.length = l
  have hm := foldl_snoopLine_mem a bs.length l s
  have hk := foldl_snoopLine_lineKeys a bs.length l s
  obtain ⟨h1, h2⟩ := stPlain_within (l.foldl (snoopLine a bs.length) s) a bs
  refine ⟨?_, ?_⟩
  · intro k h
    rw [h1 k, hm]
    intro r hr i hi
    rw [physKey_foldl_snoopLine]
    exact h r hr i hi
  · intro hp hlk k h
    rw [h2 (by rw [prRegions_foldl_snoopLine, hp]) (by rw [hk, hlk]) k, hm]
    intro r hr i hi
    rw [physKey_foldl_snoopLine]
    exact h r hr i hi

end Sys2Proof.Machine
end

