-- ==== Sys2Proof/Machine/Library.lean ====
section
/-!
DEFINITION. The accuracy that the library tables have by 06 R191, as a proposition about the coefficients of the firmware image.
-/

namespace Sys2Proof.Machine

open Sys2Proof

/-- Table func of an image stays within tol of f: wherever the argument y is finite and in dom, the evaluation of R190, from the argument as
a K32 code to the result, is finite and lies within tol (f y) of f y. normal restricts this to normal results. -/
def TableWithin (func image : Nat) (f : ℝ → ℝ) (dom : ℝ → Prop) (tol : ℝ → ℝ) (normal : Bool) : Prop :=
  ∀ (y : Nat) (sy : Bool) (ny dy : Nat), y < 2 ^ 32 → decodeFloat .k32 y = .fin sy ny dy →
    let r := (evalTable false (ftableOf (libTable func image)) y).1
    let v : ℝ := (if sy then -1 else 1) * (ny : ℝ) / dy
    dom v → (normal = true → 0 < bits r 22 9 ∧ bits r 22 9 < 511) →
      ∃ (sr : Bool) (nr dr : Nat), decodeFloat .k32 r = .fin sr nr dr ∧
        |(if sr then -1 else 1) * (nr : ℝ) / dr - f v| ≤ tol (f v)

/-- The bounds of R191's table hold of an image's coefficients. They are the manual's guarantee of the image; nothing in the model rests on
them, and a statement about the value of a library function takes them as a premise. Log 22. -/
def LibraryAccurate (image : Nat) : Prop :=
  let sig : ℝ → ℝ := fun y => 1 / (1 + Real.exp (-y))
  let pdf : ℝ → ℝ := fun y => Real.exp (-(y ^ 2) / 2) / Real.sqrt (2 * Real.pi)
  let cdf : ℝ → ℝ := fun y => ∫ t in Set.Iic y, pdf t
  let all : ℝ → Prop := fun _ => True
  let pos : ℝ → Prop := fun y => 0 < y
  let rel : ℕ → ℝ → ℝ := fun n x => |x| / 2 ^ n
  let abso : ℕ → ℝ → ℝ := fun n _ => 1 / 2 ^ n
  TableWithin 1 image Real.exp (fun y => |y| ≤ 1) (rel 21) false
    ∧ TableWithin 1 image Real.exp (fun y => |y| ≤ 64) (rel 17) true
    ∧ TableWithin 2 image (fun y => (2 : ℝ) ^ y) all (rel 21) true
    ∧ TableWithin 3 image Real.log (fun y => 1 / 2 ≤ y ∧ y ≤ 2) (abso 21) false
    ∧ TableWithin 3 image Real.log (fun y => 0 < y ∧ ¬ (1 / 2 ≤ y ∧ y ≤ 2)) (rel 21) false
    ∧ TableWithin 4 image (fun y => 1 / y) all (rel 22) true
    ∧ TableWithin 5 image (fun y => 1 / Real.sqrt y) pos (rel 22) false
    ∧ TableWithin 6 image Real.sqrt pos (rel 22) false
    ∧ TableWithin 7 image (fun y => y * cdf y) all (abso 20) false
    ∧ TableWithin 8 image (fun y => cdf y + y * pdf y) all (abso 20) false
    ∧ TableWithin 9 image (fun y => y * sig y) all (abso 20) false
    ∧ TableWithin 10 image (fun y => sig y * (1 + y * (1 - sig y))) all (abso 19) false
    ∧ TableWithin 11 image sig all (abso 22) false
    ∧ TableWithin 12 image (fun y => sig y * (1 - sig y)) all (abso 22) false
    ∧ TableWithin 13 image Real.tanh all (abso 21) false
    ∧ TableWithin 14 image (fun y => 1 - Real.tanh y ^ 2) all (abso 21) false

end Sys2Proof.Machine
end

