-- ==== Sys2Proof/Tests/Slice0.lean ====
section
/-!
SUPPORT. Tests of the model against values the spec gives, and witnesses for the hypotheses of its statements.
-/

namespace Sys2Proof.Tests

open Sys2Proof Sys2Proof.Machine

-- one kernel evaluation at a time
set_option Elab.async false

/-- Core CD_0.CL_0.CO_0. -/
def c0 : CoreId := ⟨0, 0, 0⟩

/-- The reset state with a stream that runs in core c0. -/
def coreRuns (ws : List Nat) : State :=
  wr (setCore State.reset c0 { occupied := true, instrs := ws }) (F.CO_SEQ_STAT_STATE c0) 1


theorem witness_StepRunsFront :
    (let s : State := { State.reset with powered := true }
     decide (State.reset.pending = []) && !State.reset.powered && decide (s.pending = []) && s.powered
      && decide (Room s (F.PWR_CNT_COUNT 1)) && decide (rd s F.TB_ADJ_OFFSET = 0)
      && decide ({ State.reset with pending := [.nop c0] }.pending = [Instr.nop c0])) = true := by decide +kernel

theorem test_reset_inv_regs : (keysRise State.reset.regs && Memory.wf State.reset.mem && keysRise State.reset.cores
    && keysRise State.reset.clusters) = true := by decide

theorem witness_StepKeepsInv :
    (let s : State := { State.reset with pending := [.powerOn] }
     keysRise s.regs && Memory.wf s.mem && keysRise s.cores && keysRise s.clusters
      && (match step s with | .next t => t.powered | _ => false)) = true := by decide +kernel

theorem smoke_flit : (Instr.flitReceive 0 (List.replicate 255 0)).WellFormed = false := by decide +kernel
theorem smoke_nak : (Instr.nakReceive 0 (List.replicate 257 0)).WellFormed = false := by decide +kernel
theorem smoke_hold : (Instr.holdReceive 0 []).WellFormed = false := by decide
theorem smoke_ident : (Instr.identReceive 0 []).WellFormed = false := by decide
theorem smoke_control : (Instr.controlRetire 0 []).WellFormed = false := by decide
theorem smoke_conf : (Instr.portTrainDone 0 0 0 (List.replicate 36 0)).WellFormed = false := by decide
theorem smoke_entry : (Instr.entryTake 0 (List.replicate 63 0)).WellFormed = false := by decide
theorem smoke_line : (Instr.cxlMemWrite 0 (List.replicate 65 0)).WellFormed = false := by decide
theorem smoke_ide : (Instr.ideKm .link (List.replicate 31 0) true).WellFormed = false := by decide
theorem smoke_key : (Instr.keySet .doe 0 (List.replicate 32 0)).WellFormed = false := by decide
theorem smoke_recover :
    ((Instr.fwRecoverBegin .mailbox (2 :: List.replicate 15 0)).WellFormed || (Instr.fwRecoverData .mailbox [2]).WellFormed
      || (Instr.fwRecoverEnd .sideband (1 :: List.replicate 15 0)).WellFormed) = false := by decide
theorem smoke_formed :
    ((Instr.fwRecoverBegin .mailbox (1 :: List.replicate 15 0)).WellFormed && (Instr.entryTake 0 (List.replicate 64 0)).WellFormed
      && (Instr.flitReceive 0 (List.replicate 256 0)).WellFormed) = true := by decide +kernel

theorem witness_RegisterAccessesReadAndWrite :
    (let shut := (List.range 8).foldl (fun (t : State) j => wr t (remapFld c0.cluster j) 15) { State.reset with retired := [0x1000] }
     !accessOk 2 4 && !accessOk 4 8 && accessOk 8 8 && (regAt 0x30).isNone && decide (Room .reset F.ID_RSVD_WR_CNT_COUNT)
      && barServed .reset 0x30 && !barServed (wr .reset F.SEC_BOOT_STAGE 4) 0x20000
      && decide (((regAt 0x30010).map (fun r => (r.desc.bits, r.desc.reg, r.off))) = some (32, .TB_SYNC_CFG, 0x30010))
      && !closedWindow .reset 0x30010
      && decide (((regAt 0x30000).map (fun r => (r.desc.bits, r.off))) = some (64, 0x30000)) && decide (foldFab 0x30000 = 0x30000)
      && decide (((regAt 0x30004).map (fun r => (r.desc.bits, r.off))) = some (64, 0x30000)) && decide (foldFab 0x30004 ≠ 0x30000)
      && (regAt 0x30010).all (fun r => r.desc.bits == 32) && (inCluster 0x1000000).isSome
      && [(0x11014, Reg.CMD_SQ_TAIL), (0x11020, .CMD_CQ_HEAD)].all (fun e => (regAt e.1).any (fun r => r.desc.reg == e.2) && (inCluster e.1).isNone)
      && closedWindow shut 0x1000000) = true := by decide +kernel

theorem witness_RegistersWithRulesOfTheirOwn :
    (let s := State.reset
     let runs := { s with run := some { ring := 0, seq := 1, step := 0 } }
     let shut := (List.range 8).foldl (fun (t : State) j => wr t (remapFld c0.cluster j) 15) { s with retired := [0x1000] }
     (!closedWindow s (F.CO_FMT_FLAGS_OVF c0).word && closedWindow shut (F.CO_FMT_FLAGS_OVF c0).word
       && [0, 1, 2].all (fun v => rd (wr s (clStateFld c0.cluster) v) (clStateFld c0.cluster) == v)
       && !s.boot.released && !closedWindow s (F.FP_CRED_LIMIT 3 0).word && decide (rd s F.ID_FLT_NEXT_NEXT < 16)
       && closedWindow { s with partCmds := [(0x52, 0x4001, 0, 1)] } (F.UD_FLAGS_OVF 1).word && s.run.isNone && runs.run.isSome
       && badDim 4 && !badDim 3 && !badDim 15 && decide (portState (wr s (F.FP_STAT_STATE 3) 4) 3 ≠ 0) && decide (portState s 3 = 0)
       && creditOk s 3 0 8 && !creditOk s 3 0 7 && regionOk s 0 0 false && !regionOk s 0 0 true && !regionOk runs 0 0 false
       && regionOk { s with keySlots := [(2, 5)] } 0 2 true && boundsOpen s 0 && !boundsOpen (wr s (F.SEC_PR_CTL_EN 0) 1) 0
       && (boundChannels s).isEmpty && !(boundChannels (wr s (F.FAB_BIND_W0_KIND 0) 1)).isEmpty
       && decide (rd s (F.CO_SEQ_STAT_STATE c0) ≠ 1) && decide (rd (coreRuns []) (F.CO_SEQ_STAT_STATE c0) = 1)) = true) := by decide +kernel

theorem witness_NarrowCodesNumbers :
    (decide (0x80 < 2 ^ Fmt.width .k8m) && decide (0x80 = 2 ^ (Fmt.width .k8m - 1)) && decide (7 < 2 ^ Fmt.width .k4)
      && decide (7 ≠ 2 ^ (Fmt.width .k4 - 1)) && decide (0xFE < 255)) = true := by decide
/-- 02 R45's table. -/
theorem test_k8m_max : decodeFloat .k8m 0x7F = .fin false 480 1 := by decide +kernel
theorem test_k16_one : (match decodeFloat .k16 0x3F00 with | .fin false n d => n == d | _ => false) = true := by decide +kernel

theorem witness_SequencerPlainInstructionsFlow :
    [0, 1, 2, 3].all (fun op => waitMet (coreRuns [op]) c0 op && decide (FrontIs (coreRuns [op]) c0 op op)
      && decide (outstanding (coreRuns [op]) c0 = [])) = true ∧
    (let s := setCore (coreRuns [2]) c0 { Machine.core (coreRuns [2]) c0 with vq := [{}] }
     (decide (FrontIs s c0 2 2) && decide (outstanding s c0 ≠ [])) = true) ∧
    [0, 1, 2, 3, 4, 5, 6, 7, 9, 10, 11].all (fun op => !waitMet (coreRuns [op + 2 ^ 23]) c0 (op + 2 ^ 23)
      && decide (FrontIs (coreRuns [op + 2 ^ 23]) c0 op (op + 2 ^ 23))) = true := by decide
theorem test_jump_target : (match exec (.jump c0) (coreRuns [3 + 2 ^ 64 * 7]) with
    | .next t => rd t (F.CO_SEQ_STAT_INDEX c0) | _ => 0) = 7 := by decide

theorem witness_LapCountersAndAddressBases_laps :
    (waitMet (coreRuns [4]) c0 4 && decide (FrontIs (coreRuns [4]) c0 4 4)) = true ∧
    [0, 1, 2, 0xFFFFFFFF].all (fun n =>
      let s := wr (coreRuns [5]) (F.CO_LAP_COUNT c0 0) n
      waitMet s c0 5 && decide (FrontIs s c0 5 5) && rd s (F.CO_LAP_COUNT c0 (bits 5 64 3)) == n) = true := by decide
theorem witness_LapCountersAndAddressBases_bases :
    [6, 7].all (fun op => waitMet (coreRuns [op]) c0 op && decide (FrontIs (coreRuns [op]) c0 op op)) = true := by decide
/-- 04 R110: a span of two units wraps 64 bytes before the base to the last unit. -/
theorem test_ab_add_wraps : (match exec (.abAdd c0) (wrAll (coreRuns [7 + 2 ^ 72 * 2 + 2 ^ 96 * (2 ^ 32 - 64)])
      [(F.CO_AB_CUR_VALUE c0 0, 0x1000), (F.CO_AB_BASE_VALUE c0 0, 0x1000)]) with
    | .next t => rd t (F.CO_AB_CUR_VALUE c0 0) | _ => 0) = 0x1040 := by decide

theorem witness_SplitRecordsTimebase :
    (waitMet (coreRuns [9]) c0 9 && decide (FrontIs (coreRuns [9]) c0 9 9) && rd (coreRuns [9]) (F.CO_SPLIT_NEXT_NEXT c0) == 0) = true := by
  decide

theorem witness_DispatchQueuesOrStops :
    -- a CH_CONST (ENG 3, OPC 3) on an empty queue, on a full one, and an EMIT-like DX (ENG 4, OPC 1) whose base is unmapped
    (decide (frontWord (coreRuns [0x303]) c0 = some 0x303) && engOf 0x303 == 3
      && decide (badOperand (coreRuns [0x303]) c0 0x303 (abValues (coreRuns [0x303]) c0) = none)) = true ∧
    (let s := setCore (coreRuns [0x303]) c0 { Machine.core (coreRuns [0x303]) c0 with vq := List.replicate 16 {} }
     (decide (frontWord s c0 = some 0x303) && (queueOf (Machine.core s c0) 3).length == 16) = true) ∧
    (let s := wr (coreRuns [0x401]) (F.CO_AB_CUR_VALUE c0 0) 0xFFFFFFFFFF80
     (decide (frontWord s c0 = some 0x401) && engOf 0x401 == 4 && decide (badOperand s c0 0x401 (abValues s c0) = some 0)) = true) := by decide

theorem witness_HurdleInstructionsArriveAndWait :
    [1, 2, 3].all (fun m => let w := 8 + 2 ^ 72 * m
      let s := coreRuns [w]
      let v := w + 2 ^ 23
      let q := setCore s c0 { Machine.core s c0 with seq := 1, vq := [{}] }
      decide (frontHurdle s c0 m = some w) && waitMet s c0 w && decide (outstanding s c0 = []) && !(Machine.core s c0).inWait
      && decide (frontHurdle (coreRuns [v]) c0 m = some v) && !waitMet (coreRuns [v]) c0 v
      && decide (frontHurdle q c0 m = some w) && (outstanding q c0).any (fun n => decide (n < (frontEntry q c0 w).seq))
      && !lastLocal s 0 && lastLocal (wrAll s [(F.HD_CFG_SCOPE 0 0, 1), (F.HD_CFG_LOCAL_EXPECT 0 0, 1)]) 0) = true ∧
    (let s := setCore (coreRuns [8 + 2 ^ 72 * 3]) c0 { Machine.core (coreRuns [8 + 2 ^ 72 * 3]) c0 with inWait := true, arrivals := [(0, 5)] }
     let p := (List.range 8).foldl (fun t d => wr t (F.HD_STAT_EPOCH d 0) 6) s
     (decide (frontHurdle s c0 3 = some (8 + 2 ^ 72 * 3)) && (Machine.core s c0).inWait && !hurdlePassed s c0 0 && hurdlePassed p c0 0) = true) := by
  decide

theorem witness_ControlCoreServesCalls :
    (waitMet (coreRuns [10]) c0 10 && decide (FrontIs (coreRuns [10]) c0 10 10)) = true ∧
    (let q : CcReq := { core := c0, entry := {}, routine := 3, arg := 0, done := true }
     let s := setCluster State.reset c0.cluster { ccq := [q, { q with done := false }] }
     let u : State := { s with prog := some { routines := [(c0.cluster.key, 3, 1, 0)] } }
     let full := setCore s c0 { sq := List.replicate 1024 ⟨[], 0, false, none, 0, 4, 0, []⟩ }
     (routineMay c0.cluster (.store 0x200000000000) 1 && !routineMay c0.cluster (.store 0x202000000000) 1
      && routineMay c0.cluster (.data 0x3FFFF) 1 && !routineMay c0.cluster (.data 0x1FFFF) 1 && !routineMay c0.cluster (.data 0x40000) 1
      && routineRoom s c0.cluster [(0, [])] && !routineRoom full c0.cluster [(0, [])]
      && decide (slotCore s ⟨0, 0, 0⟩ = some c0)
      && decide ((cluster s c0.cluster).ccq = [q, { q with done := false }]) && decide (s.prog.isNone)
      && (u.prog.any (fun p => (p.routines.find? (fun e => e.1 == c0.cluster.key && e.2.1 == 3)).any (fun e => e.2.2.1 == 1)))
      && decide ((Machine.core s c0).pend = [])) = true) := by decide +kernel

theorem witness_EndStepHaltsOrFindsResidue :
    (decide (FrontIs (coreRuns [11]) c0 11 11) && waitMet (coreRuns [11]) c0 11 && decide (outstanding (coreRuns [11]) c0 = [])
      && decide (residueAt (coreRuns [11]) c0 = none)
      && decide (residueAt (wr (coreRuns [11]) (F.CO_BT_COUNT c0 63) 1) c0 = some 63)
      && decide (residueAt (wr (coreRuns [11]) (F.CO_PA_LIMIT c0 15) 1) c0 = some 15)
      && (let s := setCore (coreRuns [11]) c0 { Machine.core (coreRuns [11]) c0 with vq := [{}] }
          decide (FrontIs s c0 11 11) && decide (outstanding s c0 ≠ []))
      && decide (occupiedCores (coreRuns [11]) = [c0]) && decide (rd (coreRuns [11]) (F.CO_SEQ_STAT_STATE c0) ≠ 2)
      && [(false, false, false), (false, true, false), (false, false, true), (true, false, false)].all (fun m =>
        let s : State := { wr (coreRuns [11]) (F.CO_SEQ_STAT_STATE c0) 2 with
          run := some { ring := 0, seq := 1, step := 0, program := m.1, committing := m.2.1, commit := m.2.2, started := true } }
        s.run.any (fun r => r.started && !r.halted && r.program == m.1 && r.committing == m.2.1 && r.commit == m.2.2)
          && (occupiedCores s).all (fun c => rd s (F.CO_SEQ_STAT_STATE c) == 2))) = true := by decide +kernel

theorem witness_PostsAndTimeoutsFault :
    (let x : SlotId := ⟨0, 0, 0⟩
     let s : State := { State.reset with posts := [⟨x, false, 63, 1⟩, ⟨x, true, 15, 1⟩] }
     let u := wr s (F.CO_BT_COUNT c0 63) 65535
     let v := wr s (F.CO_PA_LIMIT c0 15) 1
     (decide (slotCore s x = some c0) && decide (rd s (F.CO_BT_COUNT c0 63) + 1 ≤ 65535)
      && decide (65535 < rd u (F.CO_BT_COUNT c0 63) + 1) && decide (slotCore u x = some c0)
      && decide (rd v (F.CO_PA_COUNT c0 15) + 1 ≤ rd v (F.CO_PA_LIMIT c0 15)) && decide (slotCore v x = some c0)
      && decide (slotCore (wr s (remapFld c0.cluster 0) 15) x = none) && decide (rd s (clStateFld x.cluster) = 0)
      && decide (rd (wr s (clStateFld x.cluster) 2) (clStateFld x.cluster) ≠ 0)
      && decide (rd s (F.CO_PA_LIMIT c0 15) < rd s (F.CO_PA_COUNT c0 15) + 1)) = true) := by decide
theorem witness_PostsAndTimeoutsFault_timer :
    (let s : State := { wr (coreRuns [1 + 2 ^ 23]) (F.CO_STALL_LIMIT_LIMIT c0) 1 with stallClock := 1001 }
     (decide (rd s F.ID_REPLAY_PHASE = 0) && decide (8 ≤ rd s F.PWR_STAT_DUTY_MIN) && decide (unmetWait s c0 .seq = some (0, 0))
      && stallOver s c0 0 && !stallOver { s with stallClock := 1000 } c0 0 && decide (unmetWait State.reset c0 .seq = none)
      && decide (rd (wr s F.ID_REPLAY_PHASE 1) F.ID_REPLAY_PHASE ≠ 0)) = true) := by decide

theorem witness_MacAddsAPass :
    (let e : QEntry := { word := 0x101 + 2 ^ 115 * 2 }
     let s := setCore (coreRuns []) c0 { Machine.core (coreRuns []) c0 with mq := [e] }
     let p : Pass := { entry := {}, bank := 1, clear := true, epoch := 0, ffmt := 1, frozen := 0, prior := [], priorSt := 0,
                       priorRm := 0, priorEp := 0, after := [], conv := {}, arith := {}, products := true }
     let u := setMx s c0 { unver := List.replicate 4 p }
     (decide (readyHead s c0 1 (fun w => opc w == 1 && !bit w 121) = some e) && arrayFree s c0 e
      && decide (readyHead u c0 1 (fun w => opc w == 1 && !bit w 121) = some e) && !arrayFree u c0 e
      && decide (rd s F.ID_FLT_NEXT_NEXT < 16)) = true) := by decide +kernel

theorem witness_DepthwisePassReadsTheRing :
    (let e : QEntry := { word := 0x101 + 2 ^ 121, ab := List.replicate 16 0x300000000000 }
     let s := setCore (coreRuns []) c0 { Machine.core (coreRuns []) c0 with mq := [e] }
     let d := dwOf (ldBytes s (e.ab.getD (bits e.word 117 4) 0) 32)
     -- a record of zeros has no output rows, so no tap is read
     (decide (readyHead s c0 1 (fun w => opc w == 1 && bit w 121) = some e) && arrayFree s c0 e
      && (dwReads (windowOf (ldBytes s d.wrec 64)) d).all (fun l => l.isEmpty)) = true) := by decide

theorem witness_PassesRetireAndVerify :
    (let p : Pass := { entry := {}, bank := 1, clear := true, epoch := 0, ffmt := 1, frozen := 2 ^ 128 - 2, prior := [], priorSt := 0,
                       priorRm := 0, priorEp := 0, after := [], conv := {}, arith := {}, products := true,
                       check := checkOf 1 (2 ^ 128 - 2) 32 false (fun i j => (List.replicate 2 ⟨.fin false (i + 2) 1, .fin false 1 1, {}⟩,
                         List.replicate 2 ⟨.fin true (j % 3) 1, .fin false 1 1, {}⟩)) }
     let s := setMx (coreRuns []) c0 { cur := some p }
     let u := setMx (coreRuns []) c0 { unver := [p] }
     let v := setMx (coreRuns []) c0 { unver := [p], refeed := [p] }
     (running s c0 && decide ((Machine.core s c0).mx.cur = some p) && decide ((Machine.core s c0).mx.refeed = [])
      && running u c0 && decide ((Machine.core u c0).mx.unver = [p]) && decide (compareFails p.ffmt p.frozen p.check = (none, none))
      && running v c0 && decide ((Machine.core v c0).mx.refeed = [p])) = true) := by decide +kernel

theorem witness_MismatchRestoresAndRefeeds :
    (let p : Pass := { entry := {}, bank := 3, clear := false, epoch := 0, ffmt := 1, frozen := 2 ^ 128 - 2, prior := [(0, 1)], priorSt := 0,
                       priorRm := 0, priorEp := 0, after := [], conv := {}, arith := {}, products := true,
                       check := checkOf 1 (2 ^ 128 - 2) 32 false (fun _ _ => ([], [])) }
     let s := setMx (coreRuns []) c0 { unver := [p] }
     let u := setMx (coreRuns []) c0 { unver := [{ p with compared := 2 }] }
     let v := setMx (coreRuns []) c0 { cur := some p }
     (running s c0 && decide ((Machine.core s c0).mx.unver = [p]) && decide ((Machine.core s c0).mx.refeed = [])
      && decide (compareFails p.ffmt p.frozen (upset p.check [(0, 5, 1)] [] []) = (some 0, some 5))
      && decide (compareFails p.ffmt p.frozen (upset p.check [(1, 5, 1)] [] []) = (none, none))
      && residueFails .multiply 2 2 3 0 && !residueFails .divide 7 2 3 1 && !bit p.frozen 0 && bit p.frozen 1
      && decide (rd s F.ID_FLT_NEXT_NEXT < 16) && decide (Room s (F.MX_CHK_MISS_COUNT c0)) && decide (rd s (F.MX_CHK_MISS_COUNT c0) < 2)
      && running u c0 && decide ((Machine.core u c0).mx.unver = [{ p with compared := 2 }])
      && running v c0 && decide ((Machine.core v c0).mx.cur = some p)) = true) := by decide +kernel

theorem witness_EmitAndConfigureComplete :
    (let e : QEntry := { word := 0x102 }
     let q : QEntry := { seq := 1, word := 0x201 + 2 ^ 64 * 31 }
     let m : QEntry := { word := 0x101 + 2 ^ 71 * 31 }
     let s := setCore (coreRuns []) c0 { Machine.core (coreRuns []) c0 with mq := [e], tq := [q] }
     let u := setMx (coreRuns []) c0 { emits := [e] }
     let v := setCore (coreRuns []) c0 { Machine.core (coreRuns []) c0 with mq := [m], tq := [q] }
     (decide (readyHead s c0 1 (fun w => opc w == 2) = some e) && bankState (Machine.core s c0) 0 == 0
      && bankState (Machine.core (setMx s c0 { emits := [e] }) c0) 0 == 1
      && decide (readyHead s c0 2 (fun w => opc w == 1) = some q) && decide (readyHead v c0 2 (fun w => opc w == 1) = some q)
      && (Machine.core v c0).mq.any (fun q => decide (q.seq < 1) && opc q.word == 1 && bits q.word 71 5 == 31)
      && running u c0 && decide ((Machine.core u c0).mx.emits = [e]) && decide ((Machine.core u c0).mx.unver = [])
      && decide ((Machine.core u c0).mx.cur = none)) = true) := by decide

theorem witness_ChainTakesAndRetiresVx :
    (let e : QEntry := { word := 0x301 }
     let s := setCore (coreRuns []) c0 { Machine.core (coreRuns []) c0 with vq := [e] }
     let f : VxFlight := { entry := e, vr := [(0, 5)], mask := [], banks := [], store := [], sum := {}, amax := [], rel := 0,
                           elems := 256, handoff := false, writes := [], trow := 0, tcol := 0 }
     let g := { f with handoff := true, hand := [1] }
     let j : PackJob := { entry := e, dma := false, tslot := 0, fmt := 1, pay := 0, hdr := 0, block := 0, left := 1, buf := [], prot := false,
                          tries := 0, done := false }
     let full := setCore s c0 { Machine.core s c0 with ch := { vxs := List.replicate 8 f } }
     let u := setCore (coreRuns []) c0 { Machine.core (coreRuns []) c0 with ch := { vxs := [f] } }
     (decide (readyHead s c0 3 (fun w => opc w == 1) = some e) && vxReady s c0 (vxIns s c0 e)
      && decide (readyHead full c0 3 (fun w => opc w == 1) = some e) && !vxReady full c0 (vxIns full c0 e)
      && g.handoff && !j.dma && decide (0 < j.left) && !handedOver (Machine.core u c0) g && handedOver (Machine.core u c0) { g with hand := [] }
      && running u c0 && decide ((Machine.core u c0).ch.vxs[0]? = some f)) = true) := by decide

theorem witness_ChainConfigurationWrites :
    (let e : QEntry := { word := 0x302 }
     let q : QEntry := { word := 0x303 }
     let s := setCore (coreRuns []) c0 { Machine.core (coreRuns []) c0 with vq := [e] }
     let u := setCore (coreRuns []) c0 { Machine.core (coreRuns []) c0 with vq := [q] }
     (decide (readyHead s c0 3 (fun w => opc w == 2) = some e) && decide (readyHead u c0 3 (fun w => opc w == 3) = some q)) = true) := by decide

/-- A table record of K4: eight symbols of three bits each. -/
def record8 : List Byte := tableRecord 5 .k4 (List.replicate 8 3)
theorem witness_CxLoad :
    (let e : QEntry := { word := 0x502, ab := List.replicate 16 0x1000 }
     let s := stBytes (setCore (coreRuns []) c0 { Machine.core (coreRuns []) c0 with cq := [e] }) 0x1000 record8
     let r := ldBytes s 0x1000 144
     (decide (cxHead s c0 2 = some e) && slotState s c0.cluster 0 == 0 && recordValid r && !identHeld s c0.cluster (leAt r 0 4)
      && decide (readRuns s [(0x1000, 144)] .clean = some (true, s))) = true) := by decide +kernel
theorem witness_TableSlotsFillAndRelease :
    (let q := fun (w : Nat) => setCore (coreRuns []) c0 { Machine.core (coreRuns []) c0 with cq := [{ word := w, ab := List.replicate 16 0x1000 }] }
     let e := fun (w : Nat) => ({ word := w, ab := List.replicate 16 0x1000 } : QEntry)
     let b := 0x501 + 2 ^ 68
     let ready := fun (n : Nat) => wr (q 0x503) (F.CX_SLOT_W0_STATE c0.cluster 0) n
     (decide (cxHead (q b) c0 1 = some (e b)) && slotState (q b) c0.cluster 0 == 0 && decide (Fmt.ofCode (bits b 68 4) = some .k8m)
      && decide (readRuns (q b) [(0x1000, buildLen b)] .clean = some (true, q b)) && !recordValid (ldBytes (q b) 0x1000 144)
      && decide (slotState (ready 2) c0.cluster 0 ≠ 0) && decide (slotState (ready 3) c0.cluster 0 ≠ 2)
      && (match readRuns { q b with poison := [0x10] } [(0x1000, 64)] .clean with | some (ok, _) => !ok | none => false)
      && decide (cxHead (q 0x502) c0 2 = some (e 0x502)) && decide ((cluster (q 0x502) c0.cluster).tabs.length = 16)
      && decide (cxHead (ready 2) c0 3 = some (e 0x503)) && slotState (ready 2) c0.cluster 0 == 2
      && slotState (ready 3) c0.cluster 0 == 3 && slotPins (ready 3) c0.cluster 0 == 0) = true) := by decide

theorem witness_PackerAndExpanderMoveBlocks :
    (let e : QEntry := { word := 0x504 + 2 ^ 68 * 1 }
     let s := wrAll (setCore (coreRuns []) c0 { Machine.core (coreRuns []) c0 with cq := [e] })
       [(F.CX_SLOT_W0_STATE c0.cluster 0, 2), (F.CX_SLOT_W2_FMT c0.cluster 0, 1)]
     let j : PackJob := { entry := e, dma := true, tslot := 0, fmt := 1, pay := 0x2000, hdr := 0x1000, block := 0, left := 0,
                          buf := [7], prot := false, tries := 0, done := false }
     let u := setCore (coreRuns []) c0 { Machine.core (coreRuns []) c0 with packs := [j] }
     let x : ExpEntry := { job := 0, dst := 0x1000, data := [1], pin := none }
     let q : ExpJob := { entry := e, stream := false, desc := [], taken := true, begun := 1, count := 1, drained := 0, tries := 0 }
     let v := setCore (coreRuns []) c0 { Machine.core (coreRuns []) c0 with expq := [x], exps := [q] }
     (decide (cxHead s c0 4 = some e) && decide (slotReason s c0.cluster 0 1 true = none)
      && running u c0 && (packReady (Machine.core u c0)).isSome && j.left == 0 && decide (j.buf.length ≤ 4096)
      && running v c0 && decide ((Machine.core v c0).exps.find? (fun j => j.entry.seq == x.job) = some q)) = true) := by decide

theorem witness_CodecLossless :
    (let lens := List.replicate 8 3
     decide (nsymOf .k4 ≠ 0) && decide (lens.length = nsymOf .k4) && lens.all (fun l => decide (1 ≤ l ∧ l ≤ 12))
      && decide ((lens.map (fun l => 2 ^ (12 - l))).sum = 4096)) = true := by decide
/-- Canonical codes of lengths 2, 1, 3, 3 (10 R292: by length, then by symbol), and a string of three symbols decoded. -/
theorem test_codec_codes :
    (decide (codeBits [2, 1, 3, 3] = [[true, false], [false], [true, true, false], [true, true, true]])
      && decide (decodeSyms (codeBits [2, 1, 3, 3]) 3 3 [true, true, false, false, true, false, false] [] = some ([2, 1, 0], [false]))) = true := by
  decide +kernel
/-- The check value of CRC-32C (02 R42). -/
theorem test_crc : crc32c [0x31, 0x32, 0x33, 0x34, 0x35, 0x36, 0x37, 0x38, 0x39] = 0xE3069283 := by decide +kernel

/-- A descriptor of 128 bytes in HBM with one row of 64 elements, packed strides, by KIND, CODEC, format, row bytes and NSRC. -/
def descBytes (kind codec fmt row nsrc : Nat) : List Byte :=
  [BitVec.ofNat 8 kind, 0, BitVec.ofNat 8 (fmt + 16 * fmt), 0, BitVec.ofNat 8 codec] ++ natLE 11 0
    ++ natLE 8 0 ++ natLE 8 0x10000 ++ natLE 4 64 ++ natLE 4 1 ++ natLE 4 1 ++ natLE 4 nsrc
    ++ natLE 8 row ++ natLE 8 row ++ natLE 8 row ++ natLE 8 row ++ natLE 8 0x20000 ++ natLE 8 0x30000
    ++ natLE 16 0 ++ natLE 16 0
/-- A core whose DMA queue holds one DX of a descriptor, and whose cluster's slot 0 is READY for K16. -/
def dxQueued (d : List Byte) : State :=
  wrAll { setCore (coreRuns []) c0 { Machine.core (coreRuns []) c0 with dq := [{ word := 0x401, desc := d }] } with
      prog := some { ranges := [(0, 0x100000, 7)] } }
    [(F.CX_SLOT_W0_STATE c0.cluster 0, 2), (F.CX_SLOT_W2_FMT c0.cluster 0, 3)]
/-- A window record of one axis with one place, 64 channels in and out, K16 (09 R257). -/
def windowRec : List Byte :=
  [1, 0, 1, 0] ++ natLE 4 64 ++ natLE 4 64 ++ [3, 0, 0, 0]
    ++ (List.replicate 3 (natLE 4 1 ++ natLE 4 1 ++ natLE 4 0 ++ [1, 1, 1, 0])).flatten
/-- The descriptor at the head of that queue meets its checks; a WINDOW finds that record. -/
def dxGood (d : List Byte) (ok : Desc → Bool) : Bool :=
  let s := if d.headD 0 = 3 then stBytes (dxQueued d) 0x20000 windowRec else dxQueued d
  match dxHead s c0 ok with
  | none => false
  | some e =>
    let d := dxDesc e
    (auxFault s c0 d .clean).isNone && decide (descReason s c0 d = none) && decide (tableReason s c0 d = none)
      && (match readRuns s (takeRuns s c0 d) .clean with | some (ok, _) => ok | none => false)
      && !mustWait s c0 d.mode (srcRuns s d (descWindow s d)) (dstRuns c0 d) && !d.remote
theorem witness_PlainDescriptorsMoveOrFail :
    (dxGood (descBytes 1 0 3 128 0) (fun d => d.mode == 0 && d.kind != 2 && d.kind != 3)
      && dxGood (descBytes 2 0 3 128 1) (fun d => d.mode == 0 && d.kind == 2)
      && dxGood (descBytes 3 0 3 128 0) (fun d => d.mode == 0 && d.kind == 3)
      && (let s := dxQueued (descBytes 0 0 3 128 0)
          (dxHead s c0 (fun d => d.mode == 0 && d.kind != 2 && d.kind != 3)).isSome
            && decide (descReason s c0 (descOf (descBytes 0 0 3 128 0) (0, 0)) = some 2)
            && (auxFault s c0 (descOf (descBytes 0 0 3 128 0) (0, 0)) .clean).isNone && rd s (F.DMA_ERR_VALID c0) == 0)
      && (let s := { dxQueued (descBytes 1 0 3 128 0) with poison := [0] }
          match readRuns s (takeRuns s c0 (descOf (descBytes 1 0 3 128 0) (0, 0))) .clean with | some (ok, _) => !ok | none => false)) = true := by
  decide +kernel

theorem witness_CodecDescriptorsRun :
    ([1, 2, 3].all (fun m => dxGood (descBytes 1 m 3 128 0) (fun d => d.mode == m))
      && [4, 5].all (fun m => dxGood (descBytes 1 m 3 128 0) (fun d => d.mode == 4 || d.mode == 5))
      && [6, 7].all (fun m => dxGood (descBytes 1 m 3 128 0) (fun d => d.mode == 6 || d.mode == 7))
      && (let s := wr (dxQueued (descBytes 1 1 3 128 0)) (F.CX_SLOT_W0_STATE c0.cluster 0) 0
          decide (tableReason s c0 (descOf (descBytes 1 1 3 128 0) (0, 0)) = some 1))
      && (let s := wrAll { dxQueued (descBytes 1 3 3 128 0) with keySlots := [(0, 1)] } [(F.SEC_PR_LIMIT_ADDR 0, 5), (F.SEC_PR_CTL_EN 0, 1)]
          destProtected s c0 (descOf (descBytes 1 3 3 128 0) (0, 0)))
      -- a block that a job of the expander meets: escaped, and one whose header no block has
      && (let j : ExpJob := { entry := { word := 0x401 }, stream := false, desc := descBytes 1 2 3 128 0, taken := true, begun := 0, count := 1,
                              drained := 0, tries := 0 }
          let b := packBlock .k16 [] 0 0 0 true (List.replicate 128 1)
          let s := setCore (dxQueued []) c0 { Machine.core (dxQueued []) c0 with exps := [j] }
          let u := stBytes (stBytes s 0 b.1) 0x20000 b.2.1
          let h := fun (s : State) => blockHeadOf (ldBytes s 0x20000 16)
          decide ((jobDesc j).aux = 0x20000 ∧ (jobDesc j).src = 0) && (h u).esc && decide (expandReason u c0 (jobDesc j) false (h u) 128 0 = none)
            && decide (expandBlock u c0.cluster (some 0) .k16 (h u) (ldBytes u 0 128) = some (List.replicate 128 1))
            && decide (expandReason s c0 (jobDesc j) false (h s) 128 0 = some 3))) = true := by
  decide +kernel
theorem witness_EarlyRead :
    (let d := (descBytes 1 2 3 128 0).set 4 0x0A
     let s := dxQueued d
     (dxDesc { word := 0x401, desc := d }).early && decide ((queuedExpands (Machine.core s c0)).map (fun e => e.word) = [0x401])
      && decide (descReason s c0 (dxDesc { word := 0x401, desc := d }) = none)) = true := by decide +kernel

theorem witness_StreamQueueAndRetirement :
    (let e : StreamEntry := { desc := [], baton := 0, post := true, pacer := some 1, epoch := 0, kind := 2, page := 0, runs := [(0, 0x1000, 2)] }
     let s := wr (setCore (coreRuns []) c0 { Machine.core (coreRuns []) c0 with sq := [e] }) (F.CO_PA_COUNT c0 1) 1
     let g := setCore (dxQueued []) c0 { Machine.core (dxQueued []) c0 with dq := [], sq := [{ e with kind := 4, desc := descBytes 1 0 3 128 0 }] }
     let d := descOf (descBytes 1 0 3 128 0) (0, 0)
     let f := fun (b d : Bool) => ({ entry := {}, stream := b, desc := [], done := d, epoch := 0, kind := 2, page := 0, posts := [] } : DxFlight)
     let u := fun (b d : Bool) => setCore (coreRuns []) c0 { Machine.core (coreRuns []) c0 with dxs := [f b d] }
     (decide (streamHead s c0 = some e) && !(Machine.core s c0).lastStream
      && !mustWait s c0 0 (e.runs.map (fun r => (r.1, r.2.2))) (e.runs.map (fun r => (r.2.1, r.2.2)))
      && (match readRuns s (e.runs.map (fun r => (r.1, r.2.2))) .clean with | some (ok, _) => ok | none => false)
      && e.runs.all (fun r => streamRunOk c0.cluster r.1 r.2.2 && streamRunOk c0.cluster r.2.1 r.2.2)
      && !streamRunOk c0.cluster 0x202000000000 1 && !streamRunOk c0.cluster 0xF000000000000 1
      && (auxFault g c0 d .clean).isNone && decide (descReason g c0 d = none) && decide (tableReason g c0 d = none)
      && decide ((Machine.core (u false true) c0).dxs.find? (fun d => d.stream == false) = some (f false true))
      && decide ((Machine.core (u false false) c0).dxs.find? (fun d => d.stream == false) = some (f false false))
      && decide ((Machine.core (u true true) c0).dxs.find? (fun d => d.stream == true) = some (f true true))
      && running (u true true) c0) = true) := by decide +kernel

/-- A message of four bytes for HBM, on a channel and from a module. -/
def msg0 (vc src addr : Nat) : Msg :=
  { vc := vc, dst := 1, src := src, tag := 0, last := true, hops := 0, tgt := 5, npost := 1, addr := addr, data := [1, 2, 3, 4] }
/-- A state in which a message has arrived on channel 0, bound with KIND k to the modules 1 and 2. -/
def msgIn (k : Nat) (m : Msg) : State :=
  wrAll { State.reset with inbox := [m], groups := [[1, 2], [], [], [], [], []] }
    [(F.FAB_BIND_W0_KIND 0, k), (F.FAB_BIND_W0_MEMBERS 0, 2)]
theorem witness_MessagesDelivered :
    (let ok := fun (s : State) (m : Msg) => decide (inboxMsg s 0 = some m) && !replaying s
     let a := msgIn 1 (msg0 0 2 0x1000)
     let b := msgIn 1 (msg0 0 3 0x1000)
     let c := msgIn 2 (msg0 0 2 0x1000)
     let d := msgIn 1 (msg0 0 2 0x200000000000)
     let e := wr a F.ID_REPLAY_PHASE 1
     let g := { d with run := some { ring := 0, seq := 0, step := 1 } }
     let rl := { c.relay with dvc := 0, recv := 0x1000, slots := 1, seen := [(0, 0, 0)] }
     let dup := { wr c F.RR_STAT_ARMED 1 with run := some { ring := 0, seq := 0, step := 1 }, relay := rl }
     let md := { msg0 0 2 0x1000 with data := List.replicate 64 0 }
     (ok a (msg0 0 2 0x1000) && !strangerOn a 0 2 && !heldForArm a (msg0 0 2 0x1000) && !badRun (msg0 0 2 0x1000)
        && decide (classOf a (msg0 0 2 0x1000) = .plain) && decide (prRegions a = []) && decide (a.lineKeys = []) && decide (a.pair = none)
      && ok b (msg0 0 3 0x1000) && strangerOn b 0 3 && decide (Room b (F.FAB_CNT_COUNT 2))
      && ok c (msg0 0 2 0x1000) && heldForArm c (msg0 0 2 0x1000) && !strangerOn c 0 2
      && ok d (msg0 0 2 0x200000000000) && badRun (msg0 0 2 0x200000000000) && !heldForArm d (msg0 0 2 0x200000000000)
      && decide (d.run = none) && rd d F.FAB_ERR_VALID == 0 && rd (wr d F.FAB_ERR_VALID 1) F.FAB_ERR_VALID == 1
      && g.run.isSome && ((npostSlot 5).bind (slotCore g)).isSome && ((npostSlot 0x3FFFF).bind (slotCore g)).isNone
      && ok { dup with inbox := [md] } md && !heldForArm dup md && !badRun md && decide (classOf dup md = .duplicate)
      && replaying e && !e.replay.reported) = true) := by
  decide +kernel

/-- A state with hurdle 3 of group scope on channel 0, of which the flit holds an ARRIVE from rank 1 in an epoch. -/
def arriveIn (epoch : Nat) : State :=
  wrAll { State.reset with prog := some { hurdles := 4 }, groups := [[1, 2], [], [], [], [], []],
                           ctrlIn := [⟨5, 0, hurdlePayload 1 2 1 3 epoch 1 0 0⟩] }
    [(F.HD_CFG_SCOPE 0 3, 1), (F.HD_CFG_LOCAL_EXPECT 0 3, 2), (F.HD_MEM_MEMBERS 0 3, 2)]
theorem witness_HurdleArrivalsAndPass :
    ([0, 1, 7].all (fun e =>
        let s := arriveIn e
        match firstHurdle s 1 with
        | none => false
        | some f => !replaying s && leAt f.payload 5 1 == 3 && bits (leAt f.payload 10 1) 0 3 == 0 && leAt f.payload 8 2 % 1024 == 1
            && leAt f.payload 6 2 == e && hurdleUsed s 3 && rd s (F.HD_CFG_SCOPE 0 3) == 1 && rd s (F.HD_CFG_VC 0 3) == 0
            && decide ((members s 0)[1]? = some (leAt f.payload 2 2 % 1024)) && !s.hurdleBits.contains (3, e, 1)
            && decide (Room s (F.FAB_CNT_COUNT 3)) && decide (Room s (F.HD_STALE_COUNT 0)) && replaying (wr s F.ID_REPLAY_PHASE 1)
            && !hurdleUsed (wr s (F.HD_CFG_LOCAL_EXPECT 0 3) 0) 3
            && decide ((members { s with groups := [[1, 5]] } 0)[1]? ≠ some (leAt f.payload 2 2 % 1024)))
      && (let s := wrAll (arriveIn 0) [(F.HD_STAT_LOCAL_ARR 0 3, 2), (F.HD_ARR_MEMBER_ARR 0 3, 2), (F.TB_SYNC_CFG_EN, 1),
            (F.TB_SYNC_CFG_HURDLE, 3)]
          hurdleFull s 3 && !replaying s && !armed s && rd s F.TB_SYNC_CFG_EN == 1 && rd s F.TB_SYNC_CFG_HURDLE == 3)
      && !hurdleFull (arriveIn 0) 3) = true := by decide +kernel

theorem witness_AbortsEndTheStep :
    (let f : CtrlFlit := ⟨5, 0, hurdlePayload 1 2 2 0 0 1 0 7⟩
     let s := { coreRuns [0] with ctrlIn := [f], run := some { ring := 0, seq := 0, step := 7 } }
     let c : Cmd := { ring := 0, seq := 0, entry := [] }
     (decide (firstHurdle s 2 = some f) && !replaying s && leAt f.payload 12 4 == 7 && decide (s.remaps = [])
       && replaying (wr s F.ID_REPLAY_PHASE 1) && decide (cmdOf { s with journal := [c] } 0 0 = some c) && decide (c.status = none)
       && decide (occupiedCores s = [c0]) && rd s (F.CO_SEQ_STAT_STATE c0) == 1) = true) ∧
    (let s := setCluster (setCore (coreRuns [5]) c0 { Machine.core (coreRuns [5]) c0 with held := true }) c0.cluster
        { cluster (coreRuns [5]) c0.cluster with copying := true, copies := [(0, 8)] }
     ((cluster s c0.cluster).copying && decide ((cluster s c0.cluster).copies = [(0, 8)]) && Memory.wf s.mem
       && !(cluster State.reset c0.cluster).copying && (Machine.core s c0).held) = true) := by
  decide +kernel

/-- The reset state with port 3 ACTIVE in a module 1 that is READY. -/
def portUp : State := wrAll State.reset [(F.FP_STAT_STATE 3, 4), (F.CMD_STAT_READY, 1), (F.ID_MODULE_VALID, 1), (F.ID_MODULE_MODULE_ID, 1)]
/-- A flit is intact and no protocol error. -/
def clean (f : Flit) : Bool :=
  let b := flitBytes f
  b.length == 256 && decide (correctFlit b = (b, [])) && flitCrcOk b && !protocolError b && decide ((flitOf b).typ = f.typ) &&
    decide ((flitOf b).seq = f.seq) && decide ((flitOf b).ackKind = f.ackKind) && decide ((flitOf b).cred = f.cred)
theorem witness_FlitsArriveAndAreAnswered_idle :
    (clean {} && clean { ackKind := 1, ackSeq := 5, cred := 3 } && clean { ackKind := 2 } && clean { ackKind := 3, cred := 9 }
      && decide (portState portUp 3 = 4) && decide (portState .reset 3 ≠ 4) && !(port portUp 3).nakOpen
      && decide (Room portUp (F.FP_CNT_COUNT 3 2)) && decide (Room portUp (F.FP_CNT_COUNT 3 11))) = true := by decide +kernel
theorem witness_FlitsArriveAndAreAnswered_control :
    (clean { typ := 7, payload := payload240 (natLE 2 1 ++ natLE 2 7 ++ [1]) } && clean { typ := 7, payload := payload240 (natLE 2 2) }
      && (let b := flitBytes { typ := 7, payload := payload240 (natLE 2 2) }
          decide (leAt (flitOf b).payload 0 2 = 2))
      && (let b := flitBytes { typ := 7, vc := 1 }
          flitCrcOk b && protocolError b && decide (correctFlit b = (b, [])) && !routedType (flitOf b).typ && decide (b.length = 256))
      && (let b := (flitBytes {}).set 246 1
          decide ((correctFlit b).2.length = 1))) = true := by decide +kernel
/-- A data message of 4 bytes for a module. -/
def single (dst seq : Nat) : Flit :=
  { typ := 4, seq := seq, payload := payload240 (msgHeader { msg0 0 2 0x1000 with dst := dst } ++ [1, 2, 3, 4]) }
theorem witness_FlitsArriveAndAreAnswered_routed :
    (clean (single 1 0) && clean { typ := 5, vc := 6, payload := hurdlePayload 1 2 1 0 0 0 0 0 }
      && (let f := flitOf (flitBytes (single 1 0))
          isMine portUp (leAt f.payload 0 2 % 1024) && decide (leAt f.payload 6 2 % 32768 = 4) && decide (f.seq = ((port portUp 3).rxLast + 1) % 4096))
      && (let f := flitOf (flitBytes (single 9 0))
          let s := wr portUp (F.FAB_RT_PORTS 9) 2
          !isMine s (leAt f.payload 0 2 % 1024) && decide (leAt f.payload 9 1 < 64)
            && decide (routePort s (leAt f.payload 0 2 % 1024) (leAt f.payload 4 2) = some 1)
            && decide (routePort { portUp with run := some { ring := 0, seq := 1, step := 0 } } (leAt f.payload 0 2 % 1024) (leAt f.payload 4 2) = none))
      && decide ((single 1 4).seq ≠ ((port portUp 3).rxLast + 1) % 4096) && decide (rd portUp F.CMD_STAT_READY = 1)) = true := by decide +kernel
theorem witness_FlitsArriveAndAreAnswered_features :
    (decide ((firstMgmt .reset 1 (fun _ => true)).isNone)
      && (let s := { State.reset with ctrlIn := [⟨6, 3, mgmtPayload 1 2 1 (featuresBody 0 1 1 2 0 0)⟩] }
          match firstMgmt s 1 (fun _ => true) with
          | some c => decide (leAt (c.payload.drop 8) 0 1 ≤ 5) && decide (2 ∉ members s 0)
          | none => false)) = true := by decide +kernel
theorem witness_FlitsArriveAndAreAnswered_messages :
    (let head (dst hops : Nat) : Flit :=
        { typ := 1, payload := payload240 (putBytes (msgHeader { msg0 0 2 0x1000 with dst := dst, data := List.replicate 300 7 }) 9 (natLE 1 hops) ++ List.replicate 208 7) }
     let h := flitOf (flitBytes (head 1 0))
     let r : RxStream := { header := h.payload.take 32, data := [], need := 92, fwd := none, drop := false }
     let s := setPort portUp 3 { port portUp 3 with rx := [(poolOf 0 0, r)] }
     let mg := fun (op : Nat) => ({ typ := 6, vc := 7, payload := mgmtPayload 1 2 op [1] } : Flit)
     (clean (head 1 0) && decide (leAt (h.payload.take 32) 6 2 % 32768 = 300) && isMine portUp (leAt h.payload 0 2 % 1024)
       && clean (head 9 64) && decide (64 ≤ leAt (flitOf (flitBytes (head 9 64))).payload 9 1) && !isMine portUp 9
       && clean { typ := 3, payload := payload240 [1] } && decide (mapFind (port s 3).rx (poolOf 0 0) = some r)
       && decide (mapFind (port portUp 3).rx (poolOf 0 0) = none) && decide (r.need - min r.need 240 = 0)
       && clean (mg 1) && clean (mg 9) && decide (leAt (flitOf (flitBytes (mg 9))).payload 4 1 = 9)
       && isMine portUp (leAt (flitOf (flitBytes (mg 1))).payload 0 2 % 1024) && decide (rd portUp F.ID_FLT_NEXT_NEXT < 16)) = true) := by decide +kernel

/-- Port 3 with its holdings and STATE set. -/
def portAt (st : Nat) (x : PortSt) : State := setPort (wr State.reset (F.FP_STAT_STATE 3) st) 3 x
/-- A partner's configuration set: Colsy 1.0, every width. -/
def conf0 : List Byte := natLE 1 1 ++ natLE 1 0 ++ natLE 1 1 ++ natLE 1 2 ++ natLE 1 7 ++ (List.range 14).flatMap (fun _ => natLE 2 8) ++ natLE 4 0
theorem witness_PortsStartTrainAndRetrain_sends :
    (decide (portState (portAt 4 {}) 3 = 4) && decide (portState .reset 3 ≠ 4) && decide (portState .reset 3 ≠ 6)
      && decide ((port (portAt 4 {}) 3).oweAck ≠ 3) && decide ((port (portAt 4 { resend := [{}] }) 3).resend = [{}])
      && (let s := wr (portAt 4 { q := [{ typ := 5, vc := 6, payload := [] }] }) (F.FP_CRED_HELD 3 12) 1
          maySendNew s 3 && hasCredit s 3 12 && decide ((firstOfPool (port s 3) 12).isSome) && decide (Room s (F.FP_CNT_COUNT 3 0)))
      && (let s := wr (portAt 4 { sent := [{}] }) F.TB_NOW_TIME 25
          (port s 3).sent.any (fun f => decide (f.time + rd s (F.FP_RTT_RTT 3) + 24 < now s)))
      && (port (portAt 4 { holding := true }) 3).holding && decide ((port (portAt 4 { oweAck := 3 }) 3).oweAck = 3) && decide ((port (portAt 4 {}) 3).identAt = 0)) = true := by decide +kernel
theorem witness_PortsStartTrainAndRetrain_trains :
    ((let s := { State.reset with boot := { released := true } }
      s.boot.released && decide (s.boot.releasedAt + 2000000 * 0 ≤ rd s F.TB_NOW_TIME))
      && (port (portAt 1 { started := true }) 3).started && decide (portState (portAt 1 { started := true }) 3 = 1)
      && decide (portState (portAt 2 {}) 3 = 2) && decide (conf0.length = 37) && decide (chooseWidth 0xFF (leAt conf0 4 1) = some (2, 0))
      && decide (chooseWidth 0x7F (leAt conf0 4 1) = some (1, 0)) && decide (chooseWidth 0xF7 (leAt conf0 4 1) = some (1, 1))
      && decide (chooseWidth 0x77 (leAt conf0 4 1) = none)
      && decide (agreedColsy 1 0 (leAt conf0 0 1) (leAt conf0 1 1) (leAt conf0 2 1) = some (1, 0))
      && decide (agreedColsy 0 0 (leAt conf0 0 1) (leAt conf0 1 1) (leAt conf0 2 1) = none)
      && decide (retrainWidth (portAt 5 {}) 3 0x0F 0 = some (1, 0)) && decide (retrainWidth (portAt 5 {}) 3 0 0 = none)
      && decide (rd (portAt 5 { thresh := true }) (F.FP_STAT_WIDTH 3) ≠ 2) && (port (portAt 4 { thresh := true }) 3).thresh
      && decide (Room (portAt 4 {}) (F.FP_CNT_COUNT 3 7))
      && bit (rd (wr (portAt 4 {}) (F.FP_STAT_LANE_OK 3) 1) (F.FP_STAT_LANE_OK 3)) 0) = true := by decide +kernel
theorem witness_PortsStartTrainAndRetrain_more :
    ((let s := wr (portAt 4 { q := [{ typ := 4, vc := 0, payload := [] }, { typ := 6, vc := 7, payload := [] }] }) (F.FP_CRED_HELD 3 0) 1
      decide (nextPool s 3 = some 0) && (firstOfPool (port s 3) 0).isSome && !hasCredit s 3 13 && maySendNew s 3
        && (firstOfPool (port (wr s (F.FP_CRED_HELD 3 13) 1) 3) 13).isSome && hasCredit (wr s (F.FP_CRED_HELD 3 13) 1) 3 13)
     && decide (widthsOf 0x77 = 0) && decide (widthsOf 0x0F ≠ 0) && decide (chooseWidth 0x0F 1 = none) && decide (widthsOf 0x7F ≠ 0)
     && (let s := { State.reset with boot := { released := true } }
         !(port s 0).started && !((List.range 3).any (looksFirst s)) && (List.range 3).any (looksFirst (setPort (wr s (F.FP_STAT_STATE 1) 1) 1 {})))
     && !closedWindow .reset (F.FP_CFG_RETRAIN 3).word && closedWindow (portAt 7 {}) (F.FP_CFG_RETRAIN 3).word
     && decide (retrainWidth (portAt 5 {}) 3 0x0F 0 = some (1, 0))
     && decide (State.reset.boards.getD 0 16 = 16) && decide (rd .reset F.ID_FLT_NEXT_NEXT < 16)
     && decide ({ State.reset with boards := setAt State.reset.boards 0 8 }.boards.getD 0 16 = 8)) = true := by decide +kernel

/-- A CXL link whose host has committed decoder 0 over 512 GiB from host address 0. -/
def hostUp : State :=
  wrAll State.reset [(F.HA_STAT_WIDTH, 8), (F.HA_STAT_FLIT, 2), (F.HC_HDM_CTL_EN, 1), (F.HC_HDM_DEC_COMMITTED, 1), (F.HC_HDM_SIZE_HI_SIZE, 128)]
theorem witness_CxlMemBeyondAndPoisoned :
    (let w : State := { wrAll hostUp [(F.HA_CKPT_SIZE_SIZE, 1), (F.HA_CKPT_BASE_ADDR 0, 0x100000000000)] with poison := [0x1000000000] }
     decide (hdmDpa hostUp 0 = some 0) && decide (rd hostUp F.HA_CKPT_SIZE_SIZE * 2 ^ 30 ≤ 0) && decide (Room hostUp (F.HA_CNT_COUNT 4))
      && decide (hdmDpa w 0 = some 0) && decide (0 < rd w F.HA_CKPT_SIZE_SIZE * 2 ^ 30) && decide (Room w (F.HA_CNT_COUNT 5))
      && decide (rd w F.ID_FLT_NEXT_NEXT < 16) && decide (regionOf (windowAddr w 0) = .slow 0 0) && poisonedAt w (windowAddr w 0)
      && !udParked w 0 && udParked (wr w F.PWR_UD_STATE_PARKED 1) 0 && w.biWait.isEmpty
      && decide (({ w with biWait := [⟨0x100000000000, [], true, 1⟩] } : State).biWait.find? (fun v : BiWait => v.line == windowAddr w 0) = some ⟨0x100000000000, [], true, 1⟩)) = true := by
  decide +kernel

/-- A journalled command of ring 0, by opcode and parameter bytes from 0x10 on. -/
def cmd0 (op : Nat) (params : List Byte) : Cmd :=
  { ring := 0, seq := 1, entry := sliceBytes (natLE 4 (op + 0x1000000) ++ natLE 4 1 ++ natLE 8 0 ++ params) 0 64 }
/-- A state in which it waits and the module is READY. -/
def cmdIn (s : State) (op : Nat) (params : List Byte) : State := wr { s with journal := [cmd0 op params] } F.CMD_STAT_READY 1
/-- It begins. -/
def begins0 (s : State) (op : Nat) (params : List Byte) : Bool := decide (Begins (cmdIn s op params) 0 1 op (cmd0 op params))
theorem witness_PlainCommandsEnd :
    (!decide (Begins .reset 0 1 0 (cmd0 0 [])) && headReserved { cmd0 0 [] with entry := (cmd0 0 []).entry.set 9 1 }
      && decide (cmdOf State.reset 0 1 = none) && decide ((cmd0 0x40 []).ver ≠ (0, 0))
      && decide (parkedRun (wr .reset F.PWR_UD_STATE_PARKED 1) 0x100000000000 64 = true) && decide (agreedLater .reset 0 1 = false)
      && begins0 .reset 0 [] && zeroBytes (cmd0 0 []) 0x10 48
      && begins0 .reset 0 [1] && (cmd0 0 [1]).param 0x10 1 == 1 && zeroBytes (cmd0 0 [1]) 0x11 15 && zeroBytes (cmd0 0 [1]) 0x30 16
      && begins0 .reset 1 [0, 2, 1] && zeroBytes (cmd0 1 [0, 2, 1]) 0x13 45
      && (let s := wr (cmdIn .reset 1 [0, 2, 1]) F.ID_PROTO_SHOAVO_MAJ 2
          (agreedVersion (rd s F.ID_PROTO_SHOAVO_MAJ) 0 2 0 1).isSome && decide (agreedVersion (rd s F.ID_PROTO_SHOAVO_MAJ) 0 2 0 3 = none))) = true ∧
    (let p : List Byte := natLE 2 0x3000 ++ [0, 0] ++ natLE 4 0 ++ natLE 8 0 ++ natLE 8 64 ++ natLE 4 4
     let c := cmd0 0x40 p
     let s := cmdIn .reset 0x40 p
     (begins0 .reset 0x40 p && zeroBytes c 0x13 1 && zeroBytes c 0x2C 20 && c.param 0x12 1 == 0 && c.param 0x20 8 == 64 && c.param 0x28 4 == 4
       && unitValid (c.param 0x10 2)
       && (match stateSpace s (c.param 0x10 2) 0 0 0 4 with
         | some (size, _) => decide (4 ≤ size)
         | none => false)) = true) ∧
    (let p : List Byte := natLE 4 0 ++ natLE 4 1 ++ natLE 8 1 ++ natLE 8 64
     let c := cmd0 0x41 p
     (begins0 .reset 0x41 p && c.param 0x10 1 == 0 && zeroBytes c 0x11 3 && zeroBytes c 0x1A 6 && zeroBytes c 0x28 24 && c.param 0x18 2 == 1
       && c.param 0x20 8 == 64) = true) := by decide +kernel

/-- A group record that binds channel 0 as a world group of the modules 1 and 2, this one of rank 0. -/
def bindRecord : List Byte := natLE 2 1 ++ natLE 2 2 ++ natLE 4 0 ++ natLE 56 0 ++ natLE 2 1 ++ natLE 2 2 ++ natLE 12284 0
theorem witness_TablesAndBindingsSet :
    (let s := wrAll (cmdIn .reset 0x11 []) [(F.ID_MODULE_VALID, 1), (F.ID_MODULE_MODULE_ID, 1)]
     (decide (Begins s 0 1 0x11 (cmd0 0x11 [])) && bindRecord.length == 12352 && leAt bindRecord 0x30 16 == 0
       && (List.range 6).all (bindFieldsOk bindRecord) && (List.range 6).all (bindListOk s bindRecord)
       && decide (s.run = none)) = true) ∧
    (let t := List.replicate (2 * ftBytes) (0 : Byte)
     (begins0 .reset 0x12 [] && ftableOk (t.take ftBytes) && ftableOk (t.drop ftBytes) && decide ((cmdIn .reset 0x12 []).ftPend = [])) = true) ∧
    (let p : List Byte := natLE 8 0 ++ natLE 8 0 ++ natLE 8 64
     (decide (Begins { cmdIn .reset 0x13 p with pair := some (0, 0x100000, 0x1000) } 0 1 0x13 (cmd0 0x13 p))
       && zeroBytes (cmd0 0x13 p) 0x28 24 && (cmd0 0x13 p).param 0x20 8 == 64
       && !(List.replicate 64 (1 : Byte)).any (fun x => x == 0xFF)) = true) := by decide +kernel
theorem sliceBytes_pad (bs : List Byte) (n off k : Nat) : sliceBytes (bs ++ List.replicate n 0) off k = sliceBytes bs off k := by
  unfold sliceBytes
  apply List.ext_getElem?
  intro i
  simp only [List.getElem?_append, List.getElem?_take, List.getElem?_drop, List.length_take, List.length_drop, List.length_append,
    List.length_replicate, List.getElem?_replicate]
  split_ifs <;> first | rfl | omega

theorem rowsOf_replicate (n len : Nat) (b : Byte) : rowsOf n len (List.replicate (n * len) b) = List.replicate n (List.replicate len b) := by
  induction n with
  | zero => simp [rowsOf]
  | succ n ih =>
    simp only [rowsOf, List.take_replicate, List.drop_replicate]
    have h1 : min len ((n + 1) * len) = len := by rw [Nat.add_mul]; omega
    have h2 : (n + 1) * len - len = n * len := by rw [Nat.add_mul]; omega
    rw [h1, h2, ih, List.replicate_succ]

/-- Curve 0 is the constant 0; every other byte of the curve table is 0. -/
def curve0 : List Byte := natLE 4 0 ++ natLE 4 1 ++ natLE 24 0 ++ (List.replicate 63 (natLE 8 0 ++ [255] ++ natLE 23 0)).flatten
def curves0 : List Byte := curve0 ++ List.replicate (255 * 2048) 0
/-- One group, one unit, one vector of 64 elements. -/
def job0 : List Byte := sliceBytes (natLE 16 0 ++ [0, 0] ++ natLE 2 1 ++ natLE 2 1 ++ [1, 0] ++ natLE 8 0x200000 ++ natLE 8 0x400000 ++ natLE 8 0x200000) 0 128
def group0 : List Byte := sliceBytes (natLE 16 0 ++ natLE 4 0x3F800000 ++ natLE 4 0x3F800000) 0 64
def tensor0 : List Byte := sliceBytes (natLE 4 0 ++ natLE 2 0 ++ [1, 0] ++ natLE 4 1 ++ natLE 4 64 ++ natLE 8 0x200000 ++ natLE 8 0
  ++ natLE 8 0 ++ natLE 8 0 ++ natLE 8 0x300000) 0 64
theorem curves0_length : curves0.length = 256 * 2048 := by
  have hl : curve0.length = 2048 := by decide +kernel
  have h : ∀ (c : List Byte) (n : Nat), (c ++ List.replicate n 0).length = c.length + n := by simp
  exact (h _ _).trans (by rw [hl])
theorem curves0_clear : (rowsOf 256 2048 curves0).all (fun c => (rowsOf 64 32 c).all segClear) = true := by
  have hl : curve0.length = 2048 := by decide +kernel
  have h0 : (rowsOf 64 32 curve0).all segClear = true := by decide +kernel
  have h1 : (rowsOf 64 32 (List.replicate 2048 (0 : Byte))).all segClear = true := by decide +kernel
  have e : rowsOf (255 + 1) 2048 curves0 = curve0 :: List.replicate 255 (List.replicate 2048 0) := by
    rw [← rowsOf_replicate, curves0]
    generalize List.replicate (255 * 2048) (0 : Byte) = z
    generalize curve0 = c at hl
    generalize 255 = n
    rw [rowsOf, ← hl, List.take_left, List.drop_left]
  rw [e, List.all_cons, h0, Bool.true_and, List.all_replicate, h1]
  rfl
theorem tablesOk_curves (s : State) (job group c d tensor : List Byte) (hc : ∀ i, sliceBytes d i 2048 = sliceBytes c i 2048)
    (hd : (rowsOf 256 2048 d).all (fun c => (rowsOf 64 32 c).all segClear) = true) (h : tablesOk s ⟨job, group, c, tensor⟩ = true) :
    tablesOk s ⟨job, group, d, tensor⟩ = true := by
  have hc : ∀ i, UpdTables.curveAt ⟨job, group, d, tensor⟩ i = UpdTables.curveAt ⟨job, group, c, tensor⟩ i := fun i => by
    simp only [UpdTables.curveAt, hc]
  have hs : statesOk s ⟨job, group, d, tensor⟩ = statesOk s ⟨job, group, c, tensor⟩ := rfl
  unfold tablesOk at h ⊢
  rw [hd, hs]
  simp only [hc]
  simp only [Bool.and_eq_true] at h ⊢
  exact ⟨⟨⟨⟨⟨⟨h.1.1.1.1.1.1, h.1.1.1.1.1.2⟩, trivial⟩, h.1.1.1.2⟩, h.1.1.2⟩, h.1.2⟩, h.2⟩
theorem witness_TablesSet :
    tablesOk (cmdIn .reset 0x12 [1]) ⟨job0, group0, curves0, tensor0⟩ = true ∧ begins0 .reset 0x12 [1] = true ∧ job0.length = 128
      ∧ group0.length = 64 ∧ curves0.length = 256 * 2048 ∧ tensor0.length = 64 * leAt job0 0x14 2 := by
  have hp : ∀ i, sliceBytes curves0 i 2048 = sliceBytes curve0 i 2048 := fun i => sliceBytes_pad _ _ _ _
  have hk : tablesOk (cmdIn .reset 0x12 [1]) ⟨job0, group0, curve0, tensor0⟩ = true := by decide +kernel
  exact ⟨tablesOk_curves _ _ _ curve0 curves0 _ hp curves0_clear hk, by decide +kernel, by decide +kernel, by decide +kernel, curves0_length,
    by decide +kernel⟩

/-- A program image of one stream: an END, and one range of HBM. -/
def image0 : List Byte :=
  sliceBytes (natLE 4 0x4B594D31 ++ natLE 2 1 ++ natLE 2 0 ++ natLE 8 448 ++ natLE 4 1 ++ natLE 4 64 ++ natLE 4 0 ++ natLE 4 64 ++ natLE 8 0
    ++ natLE 4 0 ++ natLE 2 0 ++ natLE 2 0 ++ natLE 4 64 ++ natLE 4 1 ++ natLE 4 0 ++ natLE 4 400
    ++ natLE 4 0 ++ natLE 4 1 ++ natLE 8 384 ++ natLE 304 0
    ++ natLE 16 0x0B
    ++ natLE 4 1 ++ natLE 4 0 ++ natLE 8 0x10000 ++ natLE 8 0x1000 ++ natLE 4 1 ++ natLE 12 0) 0 448
/-- A LOAD_PROGRAM of it waits. -/
def loadIn : State := cmdIn .reset 0x10 (natLE 8 0 ++ natLE 8 448)
/-- The walk's one operation: the END. -/
def op0 : WOp :=
  { stream := 0, slot := ⟨0, 0, 0⟩, pos := 0, word := 11, reads := [], early := [], atDispatch := [], writes := [], posts := [],
    vcs := [], good := true, hist := [], handoff := none }
theorem image0_ops : allOps loadIn image0 (imageOf image0) = [([op0], 0)] := by decide +kernel
theorem image0_counts : countsOk (imageOf image0) [op0] = true := by
  have h1 : opPosts op0 = [] := by decide +kernel
  have h2 : (imageOf image0).decls = [] := by decide +kernel
  have h3 : waitCnt op0.word = 0 := by decide
  simp [countsOk, unitsPosted, unitsDeclared, unitsTaken, h1, h2, h3]
theorem image0_loads : loadDetail loadIn image0 448 = none := by
  unfold loadDetail
  simp only [image0_ops, List.flatMap_cons, List.flatMap_nil, List.append_nil, image0_counts]
  decide +kernel
theorem witness_ProgramsLoadOrAreRefused :
    loadDetail loadIn image0 448 = none ∧ image0.length = 448 ∧ begins0 .reset 0x10 (natLE 8 0 ++ natLE 8 448) = true
      ∧ loadDetail loadIn (List.replicate 448 0) 448 = some 1
      ∧ (imageOf image0).ranges.any (fun q => parkedRun loadIn q.base q.len) = false
      ∧ (imageOf image0).ranges.any (fun q => parkedRun (wr loadIn (F.PWR_CL_STATE_DIE 0) 1) q.base q.len) = true :=
  ⟨image0_loads, by decide +kernel, by decide +kernel, by decide +kernel, by decide +kernel, by decide +kernel⟩

/-- The parameters of a copy of 64 bytes between host address 0 and HBM. -/
def copyParams : List Byte := natLE 8 0 ++ natLE 8 0x10000 ++ natLE 8 64
/-- A step runs over a program that uses that range. -/
def inUse (s : State) : State := { s with prog := some { ranges := [(0x10000, 64, 1)] }, run := some { ring := 1, seq := 0, step := 0 } }
theorem witness_CopiesAndCheckpointWindow :
    [0x30, 0x31].all (fun op => let s := cmdIn .reset op copyParams
      begins0 .reset op copyParams && decide (copyDetail (cmd0 op copyParams) = none) && !reachesStaged s 0x10000 64 && !copyWaits s 0x10000 64
        && decide (Begins (inUse s) 0 1 op (cmd0 op copyParams)) && copyWaits (inUse s) 0x10000 64 && decide (s.poison = [])
        && !reachesStaged (inUse s) 0x10000 64
        && reachesStaged { s with staged := some (0x10000, 64) } 0x10000 64 && decide (copyDetail (cmd0 op []) = some 0x21)
        && (match readRuns { s with poison := [0x100] } [(0x10000, 64)] .clean with | some (ok, _) => !ok | none => false)
        && decide (readRuns s [(0x10000, 64)] (.uncorrectable 0) = none)) = true ∧
    (let p := natLE 8 4 ++ natLE 8 0x100000000000 ++ natLE 8 0x110000000000 ++ natLE 8 0x120000000000 ++ natLE 8 0x130000000000
     let c := cmd0 0x32 p
     (begins0 .reset 0x32 p && zeroBytes c 0x12 6 && zeroBytes c 0x38 8 && c.param 0x10 2 == 4
       && (List.range 4).all (fun m => c.param (0x18 + 8 * m) 8 % 2 ^ 21 == 0 && decide (regionOf (c.param (0x18 + 8 * m) 8) = .slow m 0))
       && decide (4 * 2 ^ 28 ≤ fwOffset)) = true) := by decide +kernel

/-- A state with a program of one stream in core c0 that arms the relays, tables in force, and a command that waits. -/
def stepIn (op : Nat) (params : List Byte) : State :=
  wrAll { cmdIn (setCore .reset c0 { occupied := true, instrs := [11], abInit := [(5, 6)] }) op params with prog := some { arms := true } }
    ((List.range 4).flatMap (fun m => [(F.UD_GEN_TABLES_VALID m, 1), (F.UD_GEN_PAIR_VALID m, 1)]) ++ [(F.CO_PA_LIMIT c0 1, 3)])
theorem witness_StepsBegin :
    (let s := stepIn 0x20 (natLE 4 1)
     let c := cmd0 0x20 (natLE 4 1)
     (decide (Begins s 0 1 0x20 c) && zeroBytes c 0x16 2 && zeroBytes c 0x20 32 && !roundsBad c && c.param 0x14 1 == 0
       && decide (s.replay.rejoin = none) && decide (runStepDetail s c = none)
       && !bindingPending s (stepVcs s c) && !boundaryWaits s && !lostSlot s
       && decide (s.remaps = []) && decide (occupiedCores s = [c0]) && !(cluster s c0.cluster).copying) = true) ∧
    (let s := stepIn 0x21 []
     let c := cmd0 0x21 []
     (decide (Begins s 0 1 0x21 c) && zeroBytes c 0x10 48 && decide (runProgramDetail s = none) && !bindingPending s (programVcs s)
       && !boundaryWaits s && !lostSlot s) = true) ∧
    (let s := { stepIn 0x22 (natLE 4 7) with run := some { ring := 1, seq := 0, step := 7, halted := true } }
     let c := cmd0 0x22 (natLE 4 7)
     (decide (Begins s 0 1 0x22 c) && zeroBytes c 0x14 1 && zeroBytes c 0x16 2 && zeroBytes c 0x20 32 && !roundsBad c
       && c.param 0x10 4 == 7) = true) := by decide +kernel
theorem witness_StepsBegin_other :
    (let s := stepIn 0x20 (natLE 4 1)
     let c := cmd0 0x20 (natLE 4 1)
     let bound := wrAll { s with groups := [[1, 2], [], [], [], [], []] } [(F.FAB_BIND_W0_KIND 0, 2), (F.FAB_BIND_W0_STATE 0, 1)]
     let held := setCluster s c0.cluster { cluster s c0.cluster with copying := true }
     (decide (runStepDetail { s with prog := none } c = some 0x26) && bindingPending bound (stepVcs bound c)
       && boundaryWaits (wr s F.ID_REPLAY_PHASE 1)
       && decide (runStepDetail { s with replay := { s.replay with rejoin := some (1, 0) } } c = none)
       && lostSlot { s with remaps := [(0, 0, 15)] } && decide (runStepDetail { s with remaps := [(0, 0, 15)] } c = none)
       && decide (occupiedCores (applyRemaps (beginStep s 0 1 c)) = [c0]) && (coreSlot s c0).isSome && (cluster held c0.cluster).copying
       && decide (runProgramDetail { stepIn 0x21 [] with prog := none } = some 0x26)) = true) := by decide +kernel

/-- A step that commits, its relays armed and complete, with rounds on channel 0. -/
def commitIn (rounds : Nat) (q : StepRun) : State :=
  wrAll { State.reset with run := some { q with committing := true, halted := true, cRounds := rounds } }
    [(F.RR_STAT_ARMED, 1)]
theorem witness_CommitsFlipOrSkip :
    (let ok := fun (s : State) => !replaying s && relaysComplete s && updatesComplete s && decide (residueCores s = []) && decide (s.remaps = [])
        && (List.range 4).all (fun m => decide (Room s (F.UD_CNT_COUNT m 4)))
     ok (commitIn 0 { ring := 0, seq := 0, step := 3 }) && ok (commitIn 1 { ring := 0, seq := 0, step := 3 })) = true ∧
    (let f : CtrlFlit := ⟨6, 0, mgmtPayload 1 2 3 (natLE 4 1 ++ natLE 4 0)⟩
     let m : CommitMsg := { src := 2, step := 1, round := 0, skip := false, replay := 0 }
     let s := { State.reset with ctrlIn := [f] }
     (decide (firstMgmt s 3 (fun _ => true) = some f) && leAt f.payload 2 2 == 2 && leAt (f.payload.drop 8) 0 4 == 1
       && leAt (f.payload.drop 8) 4 4 == 0 && keepsStep s 1 && decide (serialDiff 16 m.replay 0 ≥ 0)
       && decide (Room s (F.CMD_CNT_COUNT 7)) && keepsStep { s with commits := [m] } 1) = true) ∧
    (let s := commitIn 2 { ring := 0, seq := 0, step := 3, sentCommit := true }
     let e := commitIn 1 { ring := 0, seq := 0, step := 3, sentCommit := true, skip := true }
     (decide (roundPeers s 0 0 = []) && decide (roundPeers e 0 0 = []) && decide ((0 : Nat) + 1 < 2)) = true) ∧
    (let s := wr (commitIn 1 { ring := 0, seq := 0, step := 3, cLimit := 1 }) F.TB_NOW_TIME 2000000
     (!replaying s && decide (1 * 1000000 ≤ now s - 0) && decide (s.remaps = [])) = true) := by decide +kernel

theorem witness_RingsTakeIndices :
    (let s := wrAll State.reset [(F.CMD_RING_CFG_SIZE 0, 7), (F.CMD_RING_CFG_ENABLE 0, 1), (F.CMD_CQ_TAIL_INDEX 0, 3)]
     (decide (7 ≤ rd s (F.CMD_RING_CFG_SIZE 0)) && decide (rd s (F.CMD_RING_CFG_SIZE 0) < 8) && rd s F.ID_RSVD_WR_FIRST_VALID == 0
       && decide (Room s F.ID_RSVD_WR_CNT_COUNT) && decide (3 < ringSlots s 0)
       && decide ((3 + ringSlots s 0 - rd s (F.CMD_CQ_HEAD_INDEX 0)) % ringSlots s 0 ≤ unconsumed s 0)
       && ringOn s 0 && !ringOn s 1 && rd s (F.CMD_RING_STAT_INFLIGHT 0) == 0 && decide (owedBy s 0 = [])) = true) := by decide +kernel

theorem witness_EntriesTakenAndCompleted :
    (let s := wrAll { State.reset with powered := true } [(F.HA_STAT_WIDTH, 2), (F.HA_STAT_FLIT, 1), (F.HA_STAT_BME, 1), (F.CMD_STAT_READY, 1),
        (F.CMD_RING_CFG_SIZE 2, 7), (F.CMD_RING_CFG_ENABLE 2, 1), (F.CMD_SQ_TAIL_INDEX 2, 1), (F.CMD_STAT_MIR_A, 1)]
     let e := sliceBytes (natLE 4 1) 0 64
     (rd s F.SEC_BOOT_STAGE == 0 && hostReady s && nextRing s == some 2 && decide (Room s (F.CMD_CNT_COUNT 0)) && e.length == 64
       && decide (judge s 2 (leAt e 4 4) = none) && mirrorUp s && knownOp 1
       && decide (judge s 2 1 = some 0x05) && decide (judge s 2 (2 ^ 32 - 1) = some 0x04)
       && decide (judge (wr s F.CMD_STAT_READY 0) 2 0 = some 0x02)) = true) ∧
    (let o : Owed := { ring := 2, seq := 0, head := 1, opcode := 0, irq := true, accepted := false, status := 5, info := 0 }
     let s := wrAll { State.reset with owed := [o] } [(F.HA_STAT_WIDTH, 2), (F.HA_STAT_FLIT, 1), (F.HA_STAT_BME, 1)]
     (decide (owedBy s 2 = [o]) && hostReady s && (completionOf s o 0).isSome) = true) ∧
    (let s := wr State.reset F.CMD_STAT_READY 1
     (rd s F.ID_HEALTH_MC_OUT == 0 && rd s F.ID_FLT_NEXT_NEXT == 0) = true) := by decide +kernel

/-- Source 16, the first cluster's counter saturation, with a SENSE and a STATE. -/
def srcAt (sense st : Nat) : State := wrAll { State.reset with powered := true } [(F.EVC_SRC_CFG_SENSE 16, sense), (F.EVC_SRC_STAT_STATE 16, st)]
theorem witness_EventsFireDeliverAndComplete :
    (let fired := fun (s : State) => { s with fired := [16] }
     let sleepy := fun (s : State) => { s with events := { slept := [0] } }
     (reservedSource 17 && !reservedSource 16 && (srcAt 2 0).powered && decide (16 ∈ (fired (srcAt 2 0)).fired)
       && [0, 1, 2, 3].all (fun v => decide (rd (srcAt 3 v) (F.EVC_SRC_STAT_STATE 16) = v) && decide (rd (srcAt 3 v) (F.EVC_SRC_CFG_SENSE 16) = 3))
       && !asleep (srcAt 2 0) 16 && asleep (sleepy (srcAt 2 0)) 16 && decide (Room (srcAt 2 1) (F.EVC_CNT_COUNT 3))
       && decide (sliceOf 16 = some 0) && decide (sliceOf 4000 = none) && decide (sliceOf 400 = some 80) && !edgeNamed 2 (seenLevel (srcAt 2 0) 16) (inputLevel (srcAt 2 0) 16)
       && (let s := { srcAt 3 0 with events := { levels := [(16, 1)] } }; edgeNamed 3 (seenLevel s 16) (inputLevel s 16) && decide (16 ∉ s.fired))
       && levelAsserted (srcAt 1 0) 16 && !levelAsserted (srcAt 0 1) 16 && decide (firstSource .reset = none)
       && (let s := wrAll (srcAt 2 1) [(F.EVC_SRC_CFG_ENABLE 16, 1), (F.HA_STAT_WIDTH, 8), (F.HA_STAT_BME, 1), (F.MSIX_ADDR_ADDR 0, 64), (F.MSIX_CTL_MASK 0, 0)]
           decide (firstSource s = some 16) && decide (cfgKind (srcCfg s 16) = 0) && decide (Room s (F.EVC_CNT_COUNT 0)))
       && (let s := wrAll (srcAt 2 1) [(F.EVC_SRC_CFG_ENABLE 16, 1), (F.EVC_SRC_CFG_TKIND 16, 1)]
           decide (firstSource s = some 16) && decide (cfgKind (srcCfg s 16) ≠ 0))
       && badSrcCfg 16 5 && !badSrcCfg 16 2 && decide (mapFind (srcAt 2 2).events.active 16 = none)) = true) := by decide +kernel

theorem witness_SlicesSleepAndTimebaseAdjusts :
    (let k : ClusterId := ⟨0, 0⟩
     let down := wr State.reset (clStateFld k) 2
     let slept := fun (s : State) => { s with events := { slept := [0] } }
     let latched := wrAll (slept State.reset) [(F.EVC_SRC_STAT_LATCH 16, 1), (F.EVC_SRC_CFG_SENSE 16, 2)]
     (sliceDown down 0 && !sliceDown State.reset 0 && decide (0 ∈ (slept down).events.slept) && !latchedWake (slept down) 0
       && decide (16 ∈ sliceSources 0) && decide (latched.events.deferred = []) && decide (0 ∉ latched.events.slept.erase 0)
       && decide (rd latched (F.EVC_SRC_STAT_LATCH 16) = 1) && decide (rd latched (F.EVC_SRC_STAT_STATE 16) = 0)
       && decide (2 ≤ rd latched (F.EVC_SRC_CFG_SENSE 16)) && !sliceDown latched 0
       && latchedWake (wrAll (slept down) [(F.EVC_SRC_STAT_LATCH 16, 1), (F.EVC_SRC_CFG_ENABLE 16, 1)]) 0
       && decide (clusterOfKey 0 = k)
       && (let s := wr { State.reset with powered := true } F.TB_ADJ_OFFSET (2 ^ 64 - 5)
           decide (rd s F.TB_ADJ_OFFSET ≠ 0) && decide (rd s F.TB_ADJ_OFFSET < 2 ^ 64) && s.powered && decide (rd s F.PWR_STAT_BRAKE ≠ 1))) = true) := by
  decide +kernel

/-- A state in which the cluster's firmware routine 0, RR_ARM, is requested by core c0, its argument block and a table of one unit in
place, and the update tables of one unit in force. -/
def armIn : State :=
  let k : ClusterId := ⟨0, 0⟩
  let r : CcReq := { core := c0, entry := {}, routine := 0, arg := clusterStoreBase k, done := false }
  let s := setCluster (coreRuns []) k { cluster (coreRuns []) k with ccq := [r] }
  let s : State := { s with
    prog := some { hurdles := 1, routines := [(k.key, 0, 1, 0x10)] }
    run := some { ring := 0, seq := 0, step := 1 }
    upd := some ⟨job0, group0, [], tensor0⟩ }
  let s := wrAll s [(F.FAB_BIND_W0_KIND 0, 2), (F.FAB_BIND_W0_STATE 0, 2), (F.FAB_BIND_W0_STATE 1, 2), (F.FAB_BIND_W0_MEMBERS 0, 1)]
  let s := stBytes s (clusterStoreBase k) ([0x10] ++ natLE 23 0 ++ natLE 8 0x800000 ++ natLE 32 0)
  stBytes s 0x800000 ([0, 1, 1, 0] ++ natLE 4 2 ++ natLE 8 0x1000000 ++ natLE 8 0x1100000 ++ natLE 8 0x1200000 ++ natLE 8 0x1300000
    ++ natLE 8 0 ++ natLE 8 0x1400000 ++ natLE 72 0 ++ [0, 1, 0, 0] ++ natLE 4 1 ++ natLE 8 0x1500000 ++ natLE 8 0x1600000)
/-- An armed relay of one unit with a message at its release word, and one of chain values. -/
def relayIn (members : Nat) (m : List Msg) : State :=
  wrAll { State.reset with
    inbox := m
    groups := [[1, 2], [1, 2], [], [], [], []]
    run := some { ring := 0, seq := 0, step := 1 }
    relay := { dvc := 0, gvc := 1, slots := 2, recv := 0x1000000, grecv := 0x1100000, rel := 0x1200000, chain := 0x1300000, chainLen := 64,
               norm := 0x1400000, units := [⟨0, 0, 1, 0x1500000, 0x1600000⟩], arrived := [(0, 0, 0), (1, 0, 0)] } }
    [(F.FAB_BIND_W0_KIND 0, 2), (F.FAB_BIND_W0_KIND 1, 3), (F.FAB_BIND_W0_MEMBERS 0, members), (F.FAB_BIND_W0_MEMBERS 1, members), (F.RR_STAT_ARMED, 1)]
theorem witness_RelaysArmAndReceive :
    (let s := armIn
     let k : ClusterId := ⟨0, 0⟩
     match routineHead s k 0x10 with
     | none => false
     | some r =>
       match argBlock s k r with
       | none => false
       | some a =>
         let addr := leAt a 0x18 8
         let n := ldN s (addr + 2) 1
         let raw := rowsOf n 32 (ldBytes s (addr + 0x80) (32 * n))
         leAt a 0 1 == 0x10 && leAt a 2 22 == 0 && leAt a 0x20 32 == 0 && addr % 64 == 0 && n == 1 && populatedRun addr (128 + 32)
           && decide (armReason { s with relay := { s.relay with calls := 1 } } (ldBytes s addr 128) (raw.map relayUnitOf) raw = none)
           && s.relay.calls == 0 && decide (s.poison = []) && rd s F.ID_FLT_NEXT_NEXT == 0
           && decide (routineHead { s with relay := { s.relay with calls := 1 }, run := none } k 0x10 = some r)) = true ∧
    (let m : Msg := { msg0 0 2 0x1200000 with data := natLE 8 3 }
     let c : Msg := msg0 0 2 0x1300000
     (decide (relayMsg (relayIn 2 [m]) 0 = some (m, .release 0 3)) && decide (relayMsg (relayIn 2 [c]) 0 = some (c, .sums 0 0))) = true) := by
  decide +kernel

/-- The relay of relayIn with every feature served. -/
def relayOn (members : Nat) (r : RelaySt → RelaySt) (l : List (Fld × Nat)) : State :=
  let s := relayIn members []
  wrAll { s with relay := r s.relay } ((F.FAB_BIND_W1_GFEAT 0, 3) :: l)
/-- The same with data stream n at hand, forwarded at the head of the next. -/
def relayAt (n k : Nat) : State :=
  relayOn 2 (fun x : RelaySt => { x with arrived := [(0, n, k)], sent := [n + 1, 0], opened := [true, false], nextSlot := [k, 0] })
    [(F.RR_STREAM_DONE_DONE 0, n)]
theorem witness_RelayRecordsFlow :
    (let id := fun x : RelaySt => x
     let s := relayOn 2 id []
     let a := relayOn 1 id []
     let f := relayOn 2 (fun x : RelaySt => { x with sent := [2, 0] }) [(F.RR_STREAM_DONE_DONE 0, 2)]
     let g := stN f 0x1200000 8 3
     let q := fun (t : State) (n k : Nat) => (recordReady t 0 n k && decide (readRuns t (recordRuns t n k) .clean = some (true, t)) && decide (Room t (F.RR_CNT_COUNT 0)))
     (relayD s == 2 && perUnit s 0 == 3 && perUnit s 1 == 1
       && streamMayBegin s 0 0 && decide (readRuns s (sendRuns s 0 0) .clean = some (true, s)) && !streamMayBegin s 1 0
       && (readRuns s (sendRuns s 0 0) (.uncorrectable 0x7000000)).isNone
       && (let b := relayOn 2 (fun x : RelaySt => { x with sent := [1, 0] }) [(F.RR_STREAM_DONE_DONE 0, 1)]; streamMayBegin b 0 1)
       && streamMayBegin g 0 2 && decide (readRuns g (sendRuns g 0 2) .clean = some (true, g)) && decide (streamLen g 0 1 ≠ some 0)
       && (let e := { g with relay := { g.relay with counts := [(1, 0)] } }; decide (streamLen e 0 1 = some 1))
       && q (relayAt 0 0) 0 0 && q (relayAt 1 0) 1 0 && q (relayAt 1 1) 1 1 && q (relayAt 2 1) 2 1 && !recordReady s 0 0 1
       && decide ((List.range 3).map (streamPos s 0) = [1, 2, 3])
       && relayD a == 1 && relayRuns a && decide (a.relay.ready.length = 0) && decide (0 < a.relay.units.length) && triggered a 0
       && decide (0 < (relayUnit a 0).blocks) && decide ((0, 0, 0) ∉ a.relay.seen)
       && decide (readRuns a [(contribAddr a 0 0, 4096), (wireAddr a 0 0, 1)] .clean = some (true, a))
       && recordReady s 1 0 0 && decide (readRuns s [(slotAddr s 1 0 0, gatherLen s 0 0 + 64)] .clean = some (true, s))
       && decide (Room s (F.RR_CNT_COUNT 5))) = true) := by decide +kernel

/-- A step with one unit reduced, in a group of one, and what the dies hold. -/
def updIn (done : Bool) (uds : List UdSt) : State :=
  let s := relayIn 1 []
  { s with upd := some ⟨job0, group0, [], tensor0⟩, relay := { s.relay with ready := [0] }, normDone := done, uds := uds }
theorem witness_UpdateDiesWork :
    (let u : UpdTables := ⟨job0, group0, [], tensor0⟩
     let a := updIn true [{}, {}, {}, {}]
     let h : UdHalf := ⟨0, 0, false, false, []⟩
     let h3 : UdHalf := ⟨0, 0, false, false, [(0, ⟨0, [], 0, 0x7FC00000, 0x7FC00000⟩)]⟩
     let g : UdHalf := ⟨0, 0, false, true, []⟩
     let b := updIn false [{ halves := [h] }, { halves := [h] }, {}, {}]
     let c := updIn false [{ norms := [(0, 1)] }, { norms := [(0, 1)] }, { norms := [(0, 1)] }, { norms := [(0, 1)] }]
     let d := updIn true [{}, {}, {}, { halves := [g], sums := [(0, [])], chunks := [(0, 1)] }]
     let n : Fin 4 := 3
     (decide (a.upd = some u) && updating a && updating b && decide ((unitOrder a u).findSome? (fun n => nextChunk a u n 3) = some h)
       && decide ((readRuns a (((dieChunks a u 0 3).getD 0 []).map (fun b => (outAddr a 0 b, 8256))) .clean) = some (true, a))
       && decide ((unitOrder b u).findSome? (fun n => nextChunk b u n 3) = none)
       && decide ((ud b 0).halves.find? (fun g => !g.stat && !g.second) = some h) && (sumsIn b u 0 0).isSome && (sumsIn b u 0 1).isNone
       && decide ((dieChunks b u 0 0).length = 1) && decide (rd b (F.UD_CNT_COUNT 0 2) + 0 < counterMax)
       && decide ((((dieChunks b u 0 0).getD 0 []).foldl (blockStats b u h) ({ sums := [] } : StatsOut)).nonFin = 0)
       && u.normed && decide (b.relay.ready.length = u.units) && (normNext b u).isSome
       && decide (normNext c u = none) && decide (((List.range u.units).filterMap (normFinal c u)).length = u.units)
       && decide ((ud a n.val).halves.find? (fun g => (g.stat || g.second) && (sumsFinal a u g.unit).isSome) = none)
       && decide ((ud d 3).halves.find? (fun g => (g.stat || g.second) && (sumsFinal d u g.unit).isSome) = some g)
       && decide (readRuns d (updateRuns d u 0 3 ((dieChunks d u 0 3).getD 0 [])) .clean = some (true, d))
       && decide (Room d (F.UD_CNT_COUNT 3 3)) && decide (mapGet 0 (ud d 3).read2 0 + 1 = (dieChunks d u 0 3).length)
       && (let q := { b with uds := (List.range 4).map (fun m => ({ halves := [if (dieBlocks a u 0 m).isEmpty then h else h3], chunks := [(0, if (dieBlocks a u 0 m).isEmpty then 1 else 0)] } : UdSt)) }
           (List.range 4).any (fun m => (((dieChunks q u 0 m).getD 0 []).foldl (blockStats q u h3) ({ sums := [] } : StatsOut)).nonFin != 0
             && decide ((ud q m).halves.find? (fun g => !g.stat && !g.second) = some h3) && (sumsIn q u 0 m).isSome))
       && (let d := updIn true [{}, {}, {}, { halves := [g], sums := [(0, [])], chunks := [(0, 1)], read2 := [(0, 1)] }]
           (sumsFinal d u 0).isSome && decide (mapGet 0 (ud d 3).read2 0 + 1 ≠ (dieChunks d u 0 3).length))) = true) := by decide +kernel

/-- A configuration record of four pages, two sequences, two HBM slots and one slow-tier slot. -/
def rcConf0 : List Byte :=
  sliceBytes (natLE 8 0x1000000 ++ natLE 4 4 ++ natLE 4 2 ++ natLE 8 0x2000000 ++ natLE 8 0x3000000 ++ natLE 4 2 ++ natLE 4 1
    ++ natLE 8 0x100000000000 ++ natLE 8 0 ++ natLE 4 0 ++ natLE 2 1 ++ [1, 0] ++ natLE 8 0x40000000 ++ natLE 8 0x8000000 ++ natLE 4 3) 0 128
/-- A cache routine requested by core c0 of cluster 0, its argument block as given from byte 1 on. -/
def cacheIn (op : Nat) (init begun : Bool) (arg : List Byte) : State :=
  let k : ClusterId := ⟨0, 0⟩
  let r : CcReq := { core := c0, entry := {}, routine := 0, arg := clusterStoreBase k, done := false }
  let s := setCluster (coreRuns []) k { cluster (coreRuns []) k with ccq := [r], rtBegun := begun }
  let s : State := { s with
    prog := some { routines := [(k.key, 0, 1, op)] }
    run := some { ring := 0, seq := 0, step := 1 }
    rollout := { conf := if init then rcConf0 else [] } }
  stBytes (stBytes s 0x9100000 rcConf0) (clusterStoreBase k) (natLE 1 op ++ arg)
/-- What holds of it. -/
def cacheOk (op : Nat) (s : State) : Bool :=
  let k : ClusterId := ⟨0, 0⟩
  match routineHead s k op with
  | none => false
  | some r => match argBlock s k r with
    | none => false
    | some b => !argReserved b && leAt b 0 1 == op
/-- The argument block of a request. -/
def argOf (s : State) : List Byte := ldBytes s (clusterStoreBase ⟨0, 0⟩) 64
/-- The routine at the head may begin: its block is good and its arguments are not refused. -/
def cacheMay (op : Nat) (s : State) : Bool :=
  let k : ClusterId := ⟨0, 0⟩
  cacheOk op s && !(cluster s k).rtBegun && (op == 1 || decide (s.rollout.conf ≠ [])) && decide (cacheRefuses op (reclaim s k) (argOf s) = none)
/-- A fork of sequence 0, one page mapping page 0, into sequence 1, of count entries; page 0 is mapped refs times. -/
def forkIn (count refs : Nat) : State :=
  let s := cacheIn 3 true false (natLE 15 0 ++ natLE 4 count ++ natLE 4 1)
  let s := stBytes (stBytes s 0x2000000 (natLE 4 1 ++ natLE 4 1 ++ natLE 8 0x9000000)) 0x2000020 (natLE 4 0 ++ natLE 4 1 ++ natLE 8 0x9000100)
  stBytes (stBytes s 0x9000000 (natLE 8 1)) 0x1000000 (natLE 4 refs ++ natLE 4 0 ++ [1])
theorem witness_CacheStructuresSet :
    (let k : ClusterId := ⟨0, 0⟩
     let a := cacheIn 1 false false (natLE 23 0 ++ natLE 8 0x9100000)
     let b := cacheIn 2 true false (natLE 19 0 ++ natLE 4 1 ++ natLE 8 0x9000000)
     let e := fun (s : State) (n : Nat) => (List.range n).foldl (fun (acc : State × Bool) i => if acc.2 then acc else match forkEntry acc.1 0 1 0 i with
        | some u => (u, false)
        | none => (acc.1, true)) (s, false)
     let far := setCluster b k { cluster b k with ccq := (cluster b k).ccq.map (fun r : CcReq => { r with arg := 0 }) }
     (cacheMay 1 a && cacheMay 2 b && cacheMay 3 (forkIn 0 1) && cacheMay 3 (forkIn 1 1) && cacheMay 3 (forkIn 1 0xFFFFFFFF)
       && decide ((conf (forkIn 1 1)).tables = 1) && !(e (forkIn 1 1) 1).2 && (e (forkIn 1 0xFFFFFFFF) 1).2
       && decide (routineHead a k 2 = none) && (match routineHead far k 2 with
         | some r => decide (argBlock far k r = none)
         | none => false)
       && cacheOk 2 (cacheIn 2 false false []) && decide ((cacheIn 2 false false []).rollout.conf = [])
       && (let s := stBytes b (clusterStoreBase k) [9]; (routineHead s k 2).isSome && leAt (argOf s) 0 1 != 2)
       && (let s := stBytes b (clusterStoreBase k + 9) [8]; argReserved (argOf s))
       && (let s := cacheIn 2 true false (natLE 3 0 ++ natLE 4 9); cacheOk 2 s && decide (cacheRefuses 2 (reclaim s k) (argOf s) = some 2))) = true) := by
  decide +kernel

/-- A walk of one page of sequence 0, whose only entry maps the LIVE page 0. -/
def walkIn (op : Nat) (count : Nat) : State :=
  let s := cacheIn op true true (natLE 15 0 ++ natLE 4 count ++ natLE 12 0 ++ natLE 2 1 ++ natLE 2 0)
  let s := stBytes s 0x2000000 (natLE 4 1 ++ natLE 4 1 ++ natLE 8 0x9000000)
  stBytes (stBytes s 0x9000000 (natLE 8 1)) 0x1000000 (natLE 8 1 ++ [1])
/-- A stream descriptor of an epoch, unretired in core c0. -/
def openAt (e : Nat) (s : State) : State :=
  setCore s c0 { Machine.core s c0 with sq := [{ desc := [], baton := 0, post := false, pacer := none, epoch := e, kind := 0, page := 0, runs := [] }] }
theorem witness_CacheRoutinesFinish :
    (let k : ClusterId := ⟨0, 0⟩
     let b := argOf
     (([4, 5, 6, 7].all (fun op => let s := walkIn op 0
          cacheOk op s && (cluster s k).rtBegun && leAt (b s) 0x10 4 == 0 && (cluster s k).rtSub == 0 && s.run.isSome))
      && decide ((cluster (walkIn 5 0) k).rtNode = 0xFFFFFFFF)
      && (let s := setCluster (walkIn 5 0) k { cluster (walkIn 5 0) k with rtNode := 5 }; cacheOk 5 s && (cluster s k).rtNode == 5)
      && (let s := { walkIn 6 0 with run := none }; cacheOk 6 s && s.run.isNone)
      && (let s := setCluster (walkIn 8 0) k { cluster (walkIn 8 0) k with rtPos := 1 }; cacheOk 8 s && decide ((conf s).tables * seqPages s 0 ≤ 1))
      && (let s := openAt 0xFFFFFFF1 (walkIn 8 0); cacheOk 8 s && !mayAdvance s && pteValid (pte s 0 0 0) && decide ((conf s).tables * seqPages s 0 = 1))
      && (let s := walkIn 6 1
          cacheOk 6 s && pteValid (pte s 0 (argTable s (b s)) 0) && pageState s 0 == 1 && streamRoom s c0 1 && leAt (b s) 0x10 4 == 1 && mayAdvance s
            && (match bringPage s c0 0 with
              | .live u => decide (u = s)
              | _ => false) && pageRef s 0 == 1 && quietAt s (pageStamp s 0) && decide ((conf s).stSlots ≠ 0) && decide (freeSt s = [0])
            && !pteSealed (pte s 0 (argTable s (b s)) 0) && decide (pteTok (pte s 0 (argTable s (b s)) 0) ≤ leAt (b s) 0x14 4))
      && (let s := stBytes (walkIn 6 1) 0x9000000 [0]; !pteValid (pte s 0 (argTable s (b s)) 0))
      && (let s := walkIn 5 1
          let s := setCluster s k { cluster s k with rtSub := 1, rtNode := 7 }
          let s : State := { s with rollout := { s.rollout with nodes := [(7, nodeRecord ⟨1, 2, 0, 1⟩)] } }
          let s := stBytes s 0x7000000 (natLE 4 1)
          let s : State := { s with rollout := { s.rollout with conf := rcConf0.take 0x30 ++ natLE 8 0x7000000 ++ natLE 4 2 ++ rcConf0.drop 0x3C } }
          decide (ownPage s (b s) 0 = some 0) && (nodeAt s 7).isSome && decide (1 ≤ (conf s).tables) && pteValid (pte s 0 0 0)
            && ptePage (pte s 0 0 0) == 0 && ldN s (psetAddr s 0) 4 == 1 && mayAdvance s && decide (pageRef s 1 < 2 ^ 32 - 1)
            && !pteValid (pte (stBytes s 0x9000000 [0]) 0 0 0))) = true) := by
  decide +kernel

theorem witness_CacheFirmwareWorks :
    (let k : ClusterId := ⟨0, 0⟩
     let s := walkIn 6 0
     (decide (s.rollout.conf ≠ []) && !replaying s && decide ((freeHbm s).length < (conf s).low) && decide (coldestPage s k = some 0)
       && decide (freeSt s = [0]) && decide (evictCore s k = some c0) && decide (State.reset.rollout.conf = [])
       && (let f := { s with run := none }
           decide (rd f (F.RC_CNT_COUNT k 7) + 256 < counterMax) && decide (f.rollout.conf ≠ [])) && (cluster s k).rtBegun && s.run.isSome) = true) ∧
    (let s := { walkIn 6 0 with pageDone := [(1, 0), (2, 1)] }
     let e := fun (c : Bool) => ({ s with rollout := { s.rollout with evicts := [(0, 0, c)], fetches := [(1, 1)] } } : State)
     let moving := setPageState (e false) 0 3
     (decide (s.pageDone.find? (fun d => d.1 == 1) = some (1, 0)) && decide ((e true).rollout.evicts.find? (fun d => d.1 == 0) = some (0, 0, true))
       && decide (s.rollout.evicts = []) && decide (s.rollout.fetches = [])
       && decide (moving.rollout.evicts.find? (fun d => d.1 == 0) = some (0, 0, false)) && pageState moving 0 == 3 && mayAdvance moving
       && !mayAdvance (openAt 0xFFFFFFF1 moving) && decide (s.pageDone.find? (fun d => d.1 == 2) = some (2, 1))
       && decide ((e true).rollout.fetches.find? (fun d => d.1 == 1) = some (1, 1)) && pageState (e true) 1 != 5 && pageState (setPageState (e true) 1 5) 1 == 5
       && decide (State.reset.pageDone = [])) = true) ∧
    (let k : ClusterId := ⟨0, 0⟩
     let s := cacheIn 5 true true (natLE 15 0 ++ natLE 4 1 ++ natLE 4 1 ++ natLE 8 0x9200000)
     let own := stBytes (stBytes s (clusterStoreBase k + 0x14) [0]) 0x2000000 (natLE 4 1 ++ natLE 4 1 ++ natLE 8 0x9000000)
     let key := sealKey s 0x9200000 0
     let g := bucketBase key
     let ways := fun (s : State) => ((List.range 4).map (fun w => g + w)).find? (fun i => (mapFind s.rollout.nodes i).isNone)
     let nodes := fun (s : State) (l : NMap (List Byte)) => ({ s with rollout := { s.rollout with nodes := l } } : State)
     let hit := fun (s : State) (ps : Nat) => nodes s [(g, nodeRecord ⟨key, 0xFFFFFFFF, ps, 1⟩)]
     (cacheOk 5 s && decide (0 < leAt (argOf s) 0x10 4) && decide (ownPage s (argOf s) 0 = none) && decide (ways s = some g) && decide (s.rollout.nodes = [])
       && cacheOk 5 own && decide (ownPage own (argOf own) 0 = some 0) && decide (freePsets own = [])
       && (let p := { own with rollout := { own.rollout with conf := rcConf0.take 0x30 ++ natLE 8 0x7000000 ++ natLE 4 2 ++ rcConf0.drop 0x3C } }
           decide (freePsets p = [0, 1]))
       && (let h := hit s 0xFFFFFFFF; cacheOk 5 h && decide (nodeAt h g = some ⟨key, 0xFFFFFFFF, 0xFFFFFFFF, 1⟩) && decide (nodeToks h g = ldBytes h 0x9200000 512)
             && decide ((cluster h k).rtNode = 0xFFFFFFFF))
       && (let h := hit own 0; cacheOk 5 h && decide (nodeAt h g = some ⟨key, 0xFFFFFFFF, 0, 1⟩))
       && (let h := nodes s [(g, nodeRecord ⟨1, 0, 0, 1⟩), (g + 1, nodeRecord ⟨1, 0, 0, 1⟩), (g + 2, nodeRecord ⟨1, 0, 0, 1⟩), (g + 3, nodeRecord ⟨1, 0, 0, 1⟩)]
           decide (ways h = none) && key != 1)) = true) := by
  decide +kernel

/-- A part command for a unit that waits, with core CD_0.CL_0.CO_1 retired. -/
def partIn (op u : Nat) : State := wr (cmdIn .reset op (natLE 2 u)) (F.CL_CORE_STAT_RETIRED c0.cluster) 2
/-- Its parameters reach the checks. -/
def partBegun (op u : Nat) : Bool :=
  let c := cmd0 op (natLE 2 u)
  decide (Begins (partIn op u) 0 1 op c) && c.param 0x10 2 == u && zeroBytes c 0x12 46
theorem witness_PartCommandsAct :
    [(0x50, 0), (0x50, 0x1000), (0x50, 0x7003), (0x50, 0x9002), (0x51, 1), (0x51, 0x7003), (0x51, 0x9002), (0x52, 0), (0x52, 0x1000), (0x52, 0x2000),
      (0x52, 0x4001), (0x52, 0x7003), (0x52, 0x9002)].all (fun e =>
      let s := partIn e.1 e.2
      partBegun e.1 e.2 && unitValid e.2 && partServed e.1 (e.2 / 0x1000)
        && decide (s.partCmds = []) && partCondition s e.1 e.2 && rd s F.ID_FLT_NEXT_NEXT == 0) = true ∧
    (let s := partIn 0x50 0
     let r : StepRun := { ring := 0, seq := 0, step := 1 }
     let end_ := fun (op u : Nat) => ({ partIn op u with partCmds := [(op, u, 0, 1)] } : State)
     (partBegun 0x50 0x3000 && !partServed 0x50 3 && partBegun 0x51 0 && !partCondition (partIn 0x51 0) 0x51 0
       && !zeroBytes (cmd0 0x50 (natLE 2 0 ++ [1])) 0x12 46 && begins0 .reset 0x50 (natLE 2 0 ++ [1])
       && (let t := { s with partCmds := [(0x52, 0, 0, 9)] }; decide (Begins t 0 1 0x50 (cmd0 0x50 (natLE 2 0))) && t.partCmds.any (fun p => p.2.1 == 0))
       && (let t := { coreRuns [] with run := some r, journal := s.journal }
           let t := wr t F.CMD_STAT_READY 1
           stepUses t 0 && decide (Begins t 0 1 0x50 (cmd0 0x50 (natLE 2 0))))
       && coreRetired (partIn 0x51 1) (unitCore 1) && !coreRetired s (unitCore 0) && decide (s.boards.getD 2 16 ≠ 0)
       && [(0x51, 1), (0x51, 0x7003), (0x52, 0), (0x52, 0x9002)].all (fun e =>
           decide ((end_ e.1 e.2).partCmds.find? (fun p => p.2.1 == e.2) = some (e.1, e.2, 0, 1)) && (cmdOf (end_ e.1 e.2) 0 1).any (fun c => c.status.isNone))
       && decide (s.partCmds.find? (fun p => p.2.1 == 0) = none)
       && portState (wr (partIn 0x51 0x7003) (F.FP_STAT_STATE 3) 7) 3 == 7 && decide (Begins (wr (partIn 0x51 0x7003) (F.FP_STAT_STATE 3) 7) 0 1 0x51 (cmd0 0x51 (natLE 2 0x7003)))
       && decide (Begins (wr (partIn 0x51 0x7003) (F.FP_STAT_STATE 3) 4) 0 1 0x51 (cmd0 0x51 (natLE 2 0x7003)))) = true) := by decide +kernel

theorem witness_FatalFaultsEndTheProgram :
    ([0x1000, 0x2000, 0x3000, 0x4001].all (fun u => unitValid u) && !unitValid 0x3001 && rd State.reset F.ID_FLT_NEXT_NEXT == 0
      && decide (State.reset.journal = []) && decide (1 < ucieModules 0) && decide (ucieModules 10 ≤ 9)
      && (let s := { State.reset with ucie := [(0, 4)] }
          mapGet 0 s.ucie 0 == 4 && decide (s.ucieDis = []))
      && (let s := { State.reset with ucie := [(1280, 4)], ucieDis := (List.range 7).map (fun i => 641 + i) }
          mapGet 0 s.ucie (640 * 2) == 4 && decide (640 ∉ s.ucieDis) && (s.ucieDis.filter (fun i => i / 64 == 10)).length + 1 == ucieModules 10)) = true := by
  decide +kernel

/-- A step that runs in core c0. -/
def stepOn (q : StepRun) : State := { setCore State.reset c0 { occupied := true, instrs := [11] } with run := some q, prog := some { arms := true } }
/-- A replay in a phase. -/
def phaseAt (n : Nat) (r : ReplaySt) : State := { wr State.reset F.ID_REPLAY_PHASE n with replay := r }
/-- A REPLAY message of kind k for step 1 under a REPLAY_ID, from module 2. -/
def replayFlit (id k : Nat) : CtrlFlit := ⟨6, 3, mgmtPayload 1 2 2 (replayBody 1 id k 0 0 false 7 0x5003)⟩
theorem witness_ReplayRunsItsPhases_start :
    (let q : StepRun := { ring := 0, seq := 1, step := 7 }
     let s := { stepOn q with faults := [(0x5000, 5)] }
     let u := { s with replay := { step := 7, id := 16 } }
     let lost := fun (t : State) => { t with remaps := [(c0.cluster.key, 0, 15)] }
     let p := { s with run := some { q with program := true } }
     (decide (State.reset.faults = []) && !lostSlot s && lostSlot (lost s) && decide (nextReplayId s ≤ 16) && decide (Room s (F.ID_FLT_CNT_COUNT 0))
       && decide (16 < nextReplayId u) && decide (rd u F.ID_FLT_NEXT_NEXT < 16) && decide (u.journal = [])
       && (s.prog.map Program.rewrites).getD true == false && decide (occupiedCores s = [c0]) && !lostSlot p && lostSlot (lost p)) = true) := by decide +kernel
theorem witness_ReplayRunsItsPhases_messages :
    ([1, 2, 3].all (fun k =>
      let f := replayFlit 1 k
      let s := { stepOn { ring := 0, seq := 1, step := 1 } with ctrlIn := [f] }
      let u := { s with replay := { step := 1, id := 1 } }
      let v := { s with replay := { step := 1, id := 3 } }
      let g := { s with ctrlIn := [replayFlit 17 k] }
      decide (firstReplay s k = some f) && decide (replayUse s (replayMsgOf f) = .adopt) && decide ((replayMsgOf f).id ≤ 16) && !lostSlot s
        && lostSlot { s with remaps := [(c0.cluster.key, 0, 15)] } && decide (rd s F.ID_FLT_NEXT_NEXT < 16) && decide (s.journal = [])
        && decide (firstReplay g k = some (replayFlit 17 k)) && decide (replayUse g (replayMsgOf (replayFlit 17 k)) = .adopt)
        && decide (firstReplay u k = some f) && decide (replayUse u (replayMsgOf f) = .current) && decide ((replayMsgOf f).id = u.replay.id)
        && decide (firstReplay v k = some f) && decide (replayUse v (replayMsgOf f) = .discard) && decide (Room v (F.ID_FLT_CNT_COUNT 2))
        && decide ((firstReplay .reset k).isNone))) = true := by decide +kernel
theorem witness_ReplayRunsItsPhases_rounds :
    (let full := fun (n : Nat) (r : ReplaySt) => roundFull (phaseAt n r) n
     (!originating (phaseAt 1 {}) && originating { phaseAt 1 {} with ports := [(0, { q := [{ typ := 5, vc := 6, payload := [] }] })] }
       && full 2 { rounds := 1 } && full 3 { rounds := 2 } && full 3 { rounds := 1 } && full 2 { rounds := 2 }
       && !roundFull { phaseAt 2 { rounds := 1 } with groups := [[0, 2], [], [], [], [], []] } 2
       && !roundFull { phaseAt 3 { rounds := 1 } with groups := [[0, 2], [], [], [], [], []] } 3
       && decide (rd (phaseAt 3 {}) F.ID_REPLAY_PHASE = 3) && decide ((phaseAt 3 { orDirty := true }).replay.orDirty = true)
       && !(phaseAt 3 {}).replay.orDirty && decide ((phaseAt 3 {}).run = none)
       && (let s := wr (stepOn { ring := 0, seq := 1, step := 7 }) F.ID_REPLAY_PHASE 3; !lostSlot s && lostSlot { s with remaps := [(c0.cluster.key, 0, 15)] })
       && decide (State.reset.softRows = []) && !remapDue (phaseAt 4 {}) && decide (State.reset.faults = []) && decide (State.reset.partCmds = [])
       && (let s := wr (stepOn { ring := 0, seq := 1, step := 7 }) F.ID_REPLAY_PHASE 4
           !remapDue s && decide (s.softRows = []) && decide (s.snapshot.regs = []) && decide (Room s (F.ID_FLT_CNT_COUNT 1)))) = true) := by
  decide +kernel

/-- Parameters of FW_STAGE: HOST 0, DEV, LEN. -/
def stageParams (dev len : Nat) : List Byte := natLE 8 0 ++ natLE 8 dev ++ natLE 8 len
theorem witness_FirmwareStagesActivatesRecovers_stage :
    (let p := stageParams 0x1000 64
     let c := cmd0 0x60 p
     let s := cmdIn .reset 0x60 p
     let z := stageParams 0 0
     let m := stageParams 0x1001 65
     (decide (Begins s 0 1 0x60 c) && zeroBytes c 0x28 24 && decide (rd s F.SEC_FW_STATE < 3) && decide (c.param 0x20 8 = 64)
       && decide (c.param 0x10 8 % 64 = 0) && stageRun (c.param 0x18 8) 64 && !reachesProgram s (c.param 0x18 8) 64 && !parkedRun s 0x1000 64
       && !(leAt (List.replicate 64 (0 : Byte)) 0x18 4 == 64)
       && decide (Begins (cmdIn .reset 0x60 z) 0 1 0x60 (cmd0 0x60 z)) && decide ((cmd0 0x60 z).param 0x20 8 = 0)
       && begins0 .reset 0x60 m && decide (maxImage < 2 ^ 26) && begins0 .reset 0x60 (stageParams 0x1000 (2 ^ 26))
       && begins0 .reset 0x60 (p ++ [1]) && !zeroBytes (cmd0 0x60 (p ++ [1])) 0x28 24
       && (let t := cmdIn (wr .reset F.SEC_FW_STATE 3) 0x60 p; decide (Begins t 0 1 0x60 c) && decide (3 ≤ rd t F.SEC_FW_STATE))) = true) := by decide +kernel
theorem witness_FirmwareStagesActivatesRecovers_activate :
    (let s := { cmdIn .reset 0x61 [] with staged := some (0x1000, 64) }
     let c := cmd0 0x61 []
     (decide (Begins s 0 1 0x61 c) && zeroBytes c 0x10 48 && decide (s.staged ≠ none) && decide (s.run = none) && aloneInJournal s 0 1
       && servesRings s (stagedBytes s) && digestsOk (stagedBytes s)
       && (let t := wrAll s [(F.CMD_RING_CFG_ENABLE 0, 1), (F.CMD_RING_STAT_VER_MAJ 0, 1)]; !servesRings t (stagedBytes t) && decide (Begins t 0 1 0x61 c))
       && decide ((cmdIn .reset 0x61 []).staged = none) && begins0 .reset 0x61 []
       && decide (rd (wr s F.SEC_FW_STATE 4) F.SEC_FW_STATE = 4)) = true) := by decide +kernel
theorem witness_FirmwareStagesActivatesRecovers_recover :
    (let s := wrAll State.reset [(F.HA_STAT_WIDTH, 8), (F.SEC_BOOT_STAGE, 4)]
     let u := { s with recover := some ⟨0, 64, List.replicate 64 0⟩ }
     let b := natLE 4 1 ++ natLE 4 0 ++ natLE 4 64 ++ natLE 4 0
     let d := natLE 4 2 ++ natLE 4 0 ++ natLE 4 64 ++ natLE 4 0 ++ List.replicate 64 (7 : Byte)
     let e := natLE 4 3 ++ natLE 4 0 ++ natLE 4 0 ++ natLE 4 0
     (recoverReachable s .mailbox && !recoverReachable s .sideband && inRecovery s && !inRecovery (wr s F.SEC_BOOT_STAGE 3) && decide (leAt b 0 1 = 1)
       && decide (16 ≤ b.length) && decide (leAt b 8 4 ≤ maxImage) && decide (leAt d 0 1 = 2) && decide (d.length = 16 + leAt d 8 4) && decide (leAt d 1 3 = 0)
       && decide (leAt d 0xC 4 = 0) && decide (leAt e 0 1 = 3) && decide (u.recover.isSome) && u.recover.all (fun b => b.via == 0)
       && (let v := { s with recover := some ⟨1, 64, []⟩ }; !v.recover.all (fun b => b.via == RecoverVia.mailbox.code))
       && !(leAt (List.replicate 64 (0 : Byte)) 0x18 4 == 64)) = true) := by decide +kernel

theorem witness_SignaturesCertificatesAndKeys_commands :
    (let at_ := fun (mask len : Nat) => List.replicate 32 (5 : Byte) ++ natLE 8 0 ++ natLE 4 len ++ natLE 4 mask
     let p := at_ 1 51200
     let c := cmd0 0x70 p
     let q := natLE 8 0 ++ natLE 8 0 ++ natLE 8 64 ++ natLE 4 64
     let d := cmd0 0x71 q
     let m := natLE 8 0 ++ natLE 8 0 ++ natLE 8 65 ++ natLE 4 64
     let s := { cmdIn .reset 0x70 p with sigs := [.attest 0 1 64 [1]] }
     (decide (Begins s 0 1 0x70 c) && decide (c.param 0x3C 4 < 2 ^ 24) && !misaligned64 [c.param 0x30 8, c.param 0x38 4]
       && begins0 .reset 0x70 (at_ (2 ^ 24) 51200) && begins0 .reset 0x70 (at_ 1 64) && decide (64 < idSigBytes)
       && decide (64 + 72 * (maskIndices (c.param 0x3C 4)).length + idSigBytes ≤ c.param 0x38 4)
       && (match s.sigs with
         | .attest a b _ _ :: _ => (cmdOf s a b).any (fun x => x.status.isNone)
         | _ => false)
       && decide (Room s (F.SEC_CNT_COUNT 0)) && decide (State.reset.sigs = [])
       && begins0 .reset 0x71 q && decide (d.param 0x10 1 ≤ 7) && zeroBytes d 0x11 7 && zeroBytes d 0x2C 20
       && !misaligned64 [d.param 0x20 8, d.param 0x28 4] && begins0 .reset 0x71 (natLE 1 8) && begins0 .reset 0x71 m
       && misaligned64 [(cmd0 0x71 m).param 0x20 8, (cmd0 0x71 m).param 0x28 4]) = true) := by decide +kernel
theorem witness_SignaturesCertificatesAndKeys_session :
    (let s := wr State.reset F.HA_STAT_CFG_READY 1
     let t := { s with sessions := [0] }
     (spdmServed s .doe && !spdmServed .reset .doe && !sessionOpen s .doe && spdmServed t .doe && sessionOpen t .doe && !keyInUse t 3
       && keyInUse (wrAll t [(F.SEC_PR_CTL_EN 0, 1), (F.SEC_PR_CTL_KEY_SLOT 0, 3)]) 3) = true) := by decide +kernel

theorem witness_HostLinkAndSidebandServe :
    (let s := { State.reset with powered := true, boot := { perst := false, verified := true } }
     let u := { s with boot := { cxl := true } }
     let x := wrAll State.reset [(F.HA_STAT_WIDTH, 8), (F.HA_STAT_FLIT, 2), (F.HA_CKPT_SIZE_SIZE, 1), (F.HA_STAT_CFG_READY, 1),
       (F.HA_CKPT_BASE_ADDR 0, 0x100000000000), (F.HC_HDM_CTL_EN, 1), (F.HC_HDM_DEC_COMMITTED, 1), (F.HC_HDM_SIZE_HI_SIZE, 128)]
     let held := { x with biWait := [⟨windowAddr x 0, List.replicate 64 1, false, 5⟩] }
     let y := { State.reset with boot := { block := true, sections := true }, dynAddr := some 9 }
     (s.powered && !s.boot.cxl && !s.boot.perst && s.boot.verified && decide (rd s (F.HA_CNT_COUNT 0) + 1 < counterMax) && u.boot.cxl
       && decide (rd u F.HA_STAT_CFG_READY ≠ 1) && cxlMode x && !cxlMode s && decide (hdmDpa x 0 = some 0) && decide (hdmDpa s 0 = none)
       && decide (hdmDpa x (2 ^ 24 * 64) = some (2 ^ 30)) && !unbound x 0 && unbound x (2 ^ 30) && !poisonedAt x (windowAddr x 0) && !udParked x 0
       && udParked (wr x F.PWR_UD_STATE_PARKED 1) 0 && poisonedAt { x with poison := [0x1000000000] } (windowAddr x 0)
       && (List.range 64).all (fun i => decide (physKey x (windowAddr x 0 + i) = some (windowAddr x 0 + i))) && decide (prRegions x = [])
       && decide (x.lineKeys = []) && decide (x.biWait = []) && (held.biWait.find? (fun w => w.line == windowAddr x 0)).isSome
       && decide (rd x F.HA_STAT_WIDTH ≠ 0) && decide (x.owed = []) && !sidebandServed s && sidebandServed y
       && decide (rd x F.HA_STAT_CFG_READY = 1) && decide ({ x with ideKeys := [(0, 1)] }.ideKeys ≠ [])) = true) := by decide +kernel

theorem witness_DramUpkeepActs :
    (decide (dramOf .reset 0 = some (true, 0, 0)) && decide (lineOf .reset 0 ≠ lastLine (true, 0, 0))
      && decide (dramOf .reset (hbmSize - 1) = some (true, 0, 31)) && decide (lineOf .reset (hbmSize - 1) = lastLine (true, 0, 31))
      && decide (dramOf .reset 0x100000000000 = some (false, 0, 0))
      && decide (dramOf .reset 0x200000000000 = none) && decide (rd State.reset F.ID_FLT_NEXT_NEXT < 16)
      && decide (Room .reset (F.HBM_SCRUB_COUNT 0)) && atBoundary .reset && decide (rowKey 0x5000 1 ∉ State.reset.softRows)
      && (let s := { State.reset with softRows := [rowKey 0x5000 1] }
          decide (rowKey 0x5000 1 ∈ s.softRows) && atBoundary s && decide (Room s (F.HBM_PPR_CNT_COUNT 0)))
      && (let s := wr State.reset (F.HBM_STAT_RET_PENDING 3) 1
          decide (rd s (F.HBM_STAT_RET_PENDING 3) = 1) && atBoundary s && stackClear s 3 && decide (rd s F.ID_FLT_NEXT_NEXT < 16)
            && decide (dramOf s 0x3000000000 = some (true, 3, rd s (F.HBM_STAT_RETIRED_PC 3))))) = true := by decide +kernel

/-- The module under power. -/
def lit : State := { State.reset with powered := true }
theorem witness_PowerInputsAct :
    (!State.reset.powered && lit.powered && decide (Room lit (F.PWR_CNT_COUNT 3)) && decide (lit.power.brake = 8)
      && decide (Room lit (F.PWR_CNT_COUNT 0)) && decide (rd lit F.PWR_STAT_BRAKE ≠ 1)
      && decide (rd (wr lit F.PWR_STAT_BRAKE 1) F.PWR_STAT_BRAKE = 1)
      && (let s := { lit with power := { brake := 4 } }
          s.powered && decide (s.power.brake ≠ 8) && decide (s.power.riseAt ≤ rd s F.TB_NOW_TIME))) = true := by decide +kernel

theorem witness_HeatAndClusterPowerStates :
    (let hot := fun (n : Nat) => wr lit (F.PWR_TEMP_TEMP n) 900
     let k := c0.cluster
     let at_ := fun (v : Nat) => wr lit (clStateFld k) v
     (decide (lit.power.dies.length = 8) && decide (Room lit (F.PWR_CNT_COUNT 2)) && decide (lit.boot.shut = false) && !State.reset.powered
      && decide ((880 : Int) ≤ temperature (hot 8) 8) && decide ((880 : Int) ≤ temperature (hot 0) 0)
      && decide (temperature lit 0 < (880 : Int)) && decide (rd lit F.ID_FLT_NEXT_NEXT < 16) && decide (lit.remaps = []) && decide (lit.rollout.conf = [])
      && decide (lit.journal = []) && clusterIdle lit k && decide (rd lit (clStateFld k) = 0) && lit.prog.isNone
      && decide (rd (at_ 2) (clStateFld k) = 2) && decide (rd (at_ 1) (clStateFld k) = 1)
      && !clusterIdle (setCluster lit k { copying := true }) k
      && (let s := { lit with prog := some {} }; !((coresOf k).all (coreRetired s)) && !clusterRetired s k && s.prog.isSome)) = true) := by decide +kernel

theorem witness_BringUpRunsItsSteps :
    (!State.reset.powered && lit.powered && !State.reset.boot.block
      && (let s : State := { lit with boot := { rails := true, block := true } }
          let w := wr s F.SEC_BOOT_WARM 1
          s.boot.rails && s.boot.block && !s.boot.verified && decide (rd s F.SEC_BOOT_STAGE < 4) && decide (Room s (F.SEC_CNT_COUNT 1))
            && decide (Room s (F.SEC_CNT_COUNT 2)) && decide (imageCause s.flash s.fuseSvn = some 1)
            && decide (rd w F.SEC_BOOT_WARM = 1) && decide (4 ≤ rd (wr s F.SEC_BOOT_STAGE 4) F.SEC_BOOT_STAGE))
      && (let s : State := { lit with boot := { verified := true, sections := true } }
          s.boot.verified && s.boot.sections && !s.boot.released && !s.boot.dram && decide (rd s F.SEC_BOOT_STAGE < 4)
            && decide (rd s F.ID_FLT_NEXT_NEXT < 16) && decide (rd s (F.HBM_STAT_RET_VALID 3) ≠ 1)
            && decide (rd s (F.HBM_STAT_FAILING 2) ≠ 1))
      && (let s : State := wr { lit with boot := { sections := true, released := true } } (F.HBM_STAT_RET_VALID 3) 1
          s.boot.released && decide (rd s (F.HBM_STAT_RET_VALID 3) = 1) && decide (rd s (F.HBM_STAT_RETIRED_PC 3) ≠ 9)
            && decide (rd (wr s (F.FP_CFG_ENABLE 0) 1) (F.FP_CFG_ENABLE 0) = 1))
      && (let s : State := { lit with boot := { sections := true, dram := true, perst := false } }
          s.boot.dram && decide (rd s F.CMD_STAT_READY ≠ 1) && decide (s.remaps = []) && !s.boot.perst)
      && (let s := wrAll lit [(F.CMD_STAT_READY, 1), (F.TB_NOW_TIME, 100000)]
          decide (rd s F.CMD_STAT_READY = 1) && s.boot.perst && !s.boot.shut && decide (s.boot.perstAt + 100000 ≤ rd s F.TB_NOW_TIME)
            && s.snapshot.regs.all (fun e => recorded e.1) && decide (s.prog = none))) = true := by decide +kernel
theorem test_ready_ms :
    (match exec .ready (wr { lit with boot := { sections := true, dram := true } } F.TB_NOW_TIME 412345678) with
      | .next t => rd t F.SEC_BOOT_READY_MS | _ => 0) = 412 := by decide +kernel
theorem test_dram_limit :
    (match exec (.dramTrainingDone [2] [] [(3, 9)]) { lit with boot := { sections := true } } with
      | .next t => [rd t (F.HBM_STAT_FAILING 2), rd t (F.HBM_STAT_TRAINED 2), rd t (F.HBM_STAT_RETIRED_PC 3), rd t (F.HBM_LIMIT_LIMIT 3),
          rd t F.CMD_STAT_MIR_B, rd t (F.ST_STAT_TRAINED 23)] | _ => []) = [1, 0, 9, 0xAD39DB100, 1, 1] := by decide +kernel

end Sys2Proof.Tests
end

section
/-!
PROOF. 02 R43, R44 and R47: the value of every code of K4, K8M, K8E and KS8.
A dyadic magnitude is read as one fraction; a code is its sign, exponent and mantissa fields; the obligation follows.
-/

namespace Sys2Proof.NumberFormats

open Sys2Proof Sys2Proof.Machine

/-- Both branches of `dyad` are the same fraction: of e⁺ and (−e)⁺ one is 0. -/
theorem dyad_eq_fin (neg : Bool) (n : Nat) (e : Int) :
    dyad neg n e = .fin neg (n * 2 ^ e.toNat) (2 ^ (-e).toNat) := by
  by_cases he : 0 ≤ e
  · have hneg : (-e).toNat = 0 := by omega
    simp [dyad, he, hneg]
  · have hpos : e.toNat = 0 := by omega
    simp [dyad, he, hpos]

/-! ### The fields of a code -/

/-- R42: the mantissa, the exponent and the bits above them make up the code. -/
theorem fields_sum (man exp c : Nat) :
    bits c 0 man + 2 ^ man * bits c man exp + 2 ^ (man + exp) * (c / 2 ^ (man + exp)) = c := by
  have hlow : c % 2 ^ (man + exp) = bits c 0 man + 2 ^ man * bits c man exp := by
    simp [bits, pow_add, Nat.mod_mul]
  rw [← hlow, Nat.mod_add_div]

/-- Among the codes of a format's width, the one with only the sign bit set has sign 1, exponent 0 and mantissa 0. -/
theorem eq_signCode_iff {man exp c : Nat} (hc : c < 2 ^ (man + exp + 1)) :
    c = 2 ^ (man + exp) ↔ bit c (man + exp) = true ∧ bits c man exp = 0 ∧ bits c 0 man = 0 := by
  have hsign : bit c (man + exp) = true ↔ c / 2 ^ (man + exp) = 1 := by
    have : c / 2 ^ (man + exp) < 2 := Nat.div_lt_of_lt_mul (by rwa [← pow_succ])
    simp [bit, bits, Nat.mod_eq_of_lt this]
  constructor
  · rintro rfl
    refine ⟨hsign.mpr (by simp), ?_, ?_⟩
    · simp [bits, pow_add]
    · simp [bits, pow_add]
  · rintro ⟨hs, he, hm⟩
    simpa [hm, he, hsign.mp hs] using (fields_sum man exp c).symm

/-! ### The formats without infinities (R44) -/

/-- R43 and R44: in a format without specials the sign code reads NaN, every other code its fields' value. -/
theorem decodeFloat_of_no_specials {f : Fmt} (hf : f.hasSpecials = false) (hks8 : f ≠ .ks8) (c : Nat) :
    decodeFloat f c =
      if bit c (f.man + f.expBits) = true ∧ bits c f.man f.expBits = 0 ∧ bits c 0 f.man = 0 then .nan
      else if bits c f.man f.expBits = 0 then
        dyad (bit c (f.man + f.expBits)) (bits c 0 f.man) (1 - (f.bias : Int) - f.man)
      else
        dyad (bit c (f.man + f.expBits)) (2 ^ f.man + bits c 0 f.man)
          ((bits c f.man f.expBits : Int) - f.bias - f.man) := by
  cases f with
  | ks8 => exact absurd rfl hks8
  | k16 | k32 => cases hf
  | _ => simp [decodeFloat, Fmt.hasSpecials, and_assoc]

/-- R44: in a format without specials, the sign code is NaN. -/
theorem decodeFloat_signCode {f : Fmt} (hf : f.hasSpecials = false) (hks8 : f ≠ .ks8) :
    decodeFloat f (2 ^ (f.man + f.expBits)) = .nan := by
  rw [decodeFloat_of_no_specials hf hks8, if_pos ((eq_signCode_iff (by simp [pow_succ])).mp rfl)]

/-- R44: in a format without specials, every code but the sign code is a finite number and none a negative zero. -/
theorem decodeFloat_finite {f : Fmt} (hf : f.hasSpecials = false) (hks8 : f ≠ .ks8) {c : Nat}
    (hc : c < 2 ^ (f.man + f.expBits + 1)) (hne : c ≠ 2 ^ (f.man + f.expBits)) :
    ∃ neg num den, decodeFloat f c = .fin neg num den ∧ 0 < den ∧ ¬ (neg = true ∧ num = 0) := by
  have hfields := mt (eq_signCode_iff hc).mpr hne
  rw [decodeFloat_of_no_specials hf hks8, if_neg hfields]
  split
  case isTrue he =>
    refine ⟨_, _, _, dyad_eq_fin .., by positivity, ?_⟩
    rintro ⟨hs, hnum⟩
    exact hfields ⟨hs, he, by simpa using hnum⟩
  case isFalse =>
    exact ⟨_, _, _, dyad_eq_fin .., by positivity, by simp⟩

/-! ### KS8 (R47) -/

/-- R47: the value of a KS8 code other than 0xFF, (4 + m) × 2^(e − 33). -/
theorem decodeFloat_ks8 {c : Nat} (hc : c < 255) :
    decodeFloat .ks8 c = .fin false ((4 + c % 4) * 2 ^ (c / 4 - 33)) (2 ^ (33 - c / 4)) := by
  have hvalid : c % 256 ≠ 255 := by omega
  have hman : bits c 0 (Fmt.man .ks8) = c % 4 := by simp [bits, Fmt.man]
  have hexp : bits c (Fmt.man .ks8) (Fmt.expBits .ks8) = c / 4 := by
    simp only [bits, Fmt.man, Fmt.expBits]; omega
  have hpos : (((c / 4 : Nat) : Int) - 31 - 2).toNat = c / 4 - 33 := by omega
  have hneg : (-(((c / 4 : Nat) : Int) - 31 - 2)).toNat = 33 - c / 4 := by omega
  simp only [decodeFloat, hman, hexp, if_neg hvalid, dyad_eq_fin, hpos, hneg]

/-- The fraction of `decodeFloat_ks8` is (1 + m/4) × 2^(e − 31), without its divisions. -/
theorem ks8_fraction (m e : Nat) :
    (4 + m) * 2 ^ (e - 33) * (4 * 2 ^ 31) = (4 + m) * 2 ^ e * 2 ^ (33 - e) := by
  have hexp : e - 33 + 33 = e + (33 - e) := by omega
  calc (4 + m) * 2 ^ (e - 33) * (4 * 2 ^ 31) = (4 + m) * 2 ^ (e - 33 + 33) := by ring
    _ = (4 + m) * 2 ^ e * 2 ^ (33 - e) := by rw [hexp, pow_add, mul_assoc]

/-- The range of the KS8 codes on R47's scale of 2^-33: 4 at 0x00 to 6 × 2^63 at 0xFE. -/
theorem ks8_range {c : Nat} (hc : c < 255) :
    4 ≤ (4 + c % 4) * 2 ^ (c / 4) ∧ (4 + c % 4) * 2 ^ (c / 4) ≤ 6 * 2 ^ 63 := by
  constructor
  · exact Nat.mul_le_mul (by omega : 4 ≤ 4 + c % 4) Nat.one_le_two_pow
  · rcases (by omega : c / 4 = 63 ∧ c % 4 ≤ 2 ∨ c / 4 ≤ 62) with ⟨he, hm⟩ | he
    · rw [he]
      exact Nat.mul_le_mul_right _ (by omega)
    · calc (4 + c % 4) * 2 ^ (c / 4) ≤ 8 * 2 ^ 62 :=
            Nat.mul_le_mul (by omega) (Nat.pow_le_pow_right (by omega) he)
        _ ≤ 6 * 2 ^ 63 := by norm_num

/-- R47: every KS8 code other than 0xFF is a positive number of KS8's range, with the values at its ends and at 0x7C. -/
theorem decodeFloat_ks8_value {c : Nat} (hc : c < 255) :
    ∃ num den, decodeFloat .ks8 c = .fin false num den ∧ 0 < num ∧ 0 < den
      ∧ num * (4 * 2 ^ 31) = (4 + c % 4) * 2 ^ (c / 4) * den ∧ den ≤ num * 2 ^ 31 ∧ 2 * num ≤ 3 * 2 ^ 32 * den
      ∧ (c = 0 → num * 2 ^ 31 = den) ∧ (c = 0xFE → 2 * num = 3 * 2 ^ 32 * den) ∧ (c = 0x7C → num = den) := by
  have hvalue := ks8_fraction (c % 4) (c / 4)
  obtain ⟨hlow, hhigh⟩ := ks8_range hc
  have hlowDen := Nat.mul_le_mul_right (2 ^ (33 - c / 4)) hlow
  have hhighDen := Nat.mul_le_mul_right (2 ^ (33 - c / 4)) hhigh
  refine ⟨_, _, decodeFloat_ks8 hc, by positivity, by positivity, hvalue, by omega, by omega, ?_, ?_, ?_⟩
  · rintro rfl; norm_num
  · rintro rfl; norm_num
  · rintro rfl; norm_num

/-- Settles O7: a narrow code by its sign, exponent and mantissa fields, a KS8 code by its fraction. -/
theorem narrowCodesNumbers : Obligations.NarrowCodesNumbers := by
  refine ⟨fun f hf c hc => ?_, fun c hc => decodeFloat_ks8_value hc⟩
  obtain ⟨hspecials, hks8, hwidth⟩ : f.hasSpecials = false ∧ f ≠ .ks8 ∧ f.width = f.man + f.expBits + 1 := by
    rcases hf with rfl | rfl | rfl <;> decide
  rw [hwidth] at hc ⊢
  rw [Nat.add_sub_cancel]
  by_cases hcode : c = 2 ^ (f.man + f.expBits)
  · simp [hcode, decodeFloat_signCode hspecials hks8]
  · have hfin := decodeFloat_finite hspecials hks8 hc hcode
    have ⟨_, _, _, hval, _⟩ := hfin
    exact ⟨by simp [hval, hcode], by simp [hval], fun _ => hfin⟩

end Sys2Proof.NumberFormats
end

section
/-!
PROOF. 15 R450: CXL.mem beyond the bound window, and a read of a poisoned line.
Beyond the window an access answers and counts. Within it the ECC report of the line may leave errors noted, a record in the fault log and a
new poison mark, but no byte, no mark removed and no register that the answer is read from; so a poisoned line's answer is the same under
every report.
-/

namespace Sys2Proof.WindowReads

open Sys2Proof Sys2Proof.Machine

/-! ### What a read error on a slow-tier line may change (11 R322, R329; 18 R516, R540) -/

/-- BAR0 bits of the module's identity, health and fault log (18 R539), of the event controller (17 R512) and of the slow-tier packages
(11 R345): where a read error on a slow-tier line may write. -/
def ErrorWrites (a : Nat) : Prop :=
  a < 0x1000 * 8 ∨ 0x20000 * 8 ≤ a ∧ a < 0x30000 * 8 ∨ 0x340000 * 8 ≤ a ∧ a < 0x370000 * 8

/-- From s to t only what a read error on a slow-tier line may change has changed: every poison mark stands, registers outside `ErrorWrites`
read as before, and the place of the next record stays within the fault log. -/
structure ErrorKept (s t : State) : Prop where
  records : ∃ r x f p c u q, t = { s with
    regs := r, events := { s.events with csatAt := x }, fired := f, poison := p, ceTimes := c, ueTimes := u, retired := q }
  poison : s.poison ⊆ t.poison
  regs : ∀ g : Fld, ¬ ErrorWrites g.at_ → rd t g = rd s g
  next : rd s F.ID_FLT_NEXT_NEXT < 16 → rd t F.ID_FLT_NEXT_NEXT < 16

/-- A change of the noted errors, the retired parts and further poison marks, none of a register. -/
theorem ErrorKept.of_records {s : State} {p : List Nat} {c u : List (Nat × Nat)} {q : List Nat} (hp : s.poison ⊆ p) :
    ErrorKept s { s with poison := p, ceTimes := c, ueTimes := u, retired := q } :=
  ⟨⟨s.regs, s.events.csatAt, s.fired, p, c, u, q, rfl⟩, hp, fun _ _ => rfl, id⟩

theorem ErrorKept.refl (s : State) : ErrorKept s s := .of_records (List.Subset.refl _)

theorem ErrorKept.trans {s t u : State} (h : ErrorKept s t) (k : ErrorKept t u) : ErrorKept s u where
  records := by
    obtain ⟨_, _, _, _, _, _, _, rfl⟩ := h.records
    obtain ⟨r, x, f, p, c, u, q, rfl⟩ := k.records
    exact ⟨r, x, f, p, c, u, q, rfl⟩
  poison := List.Subset.trans h.poison k.poison
  regs g hg := (k.regs g hg).trans (h.regs g hg)
  next hn := k.next (h.next hn)

theorem ErrorKept.of_regOnly {s t : State} (h : RegOnly s t) (hregs : ∀ g : Fld, ¬ ErrorWrites g.at_ → rd t g = rd s g)
    (hnext : rd s F.ID_FLT_NEXT_NEXT < 16 → rd t F.ID_FLT_NEXT_NEXT < 16) : ErrorKept s t := by
  obtain ⟨r, x, f, rfl⟩ := h
  exact ⟨⟨r, x, f, s.poison, s.ceTimes, s.ueTimes, s.retired, rfl⟩, List.Subset.refl _, hregs, hnext⟩

/-- A register that a read error may write, other than the place of the next fault record. -/
def ErrorFld (f : Fld) : Prop := ErrorWrites f.at_ ∧ F.ID_FLT_NEXT_NEXT.at_ ≠ f.at_

theorem errorKept_wrAll (s : State) {l : List (Fld × Nat)} (h : ∀ e ∈ l, ErrorFld e.1) : ErrorKept s (wrAll s l) := by
  refine .of_regOnly (regOnly_wrAll s l) (fun g hg => rd_wrAll_ne s l g fun e he heq => hg ?_) fun hn => ?_
  · exact heq ▸ (h e he).1
  · rwa [rd_wrAll_ne s l _ fun e he => (h e he).2]

theorem errorKept_wr (s : State) {f : Fld} (v : Nat) (h : ErrorFld f) : ErrorKept s (wr s f v) :=
  errorKept_wrAll s (l := [(f, v)]) (by simpa using h)

theorem satFields_errorWrites {a : Nat} (h : a ∈ satFields) : ErrorWrites a ∧ F.ID_FLT_NEXT_NEXT.at_ ≠ a := by
  simp only [satFields, F.EVC_CSAT_VALID, F.EVC_CSAT_MEM, F.EVC_CSAT_ADDR, F.EVC_CNT_COUNT, List.mem_cons, List.not_mem_nil, or_false] at h
  simp only [ErrorWrites, F.ID_FLT_NEXT_NEXT]
  omega

theorem errorKept_bump (s : State) {f : Fld} (h : ErrorFld f) (n : Nat) : ErrorKept s (bump s f n) := by
  refine .of_regOnly (regOnly_bump s f n) (fun g hg => rd_bump_ne s f n (fun e => hg (e ▸ h.1)) fun hsat => hg ?_) fun hn => ?_
  · exact (satFields_errorWrites hsat).1
  · rwa [rd_bump_ne s f n h.2 fun hsat => (satFields_errorWrites hsat).2 rfl]

/-! ### The fault log -/

theorem logFields_errorFld {n : Nat} (hn : n < 16) : ∀ f ∈ logFields n, ErrorFld f := by
  simp only [logFields, List.forall_mem_cons, List.not_mem_nil, false_implies, implies_true, and_true, ErrorFld, ErrorWrites,
    F.ID_FLT_NEXT_NEXT, F.ID_FLT_LOG_W0_VALID, F.ID_FLT_LOG_W0_CLASS, F.ID_FLT_LOG_W0_CAUSE, F.ID_FLT_LOG_W0_UNIT,
    F.ID_FLT_LOG_W1_STEP, F.ID_FLT_LOG_W2_TIME, F.ID_FLT_LOG_W3_TIME]
  omega

theorem errorKept_logEntry (s : State) {n : Nat} (hn : n < 16) (vs : List Nat) : ErrorKept s (wrAll s ((logFields n).zip vs)) :=
  errorKept_wrAll s fun _ he => logFields_errorFld hn _ (List.of_mem_zip he).1

theorem logPlace_lt (unit k : Nat) {n : Nat} (s : State) (hn : n < 16) : (logPlace unit k n s).1 < 16 := by
  induction k generalizing n s with
  | zero => exact hn
  | succ k ih =>
    simp only [logPlace]
    split
    · exact ih _ (Nat.mod_lt _ (by decide))
    · exact hn

theorem errorKept_logPlace (unit k : Nat) {n : Nat} (s : State) (hn : n < 16) : ErrorKept s (logPlace unit k n s).2 := by
  induction k generalizing n s with
  | zero => exact .refl s
  | succ k ih =>
    simp only [logPlace]
    split
    · exact (errorKept_logEntry s hn _).trans (ih _ (Nat.mod_lt _ (by decide)))
    · exact .refl s

/-- NEXT takes four bits, so that whatever is written names an entry. -/
theorem errorKept_next (s : State) (v : Nat) : ErrorKept s (wr s F.ID_FLT_NEXT_NEXT v) := by
  refine .of_regOnly (regOnly_wr s _ v) (fun g hg => rd_wr_ne s v fun heq => hg ?_) fun _ => ?_
  · rw [heq]
    exact .inl (by decide)
  · rw [rd_wr_same]
    exact Nat.mod_lt _ (by decide)

theorem errorKept_logFault (s : State) (cls cause unit : Nat) (hn : rd s F.ID_FLT_NEXT_NEXT < 16) :
    ErrorKept s (logFault s cls cause unit) := by
  have hwrap : ErrorKept s (if rdb s (F.ID_FLT_LOG_W0_VALID (rd s F.ID_FLT_NEXT_NEXT)) then wr s F.ID_FLT_NEXT_WRAPPED 1 else s) := by
    split
    · exact errorKept_wr s 1 ⟨.inl (by decide), by decide⟩
    · exact .refl s
  have hmoved := hwrap.trans (errorKept_logPlace unit 15 _ hn)
  exact (hmoved.trans (errorKept_logEntry _ (logPlace_lt unit 15 _ hn) _)).trans (errorKept_next _ _)

theorem errorKept_markPart (s : State) (unit cause : Nat) (hn : rd s F.ID_FLT_NEXT_NEXT < 16) :
    ErrorKept s (markPart s unit cause) := by
  have hlogged : ErrorKept s (wr (logFault s 3 cause unit) F.ID_HEALTH_DEGRADED 1) :=
    (errorKept_logFault s 3 cause unit hn).trans (errorKept_wr _ 1 ⟨.inl (by decide), by decide⟩)
  unfold markPart
  dsimp only
  split
  · exact hlogged
  · exact hlogged.trans (.of_records (List.Subset.refl _))

/-! ### Slow-tier lines (11 R328, R329) -/

theorem slow_die_lt {a m off : Nat} (h : regionOf a = .slow m off) : m < 4 := by
  unfold regionOf at h
  dsimp only at h
  split_ifs at h with _ _ hslow
  obtain ⟨rfl, -⟩ := Region.slow.inj h
  simp only [Bool.and_eq_true, decide_eq_true_eq] at hslow
  omega

theorem dramOf_slow (s : State) {a m off : Nat} (h : regionOf a = .slow m off) :
    dramOf s a = some (false, 6 * m + off / 256 % 6, 0) := by
  unfold dramOf
  rw [h]
  cases regionOf (viewRoute s a) <;> rfl

/-- The registers of the 24 packages lie where a read error may write. -/
theorem errorFld_of_package {n : Nat} (hn : n < 24) {f : Fld} (hlo : (0x340000 + n * 0x2000) * 8 ≤ f.at_)
    (hhi : f.at_ < (0x340000 + n * 0x2000 + 0x2000) * 8) : ErrorFld f := by
  simp only [ErrorFld, ErrorWrites, F.ID_FLT_NEXT_NEXT]
  omega

theorem errorKept_packageThreshold (s : State) {n pc : Nat} (hpkg : n < 24) (hn : rd s F.ID_FLT_NEXT_NEXT < 16) :
    ErrorKept s (dramThreshold s (false, n, pc)) := by
  have hfailing : ErrorKept s (wrAll s [(F.ST_STAT_FAILING n, 1), (F.ID_HEALTH_ST_FAIL, rd s F.ID_HEALTH_ST_FAIL + 1)]) := by
    refine errorKept_wrAll s ?_
    simp only [List.forall_mem_cons, List.not_mem_nil, false_implies, implies_true, and_true]
    refine ⟨errorFld_of_package hpkg ?_ ?_, .inl (by decide), by decide⟩ <;> simp only [F.ST_STAT_FAILING] <;> omega
  simp only [dramThreshold, Bool.false_eq_true, if_false]
  split
  · exact .refl s
  · exact hfailing.trans (errorKept_markPart _ _ _ (hfailing.next hn))

/-- A package that meets the threshold after an error was noted (18 R516). -/
theorem ErrorKept.threshold {s t : State} (h : ErrorKept s t) (hit : Bool) {n pc : Nat} (hpkg : n < 24)
    (hn : rd s F.ID_FLT_NEXT_NEXT < 16) : ErrorKept s (if hit then dramThreshold t (false, n, pc) else t) := by
  cases hit with
  | false => exact h
  | true => exact h.trans (errorKept_packageThreshold t hpkg (h.next hn))

theorem errorKept_noteCe (s : State) (part : Nat) : ErrorKept s (noteCe s part).2 := .of_records (List.Subset.refl _)

theorem errorKept_noteUe (s : State) (part : Nat) : ErrorKept s (noteUe s part).2 := .of_records (List.Subset.refl _)

/-- The number of the package that holds a slow-tier line (11 R328). -/
theorem package_lt {a m off : Nat} (ha : regionOf a = .slow m off) : 6 * m + off / 256 % 6 < 24 := by
  have := slow_die_lt ha
  omega

theorem errorKept_dramCorrected (s : State) {a m off : Nat} (ha : regionOf a = .slow m off) (hn : rd s F.ID_FLT_NEXT_NEXT < 16) :
    ErrorKept s (dramCorrected s a) := by
  have hpkg := package_lt ha
  have hcnt : ErrorFld (F.ST_CE_CNT_COUNT (6 * m + off / 256 % 6)) :=
    errorFld_of_package hpkg (by simp only [F.ST_CE_CNT_COUNT]; omega) (by simp only [F.ST_CE_CNT_COUNT]; omega)
  unfold dramCorrected
  rw [dramOf_slow s ha]
  exact ((errorKept_bump s hcnt 1).trans (errorKept_noteCe _ _)).threshold _ hpkg hn

theorem errorKept_poisonLine (s : State) (k : Nat) :
    ErrorKept s (if s.poison.contains k then s else { s with poison := s.poison ++ [k] }) := by
  split
  · exact .refl s
  · exact .of_records (List.subset_append_left _ _)

/-- The line's address is captured where the package holds none yet. -/
theorem errorKept_capturePoison (s : State) {n : Nat} (hpkg : n < 24) (line : Nat) :
    ErrorKept s (if rdb s (F.ST_POISON_VALID n) then s else wrAll s [(F.ST_POISON_VALID n, 1), (F.ST_POISON_ADDR n, line)]) := by
  split
  · exact .refl s
  · refine errorKept_wrAll s ?_
    simp only [List.forall_mem_cons, List.not_mem_nil, false_implies, implies_true, and_true]
    constructor <;> apply errorFld_of_package hpkg <;> simp only [F.ST_POISON_VALID, F.ST_POISON_ADDR] <;> omega

theorem errorKept_dramUncorrectable (s : State) {a m off : Nat} (ha : regionOf a = .slow m off) (hn : rd s F.ID_FLT_NEXT_NEXT < 16) :
    ErrorKept s (dramUncorrectable s a) := by
  have hpkg := package_lt ha
  have hcnt : ErrorFld (F.ST_UE_CNT_COUNT (6 * m + off / 256 % 6)) :=
    errorFld_of_package hpkg (by simp only [F.ST_UE_CNT_COUNT]; omega) (by simp only [F.ST_UE_CNT_COUNT]; omega)
  have hpoisoned := errorKept_poisonLine s (lineOf s a / 256)
  have hcounted := hpoisoned.trans (errorKept_bump _ hcnt 1)
  have hcaptured := hcounted.trans (errorKept_capturePoison _ hpkg (lineOf s a))
  simp only [dramUncorrectable, dramOf_slow s ha, Bool.false_eq_true, if_false]
  exact (hcaptured.trans (errorKept_noteUe _ _)).threshold _ hpkg hn

/-! ### What a host reads of the line afterwards -/

theorem prRegions_congr {s t : State} (hslots : t.keySlots = s.keySlots)
    (hregs : ∀ g : Fld, 0x50000 * 8 ≤ g.at_ → g.at_ < 0x60000 * 8 → rd t g = rd s g) : prRegions t = prRegions s := by
  have hwindow : ∀ n ∈ List.range 16, rd t (F.SEC_PR_CTL_EN n) = rd s (F.SEC_PR_CTL_EN n)
      ∧ rd t (F.SEC_PR_BASE_ADDR n) = rd s (F.SEC_PR_BASE_ADDR n) ∧ rd t (F.SEC_PR_LIMIT_ADDR n) = rd s (F.SEC_PR_LIMIT_ADDR n)
      ∧ rd t (F.SEC_PR_CTL_KEY_SLOT n) = rd s (F.SEC_PR_CTL_KEY_SLOT n) := by
    intro n hn
    have hlt := List.mem_range.mp hn
    refine ⟨hregs _ ?_ ?_, hregs _ ?_ ?_, hregs _ ?_ ?_, hregs _ ?_ ?_⟩ <;>
      simp only [F.SEC_PR_CTL_EN, F.SEC_PR_BASE_ADDR, F.SEC_PR_LIMIT_ADDR, F.SEC_PR_CTL_KEY_SLOT] <;> omega
  unfold prRegions
  rw [List.filter_congr fun n hn => by rw [rdb, (hwindow n hn).1, ← rdb], hslots]
  refine List.map_congr_left fun n hn => ?_
  obtain ⟨-, hbase, hlimit, hslot⟩ := hwindow n (List.mem_filter.mp hn).1
  rw [hbase, hlimit, hslot]

theorem ldBytes_congr {s t : State} (hmem : t.mem = s.mem) (hkeys : t.lineKeys = s.lineKeys) (hphys : ∀ a, physKey t a = physKey s a)
    (hprot : prRegions t = prRegions s) (a n : Nat) : ldBytes t a n = ldBytes s a n := by
  simp only [ldBytes, ldByte, hmem, hkeys, hphys, hprot]

/-- Memory, its keys, the addresses it is reached by, the waiting window lines and the answers given are as they were. -/
theorem ErrorKept.frame {s t : State} (h : ErrorKept s t) :
    t.mem = s.mem ∧ t.lineKeys = s.lineKeys ∧ t.keySlots = s.keySlots ∧ t.pair = s.pair ∧ t.biWait = s.biWait ∧ t.replies = s.replies := by
  obtain ⟨_, _, _, _, _, _, _, rfl⟩ := h.records
  exact ⟨rfl, rfl, rfl, rfl, rfl, rfl⟩

theorem ErrorKept.ldBytes {s t : State} (h : ErrorKept s t) (a n : Nat) : ldBytes t a n = ldBytes s a n := by
  obtain ⟨hmem, hkeys, hslots, hpair, -, -⟩ := h.frame
  have hphys : ∀ b, physKey t b = physKey s b := by
    refine physKey_congr hpair (h.regs _ ?_) fun x => h.regs _ ?_
    · simp only [ErrorWrites, F.UD_GEN_CUR]
      omega
    · simp only [ErrorWrites, remapFld, clusterBase]
      omega
  have hprot : prRegions t = prRegions s := by
    refine prRegions_congr hslots fun g hlo hhi => h.regs g ?_
    simp only [ErrorWrites]
    omega
  exact ldBytes_congr hmem hkeys hphys hprot a n

/-- A slow-tier line's own address is the key of its bytes and of its poison mark. -/
theorem poisonedAt_slow (s : State) {a m off : Nat} (ha : regionOf a = .slow m off) :
    poisonedAt s a = true ↔ a / 256 ∈ s.poison := by
  have hphys : physKey s a = some a := by simp [physKey, ha]
  simp [poisonedAt, hphys]

theorem poisonedAt_slow_mono {s t : State} {a m off : Nat} (ha : regionOf a = .slow m off) (h : s.poison ⊆ t.poison)
    (hp : poisonedAt s a = true) : poisonedAt t a = true :=
  (poisonedAt_slow t ha).mpr (h ((poisonedAt_slow s ha).mp hp))

theorem hostLine_of_waiting {s : State} {a : Nat} {w : BiWait} (hw : s.biWait.find? (fun w => w.line == a) = some w) :
    hostLine s a = (w.old, w.bad) := by
  simp [hostLine, hw]

theorem hostLine_of_not_waiting {s : State} {a : Nat} (hw : s.biWait.find? (fun w => w.line == a) = none) :
    hostLine s a = (ldBytes s a 64, poisonedAt s a) := by
  simp [hostLine, hw]

/-- The state in which a window line is answered: the ECC report of its read has been taken. -/
def reported (s : State) (a : Nat) : StoreErr → State
  | .clean => s
  | .corrected => dramCorrected s a
  | .uncorrectable => dramUncorrectable s a

theorem errorKept_reported (s : State) {a m off : Nat} (err : StoreErr) (ha : regionOf a = .slow m off)
    (hn : rd s F.ID_FLT_NEXT_NEXT < 16) : ErrorKept s (reported s a err) := by
  cases err with
  | clean => exact .refl s
  | corrected => exact errorKept_dramCorrected s ha hn
  | uncorrectable => exact errorKept_dramUncorrectable s ha hn

/-! ### The accesses (15 R449, R450) -/

/-- An answer of the module to a CXL.mem access, and a counter that advances with it. -/
def answered (s : State) (r : Reply) (f : Fld) : State := bump { s with replies := s.replies ++ [r] } f 1

/-- The reply leaves, the counter with room advances, and nothing else differs but what a saturation touches (17 R505, R506). -/
theorem answered_spec (s : State) (r : Reply) {f : Fld} (hw : f.width = 64) :
    (answered s r f).replies = s.replies ++ [r]
      ∧ (Room s f → rd (answered s r f) f = rd s f + 1) ∧ RegsKept s (answered s r f) (f :: satTouched)
      ∧ answered s r f = { s with regs := (answered s r f).regs, events := satOf s (answered s r f),
                                  fired := (answered s r f).fired, replies := (answered s r f).replies } := by
  have hcount : Room s f → rd (answered s r f) f = rd s f + 1 := fun h => bump_one { s with replies := s.replies ++ [r] } hw h
  have hregs : RegsKept s (answered s r f) (f :: satTouched) := by
    obtain ⟨-, hkept, -⟩ := bump_spec { s with replies := s.replies ++ [r] } f 1
    exact hkept
  have honly : RegOnly { s with replies := s.replies ++ [r] } (answered s r f) := regOnly_bump _ f 1
  generalize answered s r f = t at hcount hregs honly ⊢
  obtain ⟨_, _, _, rfl⟩ := honly
  exact ⟨rfl, hcount, hregs, rfl⟩

section accesses

variable {s : State} {line : BitVec 46} {o : Nat}

theorem exec_cxlMemRead (err : StoreErr) : exec (.cxlMemRead line err) s = execCxlMemRead line err s := rfl

theorem exec_cxlMemWrite (data : List Byte) : exec (.cxlMemWrite line data) s = execCxlMemWrite line data s := rfl

theorem exec_cxlMemRead_unbound (hdpa : hdmDpa s (line.toNat * 64) = some o) (ho : unbound s o = true) (err : StoreErr) :
    exec (.cxlMemRead line err) s
      = .next (answered s (.memData o (List.replicate 64 0) false) (F.HA_CNT_COUNT 4)) := by
  simp [exec_cxlMemRead, execCxlMemRead, hdpa, ho, answered]

theorem exec_cxlMemWrite_unbound (hdpa : hdmDpa s (line.toNat * 64) = some o) (ho : unbound s o = true) (data : List Byte) :
    exec (.cxlMemWrite line data) s = .next (answered s (.memDone o) (F.HA_CNT_COUNT 4)) := by
  simp [exec_cxlMemWrite, execCxlMemWrite, hdpa, ho, answered]

theorem exec_cxlMemRead_parked (hdpa : hdmDpa s (line.toNat * 64) = some o) (ho : unbound s o = false)
    (hud : udParked s (o / 4096 % 4) = true) (err : StoreErr) : exec (.cxlMemRead line err) s = .next s := by
  simp [exec_cxlMemRead, execCxlMemRead, hdpa, ho, hud]

/-- A line that is poisoned once its ECC report is taken is answered with the poison indication, and counted. -/
theorem exec_cxlMemRead_poisoned (hdpa : hdmDpa s (line.toNat * 64) = some o) (ho : unbound s o = false)
    (hud : udParked s (o / 4096 % 4) = false) (err : StoreErr) {data : List Byte}
    (hline : hostLine (reported s (windowAddr s o) err) (windowAddr s o) = (data, true)) :
    exec (.cxlMemRead line err) s
      = .next (answered (reported s (windowAddr s o) err) (.memData o data true) (F.HA_CNT_COUNT 5)) := by
  rw [exec_cxlMemRead, execCxlMemRead]
  cases err <;> simp only [reported] at hline ⊢ <;> simp [hdpa, ho, hud, hline, answered]

end accesses

/-- A read of a bound line that is poisoned for the host once the ECC report is taken: the line leaves with the poison indication and
HA_CNT_5 advances; no byte, no waiting line and no poison mark is lost. -/
theorem cxlMemRead_poisoned_spec {s : State} {line : BitVec 46} {o m off : Nat} (err : StoreErr) {data : List Byte}
    (hdpa : hdmDpa s (line.toNat * 64) = some o) (ho : unbound s o = false) (hud : udParked s (o / 4096 % 4) = false)
    (ha : regionOf (windowAddr s o) = .slow m off) (hn : rd s F.ID_FLT_NEXT_NEXT < 16)
    (hline : hostLine (reported s (windowAddr s o) err) (windowAddr s o) = (data, true)) :
    ∃ t, exec (.cxlMemRead line err) s = .next t ∧ t.replies = s.replies ++ [.memData o data true]
      ∧ (Room s (F.HA_CNT_COUNT 5) → rd t (F.HA_CNT_COUNT 5) = rd s (F.HA_CNT_COUNT 5) + 1)
      ∧ s.poison ⊆ t.poison ∧ t.biWait = s.biWait ∧ t.mem = s.mem := by
  have hkept := errorKept_reported s err ha hn
  have hcnt : rd (reported s (windowAddr s o) err) (F.HA_CNT_COUNT 5) = rd s (F.HA_CNT_COUNT 5) :=
    hkept.regs _ (by simp only [ErrorWrites, F.HA_CNT_COUNT]; omega)
  obtain ⟨hmem, -, -, -, hwaiting, hreplies⟩ := hkept.frame
  obtain ⟨hreply, hcount, -, honly⟩ := answered_spec (reported s (windowAddr s o) err) (.memData o data true) (f := F.HA_CNT_COUNT 5) rfl
  refine ⟨_, exec_cxlMemRead_poisoned hdpa ho hud err hline, ?_, fun hroom => ?_, ?_, ?_, ?_⟩
  · rw [hreply, hreplies]
  · rw [hcount (by rwa [Room, hcnt]), hcnt]
  · rw [honly]
    exact hkept.poison
  · rw [honly]
    exact hwaiting
  · rw [honly]
    exact hmem

/-- Settles O34: beyond the window by the counted answer; within it by what a line's ECC report cannot change. -/
theorem cxlMemBeyondAndPoisoned : Obligations.CxlMemBeyondAndPoisoned := by
  refine ⟨fun s line o hdpa hsize => ?_, fun s line err o m off hdpa hsize => ?_⟩
  · have ho : unbound s o = true := decide_eq_true hsize
    refine ⟨fun err => ?_, fun data => ?_⟩
    · exact ⟨_, exec_cxlMemRead_unbound hdpa ho err, answered_spec s _ rfl⟩
    · obtain ⟨hreply, hcount, hregs, honly⟩ := answered_spec s (.memDone o) (f := F.HA_CNT_COUNT 4) rfl
      exact ⟨_, exec_cxlMemWrite_unbound hdpa ho data, by rw [honly], by rw [honly], hreply, hcount, hregs, honly⟩
  · have ho : unbound s o = false := decide_eq_false (Nat.not_le.mpr hsize)
    refine ⟨fun hud => exec_cxlMemRead_parked hdpa ho hud err, fun ha hud hn => ?_⟩
    have hkept := errorKept_reported s err ha hn
    obtain ⟨-, -, -, -, hwaiting, -⟩ := hkept.frame
    refine ⟨fun hp hfind => ?_, fun w hfind hbad => ?_⟩
    · have hline : hostLine (reported s (windowAddr s o) err) (windowAddr s o) = (ldBytes s (windowAddr s o) 64, true) := by
        rw [hostLine_of_not_waiting (hwaiting ▸ hfind), hkept.ldBytes, poisonedAt_slow_mono ha hkept.poison hp]
      obtain ⟨t, hexec, hreply, hcount, hpoison, -, hmem⟩ := cxlMemRead_poisoned_spec err hdpa ho hud ha hn hline
      exact ⟨t, hexec, hreply, hcount, poisonedAt_slow_mono ha hpoison hp, hmem⟩
    · have hline : hostLine (reported s (windowAddr s o) err) (windowAddr s o) = (w.old, true) := by
        rw [hostLine_of_waiting (hwaiting ▸ hfind), hbad]
      obtain ⟨t, hexec, hreply, hcount, -, hwait, hmem⟩ := cxlMemRead_poisoned_spec err hdpa ho hud ha hn hline
      exact ⟨t, hexec, hreply, hcount, hwait, hmem⟩

end Sys2Proof.WindowReads
end
